-- ==== Sys2Proof/Word.lean ====
section
/-! DEFINITION. The word types of the machine and the plainest of their arithmetic (R5, R6, R59). -/

namespace Sys2Proof

/-- A control thread's register, special register or address: 64 bits (R59). -/
abbrev Word := BitVec 64

/-- One byte of any memory (R6). -/
abbrev Byte := BitVec 8

/-- A W word, a lane vector or the data of a token: 32 bits (R137). -/
abbrev W32 := BitVec 32

/-- `n` zero-extended to a word. -/
abbrev Word.ofN (n : Nat) : Word := BitVec.ofNat 64 n

end Sys2Proof
end

