-- ==== Sys2Proof/Config.lean ====
section
/-! DEFINITION. What an implementation fixes and the manual leaves open: free values, which have no
body, so that no proof can see what they are, and the keys of R416 and R417. -/

namespace Sys2Proof

/-- A choice that the manual leaves open, drawn afresh at each number: the order in which a commit
interleaves its chains (R229), which of several faults of one firing its trap reports (R144). -/
opaque Config.pick : Nat → Nat

/-- A value that the manual does not state, drawn afresh at each number. -/
opaque Config.freeWord : Nat → BitVec 64

/-- A two-way outcome that the manual leaves open, drawn afresh at each number: whether a committed
store whose reply never arrives has been performed (R331). -/
opaque Config.freeBit : Nat → Bool

/-- The private key of the device's identity, made at manufacture (R417). -/
opaque Config.identityKey : Nat

/-- The private attestation key that firmware derives at a boot (R417). -/
opaque Config.attestKey : (boot : Nat) → Nat

/-- The secret number of a signature, drawn afresh at each number (R417). -/
opaque Config.signSecret : Nat → Nat

/-- The hash of the signing key fused at manufacture (R416). -/
opaque Config.fusedKeyHash : BitVec 384

/-- The security version number fused at manufacture (R416). -/
opaque Config.fusedSvn : BitVec 32

/-- Whether another package's supervisor has granted an owner identifier a 1 GiB region of its memory
(R329). What another package holds is not this package's state: a free value (log entry 11). -/
opaque Config.remoteAdmits : (pkg owner region : Nat) → Bool

end Sys2Proof
end

