-- ==== Sys2Proof/Syntax.lean ====
section
/-! DEFINITION. The whole set of the part's steps, one constructor of `Instr` for each row of the
opcode table: the control words (R39 to R46), the element instructions (R138 to R140, R147) and the
events of the engines, the network, the sequencers and the supervisor (file 95 of the spec). -/

namespace Sys2Proof

/-- The stall count and the guard that every control word carries in bits 31:24 (R39). -/
structure Ctl where
  sc : BitVec 4
  g : BitVec 4
  deriving DecidableEq, Repr

/-- The trigger half of a slot, bits 127:64, with V = 1 and the reserved bits 68:64 zero (R138).
BEATS is `beatsM1 + 1`. -/
structure Trig where
  pcare : BitVec 16
  pval : BitVec 16
  inreq : BitVec 6
  beatsM1 : BitVec 5
  outreq : BitVec 7
  tagch : BitVec 3
  tagv : BitVec 2
  fmt : BitVec 3
  deriving DecidableEq, Repr

/-- The compute form of bits 56:0 of a slot (R139). -/
structure Comp where
  dst : BitVec 5
  sa : BitVec 5
  sb : BitVec 5
  scc : BitVec 5
  deq : BitVec 6
  pupd : BitVec 1
  ppred : BitVec 4
  pop : BitVec 3
  xinc : BitVec 2
  off8 : BitVec 8
  lapinc : BitVec 1
  imm12 : BitVec 12
  deriving DecidableEq, Repr

/-- The memory form of bits 56:0 of a slot (R140). -/
structure MemF where
  chain : BitVec 4
  own : BitVec 8
  pred : BitVec 8
  succ : BitVec 8
  addr : BitVec 5
  data : BitVec 5
  deq : BitVec 6
  off8 : BitVec 8
  size : BitVec 2
  amo : BitVec 3
  deriving DecidableEq, Repr

/-- A direction of a neighbour link, in the order of the channel bits n, e, s, w (R137, R138). -/
inductive LinkDir where
  | n | e | s | w
  deriving DecidableEq, Repr

/-- A neighbour link, named by its sending TE and the output it leaves on (R171). -/
structure LinkAt where
  tile : Nat
  col : Nat
  row : Nat
  dir : LinkDir
  deriving DecidableEq, Repr

/-- What goes wrong with a free-slot count (R189, R191): a return dropped for its parity, a count
whose parity fails, or a count that changes without its parity showing it. -/
inductive LinkFault where
  | returnLost
  | countParity
  | silentCount (n : Nat)
  deriving DecidableEq, Repr

/-- The request whose reply has not arrived within the bound of R331. -/
inductive TimeoutTarget where
  | load (tile slot k : Nat)
  | store (tile slot : Nat) (space : BitVec 2)
  | command (tile cmd : Nat)
  | chain (tile col row : Nat)
  deriving DecidableEq, Repr

/-- A request that another package sends to this one's device memory (R329, R107). -/
inductive RemoteKind where
  | load
  | store
  | amo (op : BitVec 3) (returning : Bool)
  deriving DecidableEq, Repr

structure RemoteReq where
  pkg : Nat
  owner : Nat
  pa : Nat
  size : Nat
  kind : RemoteKind
  data : BitVec 64
  compare : BitVec 64
  deriving DecidableEq, Repr

/-- What an invalidation names: a virtual range under one root, an owner identifier, or all (R328). -/
inductive InvalScope where
  | range (part : Nat) (host : Bool) (lo hi : Nat)
  | owner (o : Nat)
  | everything
  deriving DecidableEq, Repr

/-- A counter of R420, or a scratchpad bank's of R263: the unit's kind, its number and the counter's
place in the unit's row. -/
structure CounterId where
  unit : Nat
  index : Nat
  counter : Nat
  deriving DecidableEq, Repr

/-- The place an uncorrectable error is found at (R234, R350, R342); `inShadow` names a place of the swapped
context of R345. -/
inductive ErrLoc where
  | granule (loc : Nat)
  | wWord (tile col row index : Nat)
  | slotHalf (tile col row slot : Nat)
  | sReg (tile slot : Nat) (r : BitVec 5)
  | pReg (tile slot : Nat) (p : BitVec 4)
  | held (tile cell entry : Nat)
  | accum (tile acc : Nat)
  | mapEntry (tile cell : Nat)
  | bedWord (tile bed : Nat)
  | tokenSlot (tile tok : Nat)
  | threadRegion (tile slot : Nat)
  | fabricRun (img : Nat)
  | trapRegs (tile slot : Nat)
  | snapshot (img tile col row : Nat)
  | inShadow (l : ErrLoc)
  deriving DecidableEq, Repr

/-- A supervisor write of a management-map register that has no row of its own (R332): partition
creation and its settings (R297, R324, R342, R347, R349, R352, R239), the grants of slices (R92) and
of remote regions (R329), the package ring (R352), a supervisor abort (R303), the resume of a stopped
image (R228, R212), a package number, the fused minimum SVN (R416), an entry of the MSI-X table or an HDM decoder
(R332), and the spill or fill of a context window's W and SP to or from device memory (R347). -/
inductive MgmtWrite where
  | blockOwner (block owner : Nat)
  | createPartition (part owner : Nat) (blocks : List Nat)
  | partWindow (part : Nat) (va : BitVec 64)
  | partRoot (part : Nat) (host : Bool) (pa : Nat)
  | partHandler (part : Nat) (tvec : BitVec 64)
  | partReentryMax (part : Nat) (v : BitVec 8)
  | partRing (part base size tail : Nat)
  | grant (part level unit lo hi : Nat)
  | contextWindow (tile ctx wbase wlim spbase splim : Nat)
  | selectContext (tile ctx : Nat)
  | remoteGrant (pkg owner region : Nat) (allow : Bool)
  | packageRing (base size tail : Nat)
  | packageNumber (n : Nat)
  | handlerPage (tile offset : Nat) (v : List (BitVec 8))
  | abortGraph (plot graph : Nat)
  | resumeImage (img : Nat)
  | raiseSvn (v : BitVec 32)
  | msixEntry (vector : Nat) (addr : BitVec 64) (data : BitVec 32)
  | hdmDecoder (index base size : Nat)
  | spillWindow (tile ctx pa : Nat)
  | fillWindow (tile ctx pa : Nat)
  deriving DecidableEq, Repr

/-- What one step of bring-up is given or finds (R414, R416). -/
inductive BootInput where
  | firmware (slotA slotB : List (BitVec 8))
  | synchronise
  | ucie (failed : List (Nat × Nat))
  | memory (ok : Bool) (il : Nat)
  | hostLink (ok : Bool)
  | scalePorts (down : List Nat)
  | ready
  deriving DecidableEq, Repr

/-- What the power controller samples of one die (R418, R419). -/
structure PowerReading where
  die : Nat
  diePower : BitVec 16
  pkgPower : BitVec 16
  temp : BitVec 8
  duty : Nat
  deriving DecidableEq, Repr

/-- The steps of the part. A control word's constructor carries its stall count and guard and its
operand fields; an element instruction's carries the fields of its slot; an event's carries what it
happens to. -/
inductive Instr where
  /-- ADD (R60). Writes s(a) + s(b) to d with latency 2. -/
  | add (c : Ctl) (d a b : BitVec 5)
  /-- SUB (R60). Writes s(a) - s(b) to d. -/
  | sub (c : Ctl) (d a b : BitVec 5)
  /-- AND (R60). Writes s(a) AND s(b) to d. -/
  | and (c : Ctl) (d a b : BitVec 5)
  /-- OR (R60). Writes s(a) OR s(b) to d. -/
  | or (c : Ctl) (d a b : BitVec 5)
  /-- XOR (R60). Writes s(a) XOR s(b) to d. -/
  | xor (c : Ctl) (d a b : BitVec 5)
  /-- ANDN (R60). Writes s(a) AND NOT s(b) to d. -/
  | andn (c : Ctl) (d a b : BitVec 5)
  /-- SHL (R60). Shifts s(a) left by s(b)[5:0] into d. -/
  | shl (c : Ctl) (d a b : BitVec 5)
  /-- SHR (R60). Shifts s(a) right logically by s(b)[5:0] into d. -/
  | shr (c : Ctl) (d a b : BitVec 5)
  /-- SRA (R60). Shifts s(a) right arithmetically by s(b)[5:0] into d. -/
  | sra (c : Ctl) (d a b : BitVec 5)
  /-- MIN (R60). Writes the signed minimum of s(a) and s(b) to d. -/
  | min (c : Ctl) (d a b : BitVec 5)
  /-- MAX (R60). Writes the signed maximum of s(a) and s(b) to d. -/
  | max (c : Ctl) (d a b : BitVec 5)
  /-- MINU (R60). Writes the unsigned minimum of s(a) and s(b) to d. -/
  | minu (c : Ctl) (d a b : BitVec 5)
  /-- MAXU (R60). Writes the unsigned maximum of s(a) and s(b) to d. -/
  | maxu (c : Ctl) (d a b : BitVec 5)
  /-- CLZ (R60). Writes the count of leading zero bits of s(a) to d. -/
  | clz (c : Ctl) (d a : BitVec 5)
  /-- POPC (R60). Writes the count of one bits of s(a) to d. -/
  | popc (c : Ctl) (d a : BitVec 5)
  /-- SEXT (R60). Sign-extends s(a) from bit s(b)[5:0] into d. -/
  | sext (c : Ctl) (d a b : BitVec 5)
  /-- MUL (R61). Writes the low 64 bits of s(a) × s(b) to d with latency 4. -/
  | mul (c : Ctl) (d a b : BitVec 5)
  /-- MULH (R61). Writes the high 64 bits of the signed product to d. -/
  | mulh (c : Ctl) (d a b : BitVec 5)
  /-- MULHU (R61). Writes the high 64 bits of the unsigned product to d. -/
  | mulhu (c : Ctl) (d a b : BitVec 5)
  /-- DIV (R61). Starts a signed division on the tile divider, with the quotient scoreboarded into d. -/
  | div (c : Ctl) (d a b : BitVec 5)
  /-- DIVU (R61). Starts an unsigned division, with the quotient scoreboarded into d. -/
  | divu (c : Ctl) (d a b : BitVec 5)
  /-- REM (R61). Starts a signed division, with the remainder scoreboarded into d. -/
  | rem (c : Ctl) (d a b : BitVec 5)
  /-- REMU (R61). Starts an unsigned division, with the remainder scoreboarded into d. -/
  | remu (c : Ctl) (d a b : BitVec 5)
  /-- BFX (R63). Extracts a sign-extended bit field of s(a) into d. -/
  | bfx (c : Ctl) (d a b : BitVec 5)
  /-- BFXU (R63). Extracts a zero-extended bit field of s(a) into d. -/
  | bfxu (c : Ctl) (d a b : BitVec 5)
  /-- BFI (R63). Inserts the low bits of s(a) into a field of d. -/
  | bfi (c : Ctl) (d a b : BitVec 5)
  /-- ROTL (R63). Rotates s(a) left by s(b)[5:0] into d. -/
  | rotl (c : Ctl) (d a b : BitVec 5)
  /-- BSWAP (R63). Reverses the bytes of s(a) into d. -/
  | bswap (c : Ctl) (d a : BitVec 5)
  /-- ADDI (R64). Adds a sign-extended 8-bit immediate to s(a) into d. -/
  | addi (c : Ctl) (d a : BitVec 5) (imm : BitVec 8)
  /-- ANDI (R64). ANDs s(a) with a zero-extended immediate into d. -/
  | andi (c : Ctl) (d a : BitVec 5) (imm : BitVec 8)
  /-- ORI (R64). ORs s(a) with a zero-extended immediate into d. -/
  | ori (c : Ctl) (d a : BitVec 5) (imm : BitVec 8)
  /-- XORI (R64). XORs s(a) with a zero-extended immediate into d. -/
  | xori (c : Ctl) (d a : BitVec 5) (imm : BitVec 8)
  /-- SHLI (R64). Shifts s(a) left by an immediate into d. -/
  | shli (c : Ctl) (d a : BitVec 5) (imm : BitVec 6)
  /-- SHRI (R64). Shifts s(a) right logically by an immediate into d. -/
  | shri (c : Ctl) (d a : BitVec 5) (imm : BitVec 6)
  /-- SRAI (R64). Shifts s(a) right arithmetically by an immediate into d. -/
  | srai (c : Ctl) (d a : BitVec 5) (imm : BitVec 6)
  /-- SETLO (R65). Writes the zero-extended imm13 to d. -/
  | setlo (c : Ctl) (d : BitVec 5) (imm : BitVec 13)
  /-- SETSH (R65). Shifts d left by 13 and ORs in imm13. -/
  | setsh (c : Ctl) (d : BitVec 5) (imm : BitVec 13)
  /-- LDLIT (R66). Loads an 8-byte literal from the text into d, scoreboarded. -/
  | ldlit (c : Ctl) (d : BitVec 5) (imm : BitVec 13)
  /-- CMP (R67). Compares s(a) with s(b) under a condition and writes a predicate and optionally its complement. -/
  | cmp (c : Ctl) (pd : BitVec 4) (cond : BitVec 3) (a b : BitVec 5) (pair : BitVec 1)
  /-- CMPI (R67). Compares s(a) with a 5-bit immediate under a condition and writes a predicate. -/
  | cmpi (c : Ctl) (pd : BitVec 4) (cond : BitVec 3) (a imm : BitVec 5) (pair : BitVec 1)
  /-- PAND (R68). Writes pa AND pb to pd. -/
  | pand (c : Ctl) (pd pa pb : BitVec 4)
  /-- POR (R68). Writes pa OR pb to pd. -/
  | por (c : Ctl) (pd pa pb : BitVec 4)
  /-- PXOR (R68). Writes pa XOR pb to pd. -/
  | pxor (c : Ctl) (pd pa pb : BitVec 4)
  /-- PANDN (R68). Writes pa AND NOT pb to pd. -/
  | pandn (c : Ctl) (pd pa pb : BitVec 4)
  /-- PORN (R68). Writes pa OR NOT pb to pd. -/
  | porn (c : Ctl) (pd pa pb : BitVec 4)
  /-- PNAND (R68). Writes NOT (pa AND pb) to pd. -/
  | pnand (c : Ctl) (pd pa pb : BitVec 4)
  /-- PNOR (R68). Writes NOT (pa OR pb) to pd. -/
  | pnor (c : Ctl) (pd pa pb : BitVec 4)
  /-- LDPRM (R101). Loads 8 bytes of G through a bounded parameter window, posting PB or PN when out of bound or unbound. -/
  | ldprm (c : Ctl) (d a : BitVec 5) (off : BitVec 6) (win : BitVec 2)
  /-- BR (R71). Branches to pc + 4 × off18. -/
  | br (c : Ctl) (off : BitVec 18)
  /-- CALL (R71). Branches to pc + 4 × off18 and writes s31 := pc + 4. -/
  | call (c : Ctl) (off : BitVec 18)
  /-- JR (R72). Jumps to s(a). -/
  | jr (c : Ctl) (a : BitVec 5)
  /-- JALR (R72). Jumps to s(a) and writes pc + 4 to d. -/
  | jalr (c : Ctl) (d a : BitVec 5)
  /-- RET (R72). Jumps to s31. -/
  | ret (c : Ctl)
  /-- LOOP (R73). Decrements a nonzero counter and branches while it stays nonzero. -/
  | loop (c : Ctl) (d : BitVec 5) (imm : BitVec 13)
  /-- BSEL (R74). Searches a bucket table in SP for the run-time dimension, writes the remainder and PADM, and branches to the bucket's schedule. -/
  | bsel (c : Ctl) (d a b : BitVec 5)
  /-- TFENCE (R78). Commits the region, waits for the thread's flags, and traps TFENCE if FLAGS AND TRAPEN is nonzero. -/
  | tfence (c : Ctl)
  /-- TRAP (R78). Commits the region and traps SWTRAP with TVAL := s(a). -/
  | trap (c : Ctl) (a : BitVec 5)
  /-- ERET (R78). In supervisor state, restores TSTATE and resumes at TEPC. -/
  | eret (c : Ctl)
  /-- HALT (R78). Commits the open region, waits for the commit and ends the thread. -/
  | halt (c : Ctl)
  /-- YIELD (R78). Sets the thread's issue age to 0 and holds it back until another thread issues or 16 cycles pass. -/
  | yield (c : Ctl)
  /-- RMARK (R80). Ends the open region, starting its commit, and opens the next region at pc + 4. -/
  | rmark (c : Ctl)
  /-- MFS (R76). Reads a special register into d. -/
  | mfs (c : Ctl) (d : BitVec 5) (imm : BitVec 13)
  /-- MFS_FTRAP (R152). Reads FTRAP and clears its V and MORE bits, forming a region of its own. -/
  | mfsFtrap (c : Ctl) (d : BitVec 5)
  /-- MTS (R50). Serialising write of s(d) to a special register, forming a region of its own. -/
  | mts (c : Ctl) (d : BitVec 5) (imm : BitVec 13)
  /-- LDSP (R93). Loads a sign-extended value from the scratchpad, scoreboarded. -/
  | ldsp (c : Ctl) (d a : BitVec 5) (off : BitVec 6) (sz : BitVec 2)
  /-- LDSPU (R93). Loads a zero-extended value from the scratchpad. -/
  | ldspu (c : Ctl) (d a : BitVec 5) (off : BitVec 6) (sz : BitVec 2)
  /-- STSP (R96). Buffers a scratchpad store in the open region. -/
  | stsp (c : Ctl) (d a : BitVec 5) (off : BitVec 6) (sz : BitVec 2)
  /-- LDSPI (R94). Loads from the scratchpad at s(a) and post-increments a. -/
  | ldspi (c : Ctl) (d a : BitVec 5) (off : BitVec 6) (sz : BitVec 2)
  /-- STSPI (R94). Buffers a scratchpad store at s(a) and post-increments a. -/
  | stspi (c : Ctl) (d a : BitVec 5) (off : BitVec 6) (sz : BitVec 2)
  /-- LDSH (R93). Loads a sign-extended value from a shared slice. -/
  | ldsh (c : Ctl) (d a : BitVec 5) (off : BitVec 6) (sz : BitVec 2)
  /-- LDSHU (R93). Loads a zero-extended value from a shared slice. -/
  | ldshu (c : Ctl) (d a : BitVec 5) (off : BitVec 6) (sz : BitVec 2)
  /-- STSH (R96). Buffers a store to a shared slice. -/
  | stsh (c : Ctl) (d a : BitVec 5) (off : BitVec 6) (sz : BitVec 2)
  /-- LDG (R93). Loads a sign-extended value from device memory. -/
  | ldg (c : Ctl) (d a : BitVec 5) (off : BitVec 6) (sz : BitVec 2)
  /-- LDGU (R93). Loads a zero-extended value from device memory. -/
  | ldgu (c : Ctl) (d a : BitVec 5) (off : BitVec 6) (sz : BitVec 2)
  /-- STG (R96). Buffers a store to device memory. -/
  | stg (c : Ctl) (d a : BitVec 5) (off : BitVec 6) (sz : BitVec 2)
  /-- LDH (R93). Loads a value from host memory over CXL.io. -/
  | ldh (c : Ctl) (d a : BitVec 5) (off : BitVec 6) (sz : BitVec 2)
  /-- STH (R96). Buffers a store to host memory. -/
  | sth (c : Ctl) (d a : BitVec 5) (off : BitVec 6) (sz : BitVec 2)
  /-- LDACQ (R102). Loads with acquire semantics at a scope, in a region of its own. -/
  | ldacq (c : Ctl) (d a : BitVec 5) (space : BitVec 2) (scope : BitVec 3) (sz : BitVec 1)
  /-- STREL (R102). Stores with release semantics at a scope after committing the region. -/
  | strel (c : Ctl) (d a : BitVec 5) (space : BitVec 2) (scope : BitVec 3) (sz : BitVec 1)
  /-- AMOSP_ADD (R105). Atomic add on an 8-byte scratchpad location. -/
  | amospAdd (c : Ctl) (d a b : BitVec 5)
  /-- AMOSP_AND (R105). Atomic AND on a scratchpad location. -/
  | amospAnd (c : Ctl) (d a b : BitVec 5)
  /-- AMOSP_OR (R105). Atomic OR on a scratchpad location. -/
  | amospOr (c : Ctl) (d a b : BitVec 5)
  /-- AMOSP_XOR (R105). Atomic XOR on a scratchpad location. -/
  | amospXor (c : Ctl) (d a b : BitVec 5)
  /-- AMOSP_MIN (R105). Atomic signed minimum on a scratchpad location. -/
  | amospMin (c : Ctl) (d a b : BitVec 5)
  /-- AMOSP_MAX (R105). Atomic signed maximum on a scratchpad location. -/
  | amospMax (c : Ctl) (d a b : BitVec 5)
  /-- AMOSP_SWAP (R105). Atomic swap on a scratchpad location. -/
  | amospSwap (c : Ctl) (d a b : BitVec 5)
  /-- AMOSP_CAS (R105). Atomic compare-and-swap on a scratchpad location. -/
  | amospCas (c : Ctl) (d a b : BitVec 5)
  /-- AMOSH_ADD (R105). Atomic add on a shared-slice location. -/
  | amoshAdd (c : Ctl) (d a b : BitVec 5)
  /-- AMOSH_AND (R105). Atomic AND on a shared-slice location. -/
  | amoshAnd (c : Ctl) (d a b : BitVec 5)
  /-- AMOSH_OR (R105). Atomic OR on a shared-slice location. -/
  | amoshOr (c : Ctl) (d a b : BitVec 5)
  /-- AMOSH_XOR (R105). Atomic XOR on a shared-slice location. -/
  | amoshXor (c : Ctl) (d a b : BitVec 5)
  /-- AMOSH_MIN (R105). Atomic signed minimum on a shared-slice location. -/
  | amoshMin (c : Ctl) (d a b : BitVec 5)
  /-- AMOSH_MAX (R105). Atomic signed maximum on a shared-slice location. -/
  | amoshMax (c : Ctl) (d a b : BitVec 5)
  /-- AMOSH_SWAP (R105). Atomic swap on a shared-slice location. -/
  | amoshSwap (c : Ctl) (d a b : BitVec 5)
  /-- AMOSH_CAS (R105). Atomic compare-and-swap on a shared-slice location. -/
  | amoshCas (c : Ctl) (d a b : BitVec 5)
  /-- AMOG_ADD (R105). Atomic add on a device-memory location. -/
  | amogAdd (c : Ctl) (d a b : BitVec 5)
  /-- AMOG_AND (R105). Atomic AND on a device-memory location. -/
  | amogAnd (c : Ctl) (d a b : BitVec 5)
  /-- AMOG_OR (R105). Atomic OR on a device-memory location. -/
  | amogOr (c : Ctl) (d a b : BitVec 5)
  /-- AMOG_XOR (R105). Atomic XOR on a device-memory location. -/
  | amogXor (c : Ctl) (d a b : BitVec 5)
  /-- AMOG_MIN (R105). Atomic signed minimum on a device-memory location. -/
  | amogMin (c : Ctl) (d a b : BitVec 5)
  /-- AMOG_MAX (R105). Atomic signed maximum on a device-memory location. -/
  | amogMax (c : Ctl) (d a b : BitVec 5)
  /-- AMOG_SWAP (R105). Atomic swap on a device-memory location. -/
  | amogSwap (c : Ctl) (d a b : BitVec 5)
  /-- AMOG_CAS (R105). Atomic compare-and-swap on a device-memory location. -/
  | amogCas (c : Ctl) (d a b : BitVec 5)
  /-- AMOH_ADD (R107). Atomic add on host memory as a FetchAdd AtomicOp. -/
  | amohAdd (c : Ctl) (d a b : BitVec 5)
  /-- AMOH_AND (R107). Atomic AND on host memory through a CAS loop. -/
  | amohAnd (c : Ctl) (d a b : BitVec 5)
  /-- AMOH_OR (R107). Atomic OR on host memory through a CAS loop. -/
  | amohOr (c : Ctl) (d a b : BitVec 5)
  /-- AMOH_XOR (R107). Atomic XOR on host memory through a CAS loop. -/
  | amohXor (c : Ctl) (d a b : BitVec 5)
  /-- AMOH_MIN (R107). Atomic signed minimum on host memory through a CAS loop. -/
  | amohMin (c : Ctl) (d a b : BitVec 5)
  /-- AMOH_MAX (R107). Atomic signed maximum on host memory through a CAS loop. -/
  | amohMax (c : Ctl) (d a b : BitVec 5)
  /-- AMOH_SWAP (R107). Atomic swap on host memory as a Swap AtomicOp. -/
  | amohSwap (c : Ctl) (d a b : BitVec 5)
  /-- AMOH_CAS (R107). Atomic compare-and-swap on host memory as a CAS AtomicOp. -/
  | amohCas (c : Ctl) (d a b : BitVec 5)
  /-- DRAIN (R108). Waits until every copy command of the tile into a space is visible at that space's scope. -/
  | drain (c : Ctl) (space : BitVec 2)
  /-- SBAR (R108). Waits until the selected thread streams and address-generator streams have performed their earlier accesses. -/
  | sbar (c : Ctl) (a : BitVec 5)
  /-- DBAR (R310). Releases, arrives at the domain barrier, waits for every participant, flips PHASE, and acquires. -/
  | dbar (c : Ctl)
  /-- FENCE (R108). Waits until the thread's earlier loads are performed and its stores are visible at a scope. -/
  | fence (c : Ctl) (scope : BitVec 3)
  /-- WFE (R109). Waits until a selected EVT bit is set, then clears the bits it matched. -/
  | wfe (c : Ctl) (a : BitVec 5)
  /-- TWAIT (R81). Commits the region and waits until a token reaches a level, trapping TOKFAULT on a fault below FINAL. -/
  | twait (c : Ctl) (tok : BitVec 6) (level : BitVec 2)
  /-- ACCRD (R371). Reads a pool accumulator into d, trapping ACCBUSY if its tile is owned. -/
  | accrd (c : Ctl) (d a : BitVec 5) (imm : BitVec 8)
  /-- PMODE (R354). Queues a pool mode word on the configuration queue. -/
  | pmode (c : Ctl) (a b : BitVec 5)
  /-- PBED (R378). Queues one bed word on the configuration queue. -/
  | pbed (c : Ctl) (a b : BitVec 5)
  /-- PBEDS (R358). Queues N bed words read from SP on the configuration queue. -/
  | pbeds (c : Ctl) (a b : BitVec 5)
  /-- PMAP (R359). Writes multicast-map entries of a range of cells from SP. -/
  | pmap (c : Ctl) (a b : BitVec 5)
  /-- PHOLD (R365). Fills a held entry of a range of cells from a stream. -/
  | phold (c : Ctl) (a b : BitVec 5)
  /-- PFLOW (R369). Runs passes of flowing operands from a stream through the beds into the accumulators. -/
  | pflow (c : Ctl) (a b : BitVec 5)
  /-- PDRAIN (R362). Converts accumulators with bed scale and sign and writes them to SP. -/
  | pdrain (c : Ctl) (a b : BitVec 5)
  /-- PZERO (R379). Zeroes every accumulator of the named accumulator tiles. -/
  | pzero (c : Ctl) (a b : BitVec 5)
  /-- PSPAN (R382). Joins, retargets or leaves a pool span across an aligned unit. -/
  | pspan (c : Ctl) (a b : BitVec 5)
  /-- PSTAT (R383). Returns the pool status word and optionally clears AFLAGS. -/
  | pstat (c : Ctl) (d a b : BitVec 5)
  /-- SDEF (R360). Defines a stream's base, space and format, resetting its counters and subscribers. -/
  | sdef (c : Ctl) (a b : BitVec 5)
  /-- SCNT (R360). Sets a counter's count and stride of a stream. -/
  | scnt (c : Ctl) (a b : BitVec 5)
  /-- SSUB (R360). Adds a subscriber with window and replay count to a stream. -/
  | ssub (c : Ctl) (a b : BitVec 5)
  /-- SGO (R389). Starts the streams of a mask. -/
  | sgo (c : Ctl) (a b : BitVec 5)
  /-- SSTOP (R390). Stops the named running streams directly, ahead of the stream queue. -/
  | sstop (c : Ctl) (a b : BitVec 5)
  /-- SUNF (R397). Configures a prism stream's unfolding from a 32-byte SP descriptor. -/
  | sunf (c : Ctl) (a b : BitVec 5)
  /-- SRGP (R403). Configures a prism stream's space-to-channel regrouping. -/
  | srgp (c : Ctl) (a b : BitVec 5)
  /-- SHASH (R264). Sets the scratchpad bank hash masks of the group's window. -/
  | shash (c : Ctl) (a b : BitVec 5)
  /-- CPSHAPE (R285). Writes one register of the thread's copy descriptor. -/
  | cpshape (c : Ctl) (a b : BitVec 5)
  /-- CPY (R289). Copies bytes in a strided shape between spaces or tiles. -/
  | cpy (c : Ctl) (a b : BitVec 5)
  /-- CPYR (R290). Reduces source elements into the destination, each as an atomic read-modify-write. -/
  | cpyr (c : Ctl) (a b : BitVec 5)
  /-- CPYF (R291). Copies elements with a one-step format conversion. -/
  | cpyf (c : Ctl) (a b : BitVec 5)
  /-- GIDX (R406). Writes one register of the thread's sieve descriptor. -/
  | gidx (c : Ctl) (a b : BitVec 5)
  /-- GATH (R409). Gathers the distinct rows of an index list once each into every position naming them. -/
  | gath (c : Ctl) (a b : BitVec 5)
  /-- SCATA (R409). Scatters position data into the distinct rows with atomic per-element reduction. -/
  | scata (c : Ctl) (a b : BitVec 5)
  /-- FLOAD (R85). Checks a fabric image and loads it into the TEs it names. -/
  | fload (c : Ctl) (a b : BitVec 5)
  /-- FGO (R87). Starts every TE holding the image at the given offsets, allocating chain contexts. -/
  | fgo (c : Ctl) (a b : BitVec 5)
  /-- FSTOP (R88). Stops every started TE holding the image after its firing in progress. -/
  | fstop (c : Ctl) (a b : BitVec 5)
  /-- FPUT (R89). Writes a 32-bit word into a TE's W. -/
  | fput (c : Ctl) (a b : BitVec 5)
  /-- FGET (R89). Reads a 32-bit word of a TE's W into d. -/
  | fget (c : Ctl) (d a b : BitVec 5)
  /-- FSTAT (R89). Returns fabric status and clears the rejection fields. -/
  | fstat (c : Ctl) (d a b : BitVec 5)
  /-- TJOIN (R280). Produces a token once its consumed tokens are satisfied. -/
  | tjoin (c : Ctl) (a b : BitVec 5)
  /-- TRESET (R281). Sets the named tokens that are in a final state to FREE. -/
  | treset (c : Ctl) (a b : BitVec 5)
  /-- TQUERY (R282). Returns a token's state, cause, function and progress into d. -/
  | tquery (c : Ctl) (d a b : BitVec 5)
  /-- GSTART (R312). Starts a graph from a launch window on the thread's sequencer. -/
  | gstart (c : Ctl) (a b : BitVec 5)
  /-- GARM (R312). Arms a pool set for a number of passes as an armed section. -/
  | garm (c : Ctl) (a b : BitVec 5)
  /-- GDONE (R312). After its stores are visible at package scope, delivers one soft arrival to a graph node. -/
  | gdone (c : Ctl) (a b : BitVec 5)
  /-- TE_MOV (R155). TE copies a to its destination. -/
  | teMov (t : Trig) (f : Comp)
  /-- TE_ADD (R155). TE 32-bit integer addition. -/
  | teAdd (t : Trig) (f : Comp)
  /-- TE_SUB (R155). TE 32-bit integer subtraction. -/
  | teSub (t : Trig) (f : Comp)
  /-- TE_MUL (R155). TE low 32 bits of the product. -/
  | teMul (t : Trig) (f : Comp)
  /-- TE_MULH (R155). TE high 32 bits of the signed product. -/
  | teMulh (t : Trig) (f : Comp)
  /-- TE_MULHU (R155). TE high 32 bits of the unsigned product. -/
  | teMulhu (t : Trig) (f : Comp)
  /-- TE_AND (R155). TE bitwise AND. -/
  | teAnd (t : Trig) (f : Comp)
  /-- TE_OR (R155). TE bitwise OR. -/
  | teOr (t : Trig) (f : Comp)
  /-- TE_XOR (R155). TE bitwise XOR. -/
  | teXor (t : Trig) (f : Comp)
  /-- TE_ANDN (R155). TE a AND NOT b. -/
  | teAndn (t : Trig) (f : Comp)
  /-- TE_SHL (R155). TE left shift by b[4:0]. -/
  | teShl (t : Trig) (f : Comp)
  /-- TE_SHR (R155). TE logical right shift by b[4:0]. -/
  | teShr (t : Trig) (f : Comp)
  /-- TE_SRA (R155). TE arithmetic right shift by b[4:0]. -/
  | teSra (t : Trig) (f : Comp)
  /-- TE_MIN (R155). TE signed minimum. -/
  | teMin (t : Trig) (f : Comp)
  /-- TE_MAX (R155). TE signed maximum. -/
  | teMax (t : Trig) (f : Comp)
  /-- TE_MINU (R155). TE unsigned minimum. -/
  | teMinu (t : Trig) (f : Comp)
  /-- TE_MAXU (R155). TE unsigned maximum. -/
  | teMaxu (t : Trig) (f : Comp)
  /-- TE_CMP (R156). TE writes 1 if the condition in SCC holds on a and b, else 0. -/
  | teCmp (t : Trig) (f : Comp)
  /-- SEL (R155). TE selects a if c is nonzero, else b. -/
  | sel (t : Trig) (f : Comp)
  /-- TE_CLZ (R155). TE leading zeros of a. -/
  | teClz (t : Trig) (f : Comp)
  /-- TE_POPC (R155). TE one bits of a. -/
  | tePopc (t : Trig) (f : Comp)
  /-- DOT4 (R157). TE adds c to the dot product of four signed byte lanes. -/
  | dot4 (t : Trig) (f : Comp)
  /-- TE_BFX (R157). TE extracts a bit field of a with parameters from b. -/
  | teBfx (t : Trig) (f : Comp)
  /-- HASH (R157). TE multiplicative hash of a to b[5:0] bits. -/
  | hash (t : Trig) (f : Comp)
  /-- FADD (R158). TE floating-point addition per lane. -/
  | fadd (t : Trig) (f : Comp)
  /-- FSUB (R158). TE floating-point subtraction per lane. -/
  | fsub (t : Trig) (f : Comp)
  /-- FMUL (R158). TE floating-point multiplication per lane. -/
  | fmul (t : Trig) (f : Comp)
  /-- FMA (R158). TE fused a × b + c with one rounding. -/
  | fma (t : Trig) (f : Comp)
  /-- FMS (R158). TE fused a × b − c with one rounding. -/
  | fms (t : Trig) (f : Comp)
  /-- FNMA (R158). TE fused c − a × b with one rounding. -/
  | fnma (t : Trig) (f : Comp)
  /-- FMIN (R128). TE floating-point minimum per lane. -/
  | fmin (t : Trig) (f : Comp)
  /-- FMAX (R128). TE floating-point maximum per lane. -/
  | fmax (t : Trig) (f : Comp)
  /-- FABS (R158). TE clears the sign bit of each lane. -/
  | fabs (t : Trig) (f : Comp)
  /-- FNEG (R158). TE inverts the sign bit of each lane. -/
  | fneg (t : Trig) (f : Comp)
  /-- FCMP (R159). TE floating-point comparison writing all-ones or zero lanes. -/
  | fcmp (t : Trig) (f : Comp)
  /-- FRND (R160). TE rounds each lane to an integral value in the slot's mode. -/
  | frnd (t : Trig) (f : Comp)
  /-- FSCALE (R160). TE scales a by 2^n with one rounding. -/
  | fscale (t : Trig) (f : Comp)
  /-- FEXPO (R160). TE returns floor(log2 |a|) as a value. -/
  | fexpo (t : Trig) (f : Comp)
  /-- FCLASS (R160). TE tests a's class against a mask in b. -/
  | fclass (t : Trig) (f : Comp)
  /-- FHADD (R158). TE adds the two lanes of each operand. -/
  | fhadd (t : Trig) (f : Comp)
  /-- XEXPF (R161). TE sends a 2^a request to the column unit. -/
  | xexpf (t : Trig) (f : Comp)
  /-- XLOG2 (R161). TE sends a log2 request to the column unit. -/
  | xlog2 (t : Trig) (f : Comp)
  /-- XRCP (R161). TE sends a reciprocal request to the column unit. -/
  | xrcp (t : Trig) (f : Comp)
  /-- XRSQ (R161). TE sends a reciprocal square-root request to the column unit. -/
  | xrsq (t : Trig) (f : Comp)
  /-- XSQRT (R161). TE sends a square-root request to the column unit. -/
  | xsqrt (t : Trig) (f : Comp)
  /-- XSIN (R161). TE sends a sine request to the column unit. -/
  | xsin (t : Trig) (f : Comp)
  /-- XCOS (R161). TE sends a cosine request to the column unit. -/
  | xcos (t : Trig) (f : Comp)
  /-- XTANH (R161). TE sends a tanh request to the column unit. -/
  | xtanh (t : Trig) (f : Comp)
  /-- STEER (R180). TE sends data to one of two destinations by a condition. -/
  | steer (t : Trig) (f : Comp)
  /-- MERGE (R181). TE passes one of two inputs chosen by a control. -/
  | merge (t : Trig) (f : Comp)
  /-- JOIN (R182). TE waits for every named input and passes one token. -/
  | join (t : Trig) (f : Comp)
  /-- DUP (R183). TE writes data to two destinations. -/
  | dup (t : Trig) (f : Comp)
  /-- GATE (R183). TE passes data only in beats whose condition holds. -/
  | gate (t : Trig) (f : Comp)
  /-- DROP (R184). TE dequeues and discards tokens of any tag. -/
  | drop (t : Trig) (f : Comp)
  /-- TAG (R185). TE passes data with a new user tag. -/
  | tag (t : Trig) (f : Comp)
  /-- CARRY (R186). TE admits an initial value or takes a loop's back edge, ending on a tagged token. -/
  | carry (t : Trig) (f : Comp)
  /-- LDC_SP (R215). TE chain-ordered load from the scratchpad. -/
  | ldcSp (t : Trig) (m : MemF)
  /-- STC_SP (R215). TE chain-ordered store to the scratchpad, performed at commit. -/
  | stcSp (t : Trig) (m : MemF)
  /-- LDC_SH (R215). TE chain-ordered load from a shared slice. -/
  | ldcSh (t : Trig) (m : MemF)
  /-- STC_SH (R215). TE chain-ordered store to a shared slice. -/
  | stcSh (t : Trig) (m : MemF)
  /-- LDC_G (R215). TE chain-ordered load from device memory through window 3. -/
  | ldcG (t : Trig) (m : MemF)
  /-- STC_G (R215). TE chain-ordered store to device memory through window 3. -/
  | stcG (t : Trig) (m : MemF)
  /-- AMOC_SP (R215). TE chain-ordered atomic on the scratchpad, performed at commit. -/
  | amocSp (t : Trig) (m : MemF)
  /-- AMOC_SH (R215). TE chain-ordered atomic on a shared slice. -/
  | amocSh (t : Trig) (m : MemF)
  /-- AMOC_G (R215). TE chain-ordered atomic on device memory. -/
  | amocG (t : Trig) (m : MemF)
  /-- CSKIP (R215). TE fills a chain position without touching memory. -/
  | cskip (t : Trig) (m : MemF)
  /-- ROPEN (R165). TE opens a region instance of its domain, snapshotting every TE and the chain contexts. -/
  | ropen (t : Trig) (f : Comp)
  /-- RCLOSE (R165). TE closes the domain's open instance. -/
  | rclose (t : Trig) (f : Comp)
  /-- RABORT (R165). TE discards the open instance and re-enters it in ordered mode. -/
  | rabort (t : Trig) (f : Comp)
  /-- DONE (R165). TE pushes a control token that sets an EVT bit of the FGO thread. -/
  | done (t : Trig) (f : Comp)
  /-- TE_TRAP (R165). TE raises a FABRICTRAP fabric trap. -/
  | teTrap (t : Trig) (f : Comp)
  /-- TE_NOP (R165). TE does nothing but its dequeues and updates. -/
  | teNop (t : Trig) (f : Comp)
  /-- LAPSET (R165). TE sets its lap register. -/
  | lapset (t : Trig) (f : Comp)
  /-- CVT (R162). Converter TE converts lanes between formats with one rounding. -/
  | cvt (t : Trig) (f : Comp)
  /-- PACK (R163). TE packs lanes of two operands into one token. -/
  | pack (t : Trig) (f : Comp)
  /-- UNPK (R163). TE moves lanes down from a given lane. -/
  | unpk (t : Trig) (f : Comp)
  /-- PSET (R164). TE sets one predicate or all predicates from a. -/
  | pset (t : Trig) (f : Comp)
  /-- TE_PLOG (R164). TE logic operation on two of its predicates. -/
  | tePlog (t : Trig) (f : Comp)
  /-- XSET (R164). TE sets an index register. -/
  | xset (t : Trig) (f : Comp)
  /-- XADD (R164). TE sets an index register to a + b. -/
  | xadd (t : Trig) (f : Comp)
  /-- XCMP (R164). TE writes a predicate from a comparison. -/
  | xcmp (t : Trig) (f : Comp)
  /-- DIVIDER_RESULT (R62). The tile divider completes a division, writes the result and posts DZ for a zero divisor. -/
  | dividerResult (tile : Nat)
  /-- LOAD_REPLY (R259). The reply of a control-thread load or returning access arrives and writes its scoreboarded register. -/
  | loadReply (tile slot k : Nat)
  /-- COMMAND_BUFFER_DEPARTURE (R220). A committed command leaves the thread's command buffer in issue order once its engine queue has room, and its produced token becomes PENDING. -/
  | commandBufferDeparture (tile slot : Nat)
  /-- ENGINE_COMMAND_BEGIN (R277). An engine begins a queued command once its consumed tokens are satisfied. -/
  | engineCommandBegin (tile cmd : Nat)
  /-- ENGINE_COMMAND_COMPLETE (R275). An engine command's work ends and its produced token reaches READ, VISIBLE, FAULTED or POISON with its flags posted. -/
  | engineCommandComplete (tile cmd : Nat)
  /-- CONTROL_TOKEN_DELIVERY (R177). The collector delivers a TE's control token, setting the EVT bit and ORing its flags into FLAGS. -/
  | controlTokenDelivery (tile : Nat)
  /-- ILLEGAL (R57). A word that is not an allocated instruction with zero reserved fields issues and traps ILLEGAL precisely, whatever its guard. -/
  | illegal (w : BitVec 32)
  /-- STORE_ACKNOWLEDGEMENT (R335). A committed store or non-returning AMO is performed at its bank or controller and its acknowledgement returns, making it visible at a scope. -/
  | storeAcknowledgement (tile slot : Nat) (space : BitVec 2)
  /-- POOL_PASS (R369). A pass completes in the trees and each participating bed's sum is added into its accumulator. -/
  | poolPass (tile : Nat)
  /-- CONFIG_WAVEFRONT (R373). A configuration command enters the trees between two passes and switches every node to the new configuration. -/
  | configWavefront (tile : Nat)
  /-- STREAM_ELEMENT_DELIVERY (R385). A stream delivers fetched elements to its subscribers as they accept them. -/
  | streamElementDelivery (tile stream : Nat)
  /-- FLOAD_TAKEOVER (R85). FLOAD takes over a TE after its last old firing, discards its instance, clears its queues and writes its configuration. -/
  | floadTakeover (tile cmd : Nat)
  /-- RELEASE_FROZEN_COMMAND (R279). The supervisor releases a frozen command, which resumes at the faulting element. -/
  | releaseFrozenCommand (tile cmd : Nat)
  /-- COLUMN_UNIT_REPLY (R149). The column unit's result enters the requesting TE's in.f with its flags after the function's latency. -/
  | columnUnitReply (tile col : Nat)
  /-- CHAIN_ACCESS_ACCEPT (R199). The home ordering buffer grants and accepts a chain access, forwarding or sending loads and returning completions. -/
  | chainAccessAccept (tile col row : Nat)
  /-- CHAIN_RELEASE (R195). The home releases the next access of a chain in program order. -/
  | chainRelease (level unit ctx : Nat)
  /-- CHAIN_OVERFLOW (R211). After 512 cycles with no free entry and no release, the instance is discarded and re-entered in ordered mode. -/
  | chainOverflow (level unit img : Nat)
  /-- INSTANCE_COMMIT (R229). A closed instance commits: held accesses are performed, control tokens sent and live-in slots returned. -/
  | instanceCommit (img : Nat)
  /-- LINK_AUDIT (R190). Every 4,096 cycles a link's sender pushes an audit marker and stops pushing. -/
  | linkAudit (l : LinkAt)
  /-- AUDIT_REPORT (R190). The receiver's true free count reaches the sender and replaces its count. -/
  | auditReport (l : LinkAt)
  /-- LINK_PARITY_FAILURE (R189). A free-slot count fails parity, stops the link and starts an audit. -/
  | linkParityFailure (l : LinkAt) (f : LinkFault)
  /-- QUEUE_OVERFLOW (R191). A token reaching a full queue is dropped and the receiving instance is discarded after the audit. -/
  | queueOverflow (tile col row : Nat) (d : LinkDir)
  /-- EGRESS_ARBITRATION (R254). A switch egress grants one requesting head by age, class and weighted round robin. -/
  | egressArbitration (level unit egress : Nat)
  /-- BARRIER_ARRIVAL (R421). A DBAR arrival reaches the barrier slot, and the last one sends the release to every member. -/
  | barrierArrival (gid : Nat)
  /-- REQUEST_TIMEOUT (R331). A remote or cross-die request without reply for 2^20 cycles ends as a LINK error. -/
  | requestTimeout (t : TimeoutTarget) (pairLost : Bool)
  /-- REMOTE_REQUEST_ARRIVAL (R329). A request from another package is admitted or refused by its owner's granted region. -/
  | remoteRequestArrival (r : RemoteReq)
  /-- UCIE_RETRAIN_FAILURE (R320). A UCIe module fails retraining and is retired; losing a pair makes its requests LINK errors. -/
  | ucieRetrainFailure (die md : Nat)
  /-- UCIE_FLIT_REPLAY (R320). A flit with a CRC error is replayed. -/
  | ucieFlitReplay (die md : Nat)
  /-- LAUNCH_REGISTER_WRITE (R299). The host writes a launch register, setting SEQ and STATUS and starting the graph after checking it. -/
  | launchRegisterWrite (plot reg : Nat) (v : BitVec 64)
  /-- NODE_READY (R303). The sequencer runs a node whose predecessors and soft arrivals are complete. -/
  | nodeReady (plot graph node : Nat)
  /-- NODE_COMPLETE (R303). A node completes, writing STATE and releasing successors, and the graph's STATUS and MSI-X follow when all nodes are done. -/
  | nodeComplete (plot graph node : Nat)
  /-- GROUP_PLACEMENT (R306). The dispatcher places a group on an awake unit that fits, waking a gated block if needed. -/
  | groupPlacement (plot : Nat)
  /-- GROUP_START (R307). A placed group starts on all its member tiles after text, data and registers are set up. -/
  | groupStart (gid : Nat)
  /-- GROUP_END (R307). A group ends once its threads have halted and R296 holds, freeing its resources. -/
  | groupEnd (gid : Nat)
  /-- BLOCK_GATE (R308). A block idle for 65,536 cycles is power-gated. -/
  | blockGate (block : Nat)
  /-- BLOCK_WAKE_COMPLETE (R308). A woken block becomes awake 1,260 cycles after the wake. -/
  | blockWakeComplete (block : Nat)
  /-- ARMED_ROUND (R384). An armed pool runs one round of zero, stream restart, passes and drain. -/
  | armedRound (tile : Nat)
  /-- STOP_WORD_WRITE (R343). The supervisor writes a partition's STOP word and a stop wave descends to its blocks. -/
  | stopWordWrite (part : Nat)
  /-- STOP_WAVE_ARRIVAL (R343). A stop wave reaches a tile, discarding open regions and freezing engines until it reports stopped. -/
  | stopWaveArrival (part tile : Nat)
  /-- SWAP (R346). Exchanges each tile's swapped context with its shadow storage. -/
  | swap (part : Nat)
  /-- RESUME (R346). A resume wave restarts threads at resume points, heads before ROPEN and engines from frozen positions. -/
  | resume (part : Nat)
  /-- TERMINATE (R346). Ends a group, stopping its threads and TEs and faulting its commands with PREEMPT. -/
  | terminate (gid : Nat)
  /-- NODE_BOUNDARY_PREEMPTION (R348). The sequencer stops placing groups, waits for running groups and saves its state. -/
  | nodeBoundaryPreemption (plot part : Nat)
  /-- TRANSLATION_INVALIDATION (R328). The supervisor invalidates translations, discarding regions and instances that used removed entries. -/
  | translationInvalidation (r : InvalScope)
  /-- SWITCH_SETTINGS_WRITE (R269). The supervisor writes an egress settings word, resetting pointers and credits. -/
  | switchSettingsWrite (level unit egress : Nat) (v : BitVec 64)
  /-- GRANULE_SCRUB (R323). The supervisor writes a whole poisoned granule, clearing its poison. -/
  | granuleScrub (loc : Nat) (v : List (BitVec 8))
  /-- MANAGEMENT_REGISTER_WRITE (R332). The supervisor writes a management-map register that has no row of its own. -/
  | managementRegisterWrite (w : MgmtWrite)
  /-- COUNTER_READ (R420). The supervisor reads a counter, which clears it. -/
  | counterRead (c : CounterId)
  /-- HOST_CXL_MEM_WRITE (R333). A host CXL.mem write is performed at its controller before its completion returns. -/
  | hostCxlMemWrite (pa : Nat) (v : List (BitVec 8))
  /-- HOST_CXL_MEM_READ (R333). A host CXL.mem read is served at the controller. -/
  | hostCxlMemRead (pa n : Nat)
  /-- HOST_CONFIG_REQUEST (R415). A CXL.io configuration request is answered. -/
  | hostConfigRequest (offset : Nat)
  /-- HOST_ATOMICOP (R332). An AtomicOp sent by the host completes as Unsupported Request. -/
  | hostAtomicop (pa : Nat)
  /-- ATTESTATION_NONCE_WRITE (R417). The host writes a nonce and firmware returns a signed attestation report. -/
  | attestationNonceWrite (nonce : BitVec 256)
  /-- COLD_RESET (R413). Power-on or PERST# resets the whole package and starts bring-up. -/
  | coldReset
  /-- DIE_RESET (R413). The supervisor resets one compute die and its stacks. -/
  | dieReset (die : Nat)
  /-- PARTITION_RESET (R413). The supervisor terminates a partition's groups and resets its tokens, pools and TEs. -/
  | partitionReset (part : Nat)
  /-- BOOT_STEP (R414). A bring-up step completes and BOOTSTATE advances, or boot fails with an error code. -/
  | bootStep (b : BootInput)
  /-- POWER_SAMPLE (R418). Every 10 µs the power controller samples die current and sets each die's duty value. -/
  | powerSample (p : PowerReading)
  /-- SRAM_SCRUB (R350). The scrubber reads and corrects each SRAM word once every 2^26 cycles. -/
  | sramScrub (unit : CounterId) (found : Bool)
  /-- UNCORRECTABLE_ERROR (R350). An uncorrectable error discards its owning region or poisons the unit in committed state. -/
  | uncorrectableError (loc : ErrLoc)
  /-- TERMINATE_FROZEN_COMMAND (R279). The supervisor terminates a single frozen engine command, ending its token FAULTED with the fault's cause. -/
  | terminateFrozenCommand (tile cmd : Nat)
  /-- CHAIN_LOAD_REPLY (R199). The value of a chain load that read SH, G or SP memory reaches the issuing TE's in.m after the latency of its space. -/
  | chainLoadReply (level unit entry : Nat)
  deriving DecidableEq, Repr

end Sys2Proof
end

