-- ==== Sys2Proof/WellFormed.lean ====
section
/-! DEFINITION. Which terms of `Instr` are instructions of the part: the encodings that R45, R50 and
R57 make illegal, and the slots that FLOAD's checks refuse (R148, R154 to R165, R178, R213). -/

namespace Sys2Proof

/-- What a compute-form action does with its selector fields. A `src` form reads that many sources and
writes DST; the other forms are named after the entry that lays their fields out. -/
inductive Form where
  | src1 | src2 | src3 | cond | round | column
  | steer | merge | join | dup | gate | drop | tag | carry
  | region | doneTok | trapTok | nothing | lapset
  | cvt | pack | unpk | pset | plog | xset | xadd | xcmp
  deriving DecidableEq, Repr

/-- The FMT values an entry allows (R154). -/
inductive FmtSet where
  | anyFmt | i32 | fp | fp16s | fp32 | packed
  deriving DecidableEq, Repr

/-- The nine memory-form actions (R213). -/
inductive ChainOp where
  | ldcSp | stcSp | ldcSh | stcSh | ldcG | stcG | amocSp | amocSh | amocG | cskip
  deriving DecidableEq, Repr

/-- The compute-form action of an element instruction: its trigger, its fields and its shape. -/
def Instr.compute? : Instr → Option (Trig × Comp × Form × FmtSet)
  | .teMov t f => some (t, f, .src1, .anyFmt)
  | .teAdd t f => some (t, f, .src2, .i32)
  | .teSub t f => some (t, f, .src2, .i32)
  | .teMul t f => some (t, f, .src2, .i32)
  | .teMulh t f => some (t, f, .src2, .i32)
  | .teMulhu t f => some (t, f, .src2, .i32)
  | .teAnd t f => some (t, f, .src2, .i32)
  | .teOr t f => some (t, f, .src2, .i32)
  | .teXor t f => some (t, f, .src2, .i32)
  | .teAndn t f => some (t, f, .src2, .i32)
  | .teShl t f => some (t, f, .src2, .i32)
  | .teShr t f => some (t, f, .src2, .i32)
  | .teSra t f => some (t, f, .src2, .i32)
  | .teMin t f => some (t, f, .src2, .i32)
  | .teMax t f => some (t, f, .src2, .i32)
  | .teMinu t f => some (t, f, .src2, .i32)
  | .teMaxu t f => some (t, f, .src2, .i32)
  | .teCmp t f => some (t, f, .cond, .i32)
  | .sel t f => some (t, f, .src3, .anyFmt)
  | .teClz t f => some (t, f, .src1, .i32)
  | .tePopc t f => some (t, f, .src1, .i32)
  | .dot4 t f => some (t, f, .src3, .i32)
  | .teBfx t f => some (t, f, .src2, .i32)
  | .hash t f => some (t, f, .src2, .i32)
  | .fadd t f => some (t, f, .src2, .fp)
  | .fsub t f => some (t, f, .src2, .fp)
  | .fmul t f => some (t, f, .src2, .fp)
  | .fma t f => some (t, f, .src3, .fp)
  | .fms t f => some (t, f, .src3, .fp)
  | .fnma t f => some (t, f, .src3, .fp)
  | .fmin t f => some (t, f, .src2, .fp)
  | .fmax t f => some (t, f, .src2, .fp)
  | .fabs t f => some (t, f, .src1, .fp)
  | .fneg t f => some (t, f, .src1, .fp)
  | .fcmp t f => some (t, f, .cond, .fp)
  | .frnd t f => some (t, f, .round, .fp)
  | .fscale t f => some (t, f, .src2, .fp)
  | .fexpo t f => some (t, f, .src1, .fp)
  | .fclass t f => some (t, f, .src2, .fp)
  | .fhadd t f => some (t, f, .src2, .fp16s)
  | .xexpf t f => some (t, f, .column, .fp32)
  | .xlog2 t f => some (t, f, .column, .fp32)
  | .xrcp t f => some (t, f, .column, .fp32)
  | .xrsq t f => some (t, f, .column, .fp32)
  | .xsqrt t f => some (t, f, .column, .fp32)
  | .xsin t f => some (t, f, .column, .fp32)
  | .xcos t f => some (t, f, .column, .fp32)
  | .xtanh t f => some (t, f, .column, .fp32)
  | .steer t f => some (t, f, .steer, .anyFmt)
  | .merge t f => some (t, f, .merge, .anyFmt)
  | .join t f => some (t, f, .join, .anyFmt)
  | .dup t f => some (t, f, .dup, .anyFmt)
  | .gate t f => some (t, f, .gate, .anyFmt)
  | .drop t f => some (t, f, .drop, .anyFmt)
  | .tag t f => some (t, f, .tag, .anyFmt)
  | .carry t f => some (t, f, .carry, .anyFmt)
  | .ropen t f => some (t, f, .region, .anyFmt)
  | .rclose t f => some (t, f, .region, .anyFmt)
  | .rabort t f => some (t, f, .region, .anyFmt)
  | .done t f => some (t, f, .doneTok, .anyFmt)
  | .teTrap t f => some (t, f, .trapTok, .anyFmt)
  | .teNop t f => some (t, f, .nothing, .anyFmt)
  | .lapset t f => some (t, f, .lapset, .anyFmt)
  | .cvt t f => some (t, f, .cvt, .anyFmt)
  | .pack t f => some (t, f, .pack, .packed)
  | .unpk t f => some (t, f, .unpk, .packed)
  | .pset t f => some (t, f, .pset, .anyFmt)
  | .tePlog t f => some (t, f, .plog, .anyFmt)
  | .xset t f => some (t, f, .xset, .anyFmt)
  | .xadd t f => some (t, f, .xadd, .anyFmt)
  | .xcmp t f => some (t, f, .xcmp, .anyFmt)
  | _ => none

/-- The memory-form action of an element instruction. -/
def Instr.memory? : Instr → Option (Trig × MemF × ChainOp)
  | .ldcSp t m => some (t, m, .ldcSp)
  | .stcSp t m => some (t, m, .stcSp)
  | .ldcSh t m => some (t, m, .ldcSh)
  | .stcSh t m => some (t, m, .stcSh)
  | .ldcG t m => some (t, m, .ldcG)
  | .stcG t m => some (t, m, .stcG)
  | .amocSp t m => some (t, m, .amocSp)
  | .amocSh t m => some (t, m, .amocSh)
  | .amocG t m => some (t, m, .amocG)
  | .cskip t m => some (t, m, .cskip)
  | _ => none

/-- The lane count of a format tag (R117). -/
def laneCount (tag : BitVec 3) : Nat :=
  match tag.toNat with
  | 1 | 2 => 2
  | 3 | 4 | 6 => 4
  | 5 => 8
  | _ => 1

/-- A source selector that R141 does not reserve. -/
def srcOk (c : BitVec 5) : Bool := c.toNat ≤ 26

/-- A destination selector that R142 does not reserve. -/
def dstOk (c : BitVec 5) : Bool :=
  c.toNat ≤ 3 || c.toNat == 6 || (8 ≤ c.toNat && c.toNat ≤ 24)

/-- A selector that the memory form accepts for ADDR and DATA (R141). -/
def memSrcOk (c : BitVec 5) : Bool :=
  c.toNat ≤ 5 || c.toNat == 7 || (8 ≤ c.toNat && c.toNat ≤ 15) || c.toNat == 25 || c.toNat == 26

/-- A selector that names an input channel (R141). -/
def isChan (c : BitVec 5) : Bool := c.toNat ≤ 5

/-- A destination that names an output channel (R142). -/
def isOut (c : BitVec 5) : Bool := c.toNat ≤ 3

/-- The FMT values of a set (R154). -/
def FmtSet.has (fs : FmtSet) (f : BitVec 3) : Bool :=
  match fs with
  | .anyFmt => true
  | .i32 => f == 7#3
  | .fp => f.toNat ≤ 2
  | .fp16s => f == 1#3 || f == 2#3
  | .fp32 => f == 0#3
  | .packed => 1 ≤ f.toNat && f.toNat ≤ 6

/-- The trigger half's own rules (R138, R148). -/
def Trig.ok (t : Trig) : Bool :=
  (t.pval &&& ~~~t.pcare) == 0#16 && (t.tagch.toNat < 6 || t.tagv == 0#2)

/-- The selector, variant and immediate rules of one compute form, for a slot of `beats` beats and
format `fmt` (R148, R156, R159, R160, R162 to R165, R178). -/
def Form.ok (k : Form) (fmt : BitVec 3) (beatsM1 : BitVec 5) (f : Comp) : Bool :=
  let a := srcOk f.sa
  let b := srcOk f.sb
  let c := srcOk f.scc
  let d := dstOk f.dst
  let one := beatsM1 == 0#5
  let condOk := f.scc.toNat < 8
  let predDst := f.dst.toNat < 16
  let xDst := 8 ≤ f.dst.toNat && f.dst.toNat ≤ 15
  match k with
  | .src1 => a && d
  | .src2 => a && b && d
  | .src3 => a && b && c && d
  | .cond => a && b && d && condOk
  | .round => a && d && f.scc.toNat < 4
  | .column => a && beatsM1.toNat < 4
  | .steer => a && b && d && dstOk f.scc && !(isOut f.dst && f.dst == f.scc)
  | .merge => a && b && c && d && one && f.deq == 0#6
  | .join => a && b && c && d
  | .dup => a && f.sb == 7#5 && d && dstOk f.scc && !(isOut f.dst && f.dst == f.scc)
  | .gate => a && b && d && f.scc == 7#5
  | .drop => isChan f.sa && f.sb == 7#5 && f.scc == 7#5 && f.dst == 6#5 && f.deq == 0#6
  | .tag => a && b && d && f.scc == 7#5
  | .carry => a && isChan f.sb && d && f.scc.toNat < 16 && one && f.deq == 0#6
  | .region => one
  | .doneTok => one && f.imm12.toNat < 16
  | .trapTok => one
  | .nothing => true
  | .lapset => one && a
  | .cvt => a && d && f.sa != 6#5 && f.imm12.toNat < 16 && f.imm12.toNat / 2 < laneCount fmt
  | .pack => a && b && d && f.scc.toNat < 3 && 2 * 2 ^ f.scc.toNat ≤ laneCount fmt
  | .unpk => a && d && f.scc.toNat < laneCount fmt
  | .pset => a && predDst && f.scc.toNat < 2 && (f.scc == 0#5 || f.dst == 0#5)
  | .plog => predDst && f.scc.toNat < 7 && f.sa.toNat < 16 && f.sb.toNat < 16
  | .xset => a && xDst
  | .xadd => a && b && xDst
  | .xcmp => a && b && predDst && condOk

/-- A compute-form slot that FLOAD does not refuse with code 5 (R148). -/
def compOk (t : Trig) (f : Comp) (k : Form) (fs : FmtSet) : Bool :=
  t.ok && fs.has t.fmt && (f.pupd == 0#1 || f.pop.toNat < 6) && k.ok t.fmt t.beatsM1 f

/-- The rules of one memory-form action on SIZE, DATA, FMT and the other fields (R213). -/
def ChainOp.ok (k : ChainOp) (fmt : BitVec 3) (m : MemF) : Bool :=
  match k with
  | .ldcSp | .ldcSh | .ldcG => m.data == 7#5 && m.amo == 0#3
  | .stcSp | .stcSh | .stcG => m.amo == 0#3
  | .amocSp | .amocSh | .amocG => m.size == 2#2 && fmt == (if m.amo == 6#3 then 0#3 else 7#3)
  | .cskip => m.data == 7#5 && m.addr == 7#5 && m.off8 == 0#8 && m.amo == 0#3

/-- A memory-form slot that FLOAD does not refuse with code 5 (R148, R213). -/
def memOk (t : Trig) (m : MemF) (k : ChainOp) : Bool :=
  t.ok && t.beatsM1.toNat < 8 && memSrcOk m.addr && memSrcOk m.data &&
    m.own != 0#8 && m.own != 255#8 && m.size != 3#2 && k.ok t.fmt m

/-- The numbers that R49 allocates to special registers. -/
def sregAllocated (n : BitVec 13) : Bool :=
  n.toNat ≤ 0x18 || (0x100 ≤ n.toNat && n.toNat ≤ 0x108)

/-- The special registers that MTS may name, in one state or the other: every allocated one that R49 does
not mark R (R50). -/
def sregWritable (n : BitVec 13) : Bool :=
  sregAllocated n && !(n.toNat ≤ 0x04 || (0x0D ≤ n.toNat && n.toNat ≤ 0x0F) || n.toNat == 0x18)

/-- Whether a term is an instruction of the part. For a control word: none of the encodings that R57
makes illegal whatever the state. For an element instruction: none that FLOAD refuses with code 5
(R148). An event is a step whatever it names. -/
def Instr.wf (i : Instr) : Bool :=
  match i.compute?, i.memory? with
  | some (t, f, k, fs), _ => compOk t f k fs
  | none, some (t, m, k) => memOk t m k
  | none, none =>
    match i with
    | .amospCas _ d _ _ | .amoshCas _ d _ _ | .amogCas _ d _ _ | .amohCas _ d _ _ => d != 0#5
    | .twait _ _ level => level != 0#2
    | .mfs _ _ n => sregAllocated n && n != 0x18#13
    | .mts _ _ n => sregWritable n
    | _ => true

end Sys2Proof
end

