-- ==== Sys2Proof/Decode.lean ====
section
/-! DEFINITION. Decoding of control words and slots, total on any bytes and refusing by name, and the
encoders, written from the encoding tables of R39 to R46, R138 to R140 and R147. -/

namespace Sys2Proof

/-- Why a word or a slot is no instruction (R57, R86, R148). -/
inductive DecodeError where
  | reservedFunction   -- a reserved f code of its group
  | nonzeroField       -- a field that R45 marks zero is not zero
  | casRegister        -- a CAS whose d is s0
  | tokenLevel         -- a TWAIT of level 0
  | engineFunction     -- an engine function that R46 does not allocate
  | replyRegister      -- a function without a reply and with a nonzero d
  | specialRegister    -- a special register that R49 does not allocate, or that MTS may not name
  | tooShort           -- fewer bytes than the word or the slot has
  | slotInvalid        -- V = 0: the slot is ignored (R138)
  | opcode             -- an opcode that R147 does not allocate (R86, code 4)
  | slotForm           -- a slot that R148 refuses (R86, code 5)
  deriving DecidableEq, Repr

/-- Bits lo + n − 1 down to lo of a control word. -/
def fld (w : BitVec 32) (lo n : Nat) : BitVec n := w.extractLsb' lo n

/-- `i` where the condition holds, and the error otherwise. -/
def require (ok : Bool) (e : DecodeError) (i : Instr) : Except DecodeError Instr :=
  if ok then .ok i else .error e

/-- The instruction that a control word holds, or why it holds none (R39 to R46, R57, R58). -/
def decodeWord (w : BitVec 32) : Except DecodeError Instr :=
  let c : Ctl := ⟨fld w 28 4, fld w 24 4⟩
  match (fld w 18 6).toNat with
  | 0x00 =>
    match (fld w 0 3).toNat with
    | 0 => .ok (.add c (fld w 13 5) (fld w 8 5) (fld w 3 5))
    | 1 => .ok (.sub c (fld w 13 5) (fld w 8 5) (fld w 3 5))
    | 2 => .ok (.and c (fld w 13 5) (fld w 8 5) (fld w 3 5))
    | 3 => .ok (.or c (fld w 13 5) (fld w 8 5) (fld w 3 5))
    | 4 => .ok (.xor c (fld w 13 5) (fld w 8 5) (fld w 3 5))
    | 5 => .ok (.andn c (fld w 13 5) (fld w 8 5) (fld w 3 5))
    | 6 => .ok (.shl c (fld w 13 5) (fld w 8 5) (fld w 3 5))
    | _ => .ok (.shr c (fld w 13 5) (fld w 8 5) (fld w 3 5))
  | 0x01 =>
    match (fld w 0 3).toNat with
    | 0 => .ok (.sra c (fld w 13 5) (fld w 8 5) (fld w 3 5))
    | 1 => .ok (.min c (fld w 13 5) (fld w 8 5) (fld w 3 5))
    | 2 => .ok (.max c (fld w 13 5) (fld w 8 5) (fld w 3 5))
    | 3 => .ok (.minu c (fld w 13 5) (fld w 8 5) (fld w 3 5))
    | 4 => .ok (.maxu c (fld w 13 5) (fld w 8 5) (fld w 3 5))
    | 5 => require (fld w 3 5 == 0#5) .nonzeroField (.clz c (fld w 13 5) (fld w 8 5))
    | 6 => require (fld w 3 5 == 0#5) .nonzeroField (.popc c (fld w 13 5) (fld w 8 5))
    | _ => .ok (.sext c (fld w 13 5) (fld w 8 5) (fld w 3 5))
  | 0x02 =>
    match (fld w 0 3).toNat with
    | 0 => .ok (.mul c (fld w 13 5) (fld w 8 5) (fld w 3 5))
    | 1 => .ok (.mulh c (fld w 13 5) (fld w 8 5) (fld w 3 5))
    | 2 => .ok (.mulhu c (fld w 13 5) (fld w 8 5) (fld w 3 5))
    | 3 => .ok (.div c (fld w 13 5) (fld w 8 5) (fld w 3 5))
    | 4 => .ok (.divu c (fld w 13 5) (fld w 8 5) (fld w 3 5))
    | 5 => .ok (.rem c (fld w 13 5) (fld w 8 5) (fld w 3 5))
    | 6 => .ok (.remu c (fld w 13 5) (fld w 8 5) (fld w 3 5))
    | _ => .error .reservedFunction
  | 0x03 =>
    match (fld w 0 3).toNat with
    | 0 => .ok (.bfx c (fld w 13 5) (fld w 8 5) (fld w 3 5))
    | 1 => .ok (.bfxu c (fld w 13 5) (fld w 8 5) (fld w 3 5))
    | 2 => .ok (.bfi c (fld w 13 5) (fld w 8 5) (fld w 3 5))
    | 3 => .ok (.rotl c (fld w 13 5) (fld w 8 5) (fld w 3 5))
    | 4 => require (fld w 3 5 == 0#5) .nonzeroField (.bswap c (fld w 13 5) (fld w 8 5))
    | _ => .error .reservedFunction
  | 0x04 => .ok (.addi c (fld w 13 5) (fld w 8 5) (fld w 0 8))
  | 0x05 => .ok (.andi c (fld w 13 5) (fld w 8 5) (fld w 0 8))
  | 0x06 => .ok (.ori c (fld w 13 5) (fld w 8 5) (fld w 0 8))
  | 0x07 => .ok (.xori c (fld w 13 5) (fld w 8 5) (fld w 0 8))
  | 0x08 => require (fld w 6 2 == 0#2) .nonzeroField (.shli c (fld w 13 5) (fld w 8 5) (fld w 0 6))
  | 0x09 => require (fld w 6 2 == 0#2) .nonzeroField (.shri c (fld w 13 5) (fld w 8 5) (fld w 0 6))
  | 0x0A => require (fld w 6 2 == 0#2) .nonzeroField (.srai c (fld w 13 5) (fld w 8 5) (fld w 0 6))
  | 0x0B => .ok (.setlo c (fld w 13 5) (fld w 0 13))
  | 0x0C => .ok (.setsh c (fld w 13 5) (fld w 0 13))
  | 0x0D => .ok (.ldlit c (fld w 13 5) (fld w 0 13))
  | 0x0E => .ok (.cmp c (fld w 14 4) (fld w 11 3) (fld w 6 5) (fld w 1 5) (fld w 0 1))
  | 0x0F => .ok (.cmpi c (fld w 14 4) (fld w 11 3) (fld w 6 5) (fld w 1 5) (fld w 0 1))
  | 0x10 =>
    match (fld w 0 3).toNat with
    | 0 => require (fld w 7 1 == 0#1 && fld w 12 1 == 0#1 && fld w 17 1 == 0#1) .nonzeroField (.pand c (fld w 13 4) (fld w 8 4) (fld w 3 4))
    | 1 => require (fld w 7 1 == 0#1 && fld w 12 1 == 0#1 && fld w 17 1 == 0#1) .nonzeroField (.por c (fld w 13 4) (fld w 8 4) (fld w 3 4))
    | 2 => require (fld w 7 1 == 0#1 && fld w 12 1 == 0#1 && fld w 17 1 == 0#1) .nonzeroField (.pxor c (fld w 13 4) (fld w 8 4) (fld w 3 4))
    | 3 => require (fld w 7 1 == 0#1 && fld w 12 1 == 0#1 && fld w 17 1 == 0#1) .nonzeroField (.pandn c (fld w 13 4) (fld w 8 4) (fld w 3 4))
    | 4 => require (fld w 7 1 == 0#1 && fld w 12 1 == 0#1 && fld w 17 1 == 0#1) .nonzeroField (.porn c (fld w 13 4) (fld w 8 4) (fld w 3 4))
    | 5 => require (fld w 7 1 == 0#1 && fld w 12 1 == 0#1 && fld w 17 1 == 0#1) .nonzeroField (.pnand c (fld w 13 4) (fld w 8 4) (fld w 3 4))
    | 6 => require (fld w 7 1 == 0#1 && fld w 12 1 == 0#1 && fld w 17 1 == 0#1) .nonzeroField (.pnor c (fld w 13 4) (fld w 8 4) (fld w 3 4))
    | _ => .error .reservedFunction
  | 0x11 => .ok (.ldprm c (fld w 13 5) (fld w 8 5) (fld w 2 6) (fld w 0 2))
  | 0x12 => .ok (.br c (fld w 0 18))
  | 0x13 => .ok (.call c (fld w 0 18))
  | 0x14 =>
    match (fld w 0 3).toNat with
    | 0 => require (fld w 3 5 == 0#5 && fld w 13 5 == 0#5) .nonzeroField (.jr c (fld w 8 5))
    | 1 => require (fld w 3 5 == 0#5) .nonzeroField (.jalr c (fld w 13 5) (fld w 8 5))
    | 2 => require (fld w 3 15 == 0#15) .nonzeroField (.ret c)
    | _ => .error .reservedFunction
  | 0x15 => .ok (.loop c (fld w 13 5) (fld w 0 13))
  | 0x16 =>
    match (fld w 0 3).toNat with
    | 0 => .ok (.bsel c (fld w 13 5) (fld w 8 5) (fld w 3 5))
    | _ => .error .reservedFunction
  | 0x17 =>
    match (fld w 0 3).toNat with
    | 0 => require (fld w 3 15 == 0#15) .nonzeroField (.tfence c)
    | 1 => require (fld w 3 5 == 0#5 && fld w 13 5 == 0#5) .nonzeroField (.trap c (fld w 8 5))
    | 2 => require (fld w 3 15 == 0#15) .nonzeroField (.eret c)
    | 3 => require (fld w 3 15 == 0#15) .nonzeroField (.halt c)
    | 4 => require (fld w 3 15 == 0#15) .nonzeroField (.yield c)
    | 5 => require (fld w 3 15 == 0#15) .nonzeroField (.rmark c)
    | _ => .error .reservedFunction
  | 0x18 =>
    if fld w 0 13 == 0x18#13 then .ok (.mfsFtrap c (fld w 13 5))
    else require (sregAllocated (fld w 0 13)) .specialRegister (.mfs c (fld w 13 5) (fld w 0 13))
  | 0x19 => require (sregWritable (fld w 0 13)) .specialRegister (.mts c (fld w 13 5) (fld w 0 13))
  | 0x1A => .ok (.ldsp c (fld w 13 5) (fld w 8 5) (fld w 2 6) (fld w 0 2))
  | 0x1B => .ok (.ldspu c (fld w 13 5) (fld w 8 5) (fld w 2 6) (fld w 0 2))
  | 0x1C => .ok (.stsp c (fld w 13 5) (fld w 8 5) (fld w 2 6) (fld w 0 2))
  | 0x1D => .ok (.ldspi c (fld w 13 5) (fld w 8 5) (fld w 2 6) (fld w 0 2))
  | 0x1E => .ok (.stspi c (fld w 13 5) (fld w 8 5) (fld w 2 6) (fld w 0 2))
  | 0x1F => .ok (.ldsh c (fld w 13 5) (fld w 8 5) (fld w 2 6) (fld w 0 2))
  | 0x20 => .ok (.ldshu c (fld w 13 5) (fld w 8 5) (fld w 2 6) (fld w 0 2))
  | 0x21 => .ok (.stsh c (fld w 13 5) (fld w 8 5) (fld w 2 6) (fld w 0 2))
  | 0x22 => .ok (.ldg c (fld w 13 5) (fld w 8 5) (fld w 2 6) (fld w 0 2))
  | 0x23 => .ok (.ldgu c (fld w 13 5) (fld w 8 5) (fld w 2 6) (fld w 0 2))
  | 0x24 => .ok (.stg c (fld w 13 5) (fld w 8 5) (fld w 2 6) (fld w 0 2))
  | 0x25 => .ok (.ldh c (fld w 13 5) (fld w 8 5) (fld w 2 6) (fld w 0 2))
  | 0x26 => .ok (.sth c (fld w 13 5) (fld w 8 5) (fld w 2 6) (fld w 0 2))
  | 0x27 => require (fld w 1 2 == 1#2) .reservedFunction (.ldacq c (fld w 13 5) (fld w 8 5) (fld w 6 2) (fld w 3 3) (fld w 0 1))
  | 0x28 => require (fld w 1 2 == 1#2) .reservedFunction (.strel c (fld w 13 5) (fld w 8 5) (fld w 6 2) (fld w 3 3) (fld w 0 1))
  | 0x29 =>
    match (fld w 0 3).toNat with
    | 0 => .ok (.amospAdd c (fld w 13 5) (fld w 8 5) (fld w 3 5))
    | 1 => .ok (.amospAnd c (fld w 13 5) (fld w 8 5) (fld w 3 5))
    | 2 => .ok (.amospOr c (fld w 13 5) (fld w 8 5) (fld w 3 5))
    | 3 => .ok (.amospXor c (fld w 13 5) (fld w 8 5) (fld w 3 5))
    | 4 => .ok (.amospMin c (fld w 13 5) (fld w 8 5) (fld w 3 5))
    | 5 => .ok (.amospMax c (fld w 13 5) (fld w 8 5) (fld w 3 5))
    | 6 => .ok (.amospSwap c (fld w 13 5) (fld w 8 5) (fld w 3 5))
    | _ => require (fld w 13 5 != 0#5) .casRegister (.amospCas c (fld w 13 5) (fld w 8 5) (fld w 3 5))
  | 0x2A =>
    match (fld w 0 3).toNat with
    | 0 => .ok (.amoshAdd c (fld w 13 5) (fld w 8 5) (fld w 3 5))
    | 1 => .ok (.amoshAnd c (fld w 13 5) (fld w 8 5) (fld w 3 5))
    | 2 => .ok (.amoshOr c (fld w 13 5) (fld w 8 5) (fld w 3 5))
    | 3 => .ok (.amoshXor c (fld w 13 5) (fld w 8 5) (fld w 3 5))
    | 4 => .ok (.amoshMin c (fld w 13 5) (fld w 8 5) (fld w 3 5))
    | 5 => .ok (.amoshMax c (fld w 13 5) (fld w 8 5) (fld w 3 5))
    | 6 => .ok (.amoshSwap c (fld w 13 5) (fld w 8 5) (fld w 3 5))
    | _ => require (fld w 13 5 != 0#5) .casRegister (.amoshCas c (fld w 13 5) (fld w 8 5) (fld w 3 5))
  | 0x2B =>
    match (fld w 0 3).toNat with
    | 0 => .ok (.amogAdd c (fld w 13 5) (fld w 8 5) (fld w 3 5))
    | 1 => .ok (.amogAnd c (fld w 13 5) (fld w 8 5) (fld w 3 5))
    | 2 => .ok (.amogOr c (fld w 13 5) (fld w 8 5) (fld w 3 5))
    | 3 => .ok (.amogXor c (fld w 13 5) (fld w 8 5) (fld w 3 5))
    | 4 => .ok (.amogMin c (fld w 13 5) (fld w 8 5) (fld w 3 5))
    | 5 => .ok (.amogMax c (fld w 13 5) (fld w 8 5) (fld w 3 5))
    | 6 => .ok (.amogSwap c (fld w 13 5) (fld w 8 5) (fld w 3 5))
    | _ => require (fld w 13 5 != 0#5) .casRegister (.amogCas c (fld w 13 5) (fld w 8 5) (fld w 3 5))
  | 0x2C =>
    match (fld w 0 3).toNat with
    | 0 => .ok (.amohAdd c (fld w 13 5) (fld w 8 5) (fld w 3 5))
    | 1 => .ok (.amohAnd c (fld w 13 5) (fld w 8 5) (fld w 3 5))
    | 2 => .ok (.amohOr c (fld w 13 5) (fld w 8 5) (fld w 3 5))
    | 3 => .ok (.amohXor c (fld w 13 5) (fld w 8 5) (fld w 3 5))
    | 4 => .ok (.amohMin c (fld w 13 5) (fld w 8 5) (fld w 3 5))
    | 5 => .ok (.amohMax c (fld w 13 5) (fld w 8 5) (fld w 3 5))
    | 6 => .ok (.amohSwap c (fld w 13 5) (fld w 8 5) (fld w 3 5))
    | _ => require (fld w 13 5 != 0#5) .casRegister (.amohCas c (fld w 13 5) (fld w 8 5) (fld w 3 5))
  | 0x2D =>
    match (fld w 0 3).toNat with
    | 0 => require (fld w 3 3 == 0#3 && fld w 8 10 == 0#10) .nonzeroField (.drain c (fld w 6 2))
    | 1 => require (fld w 3 5 == 0#5 && fld w 13 5 == 0#5) .nonzeroField (.sbar c (fld w 8 5))
    | 2 => require (fld w 3 15 == 0#15) .nonzeroField (.dbar c)
    | 3 => require (fld w 6 12 == 0#12) .nonzeroField (.fence c (fld w 3 3))
    | 4 => require (fld w 3 5 == 0#5 && fld w 13 5 == 0#5) .nonzeroField (.wfe c (fld w 8 5))
    | _ => .error .reservedFunction
  | 0x2E => if fld w 10 2 == 0#2 then .error .tokenLevel else require (fld w 0 10 == 0#10) .nonzeroField (.twait c (fld w 12 6) (fld w 10 2))
  | 0x2F => .ok (.accrd c (fld w 13 5) (fld w 8 5) (fld w 0 8))
  | 0x30 =>
    match (fld w 0 3).toNat with
    | 0 => require (fld w 13 5 == 0#5) .replyRegister (.pmode c (fld w 8 5) (fld w 3 5))
    | 1 => require (fld w 13 5 == 0#5) .replyRegister (.pbed c (fld w 8 5) (fld w 3 5))
    | 2 => require (fld w 13 5 == 0#5) .replyRegister (.pbeds c (fld w 8 5) (fld w 3 5))
    | 3 => require (fld w 13 5 == 0#5) .replyRegister (.pmap c (fld w 8 5) (fld w 3 5))
    | 4 => require (fld w 13 5 == 0#5) .replyRegister (.phold c (fld w 8 5) (fld w 3 5))
    | 5 => require (fld w 13 5 == 0#5) .replyRegister (.pflow c (fld w 8 5) (fld w 3 5))
    | 6 => require (fld w 13 5 == 0#5) .replyRegister (.pdrain c (fld w 8 5) (fld w 3 5))
    | _ => require (fld w 13 5 == 0#5) .replyRegister (.pzero c (fld w 8 5) (fld w 3 5))
  | 0x31 =>
    match (fld w 0 3).toNat with
    | 0 => require (fld w 13 5 == 0#5) .replyRegister (.pspan c (fld w 8 5) (fld w 3 5))
    | 1 => .ok (.pstat c (fld w 13 5) (fld w 8 5) (fld w 3 5))
    | _ => .error .engineFunction
  | 0x32 =>
    match (fld w 0 3).toNat with
    | 0 => require (fld w 13 5 == 0#5) .replyRegister (.sdef c (fld w 8 5) (fld w 3 5))
    | 1 => require (fld w 13 5 == 0#5) .replyRegister (.scnt c (fld w 8 5) (fld w 3 5))
    | 2 => require (fld w 13 5 == 0#5) .replyRegister (.ssub c (fld w 8 5) (fld w 3 5))
    | 3 => require (fld w 13 5 == 0#5) .replyRegister (.sgo c (fld w 8 5) (fld w 3 5))
    | 4 => require (fld w 13 5 == 0#5) .replyRegister (.sstop c (fld w 8 5) (fld w 3 5))
    | 5 => require (fld w 13 5 == 0#5) .replyRegister (.sunf c (fld w 8 5) (fld w 3 5))
    | 6 => require (fld w 13 5 == 0#5) .replyRegister (.srgp c (fld w 8 5) (fld w 3 5))
    | _ => require (fld w 13 5 == 0#5) .replyRegister (.shash c (fld w 8 5) (fld w 3 5))
  | 0x34 =>
    match (fld w 0 3).toNat with
    | 0 => require (fld w 13 5 == 0#5) .replyRegister (.cpshape c (fld w 8 5) (fld w 3 5))
    | 1 => require (fld w 13 5 == 0#5) .replyRegister (.cpy c (fld w 8 5) (fld w 3 5))
    | 2 => require (fld w 13 5 == 0#5) .replyRegister (.cpyr c (fld w 8 5) (fld w 3 5))
    | 3 => require (fld w 13 5 == 0#5) .replyRegister (.cpyf c (fld w 8 5) (fld w 3 5))
    | _ => .error .engineFunction
  | 0x35 =>
    match (fld w 0 3).toNat with
    | 0 => require (fld w 13 5 == 0#5) .replyRegister (.gidx c (fld w 8 5) (fld w 3 5))
    | 1 => require (fld w 13 5 == 0#5) .replyRegister (.gath c (fld w 8 5) (fld w 3 5))
    | 2 => require (fld w 13 5 == 0#5) .replyRegister (.scata c (fld w 8 5) (fld w 3 5))
    | _ => .error .engineFunction
  | 0x36 =>
    match (fld w 0 3).toNat with
    | 0 => require (fld w 13 5 == 0#5) .replyRegister (.fload c (fld w 8 5) (fld w 3 5))
    | 1 => require (fld w 13 5 == 0#5) .replyRegister (.fgo c (fld w 8 5) (fld w 3 5))
    | 2 => require (fld w 13 5 == 0#5) .replyRegister (.fstop c (fld w 8 5) (fld w 3 5))
    | 3 => require (fld w 13 5 == 0#5) .replyRegister (.fput c (fld w 8 5) (fld w 3 5))
    | 4 => .ok (.fget c (fld w 13 5) (fld w 8 5) (fld w 3 5))
    | 5 => .ok (.fstat c (fld w 13 5) (fld w 8 5) (fld w 3 5))
    | _ => .error .engineFunction
  | 0x37 =>
    match (fld w 0 3).toNat with
    | 0 => require (fld w 13 5 == 0#5) .replyRegister (.tjoin c (fld w 8 5) (fld w 3 5))
    | 1 => require (fld w 13 5 == 0#5) .replyRegister (.treset c (fld w 8 5) (fld w 3 5))
    | 2 => .ok (.tquery c (fld w 13 5) (fld w 8 5) (fld w 3 5))
    | _ => .error .engineFunction
  | 0x38 =>
    match (fld w 0 3).toNat with
    | 0 => require (fld w 13 5 == 0#5) .replyRegister (.gstart c (fld w 8 5) (fld w 3 5))
    | 1 => require (fld w 13 5 == 0#5) .replyRegister (.garm c (fld w 8 5) (fld w 3 5))
    | 2 => require (fld w 13 5 == 0#5) .replyRegister (.gdone c (fld w 8 5) (fld w 3 5))
    | _ => .error .engineFunction
  | _ => .error .engineFunction

/-- The word of a control instruction, from the formats of R41 and the fields of R45; none for a step
that is not a control word. -/
def encodeWord (i : Instr) : Option (BitVec 32) :=
  match i with
  | .add c d a b => some (c.sc ++ c.g ++ 0x00#6 ++ d ++ a ++ b ++ 0#3)
  | .sub c d a b => some (c.sc ++ c.g ++ 0x00#6 ++ d ++ a ++ b ++ 1#3)
  | .and c d a b => some (c.sc ++ c.g ++ 0x00#6 ++ d ++ a ++ b ++ 2#3)
  | .or c d a b => some (c.sc ++ c.g ++ 0x00#6 ++ d ++ a ++ b ++ 3#3)
  | .xor c d a b => some (c.sc ++ c.g ++ 0x00#6 ++ d ++ a ++ b ++ 4#3)
  | .andn c d a b => some (c.sc ++ c.g ++ 0x00#6 ++ d ++ a ++ b ++ 5#3)
  | .shl c d a b => some (c.sc ++ c.g ++ 0x00#6 ++ d ++ a ++ b ++ 6#3)
  | .shr c d a b => some (c.sc ++ c.g ++ 0x00#6 ++ d ++ a ++ b ++ 7#3)
  | .sra c d a b => some (c.sc ++ c.g ++ 0x01#6 ++ d ++ a ++ b ++ 0#3)
  | .min c d a b => some (c.sc ++ c.g ++ 0x01#6 ++ d ++ a ++ b ++ 1#3)
  | .max c d a b => some (c.sc ++ c.g ++ 0x01#6 ++ d ++ a ++ b ++ 2#3)
  | .minu c d a b => some (c.sc ++ c.g ++ 0x01#6 ++ d ++ a ++ b ++ 3#3)
  | .maxu c d a b => some (c.sc ++ c.g ++ 0x01#6 ++ d ++ a ++ b ++ 4#3)
  | .clz c d a => some (c.sc ++ c.g ++ 0x01#6 ++ d ++ a ++ 5#8)
  | .popc c d a => some (c.sc ++ c.g ++ 0x01#6 ++ d ++ a ++ 6#8)
  | .sext c d a b => some (c.sc ++ c.g ++ 0x01#6 ++ d ++ a ++ b ++ 7#3)
  | .mul c d a b => some (c.sc ++ c.g ++ 0x02#6 ++ d ++ a ++ b ++ 0#3)
  | .mulh c d a b => some (c.sc ++ c.g ++ 0x02#6 ++ d ++ a ++ b ++ 1#3)
  | .mulhu c d a b => some (c.sc ++ c.g ++ 0x02#6 ++ d ++ a ++ b ++ 2#3)
  | .div c d a b => some (c.sc ++ c.g ++ 0x02#6 ++ d ++ a ++ b ++ 3#3)
  | .divu c d a b => some (c.sc ++ c.g ++ 0x02#6 ++ d ++ a ++ b ++ 4#3)
  | .rem c d a b => some (c.sc ++ c.g ++ 0x02#6 ++ d ++ a ++ b ++ 5#3)
  | .remu c d a b => some (c.sc ++ c.g ++ 0x02#6 ++ d ++ a ++ b ++ 6#3)
  | .bfx c d a b => some (c.sc ++ c.g ++ 0x03#6 ++ d ++ a ++ b ++ 0#3)
  | .bfxu c d a b => some (c.sc ++ c.g ++ 0x03#6 ++ d ++ a ++ b ++ 1#3)
  | .bfi c d a b => some (c.sc ++ c.g ++ 0x03#6 ++ d ++ a ++ b ++ 2#3)
  | .rotl c d a b => some (c.sc ++ c.g ++ 0x03#6 ++ d ++ a ++ b ++ 3#3)
  | .bswap c d a => some (c.sc ++ c.g ++ 0x03#6 ++ d ++ a ++ 4#8)
  | .addi c d a imm => some (c.sc ++ c.g ++ 0x04#6 ++ d ++ a ++ imm)
  | .andi c d a imm => some (c.sc ++ c.g ++ 0x05#6 ++ d ++ a ++ imm)
  | .ori c d a imm => some (c.sc ++ c.g ++ 0x06#6 ++ d ++ a ++ imm)
  | .xori c d a imm => some (c.sc ++ c.g ++ 0x07#6 ++ d ++ a ++ imm)
  | .shli c d a imm => some (c.sc ++ c.g ++ 0x08#6 ++ d ++ a ++ 0#2 ++ imm)
  | .shri c d a imm => some (c.sc ++ c.g ++ 0x09#6 ++ d ++ a ++ 0#2 ++ imm)
  | .srai c d a imm => some (c.sc ++ c.g ++ 0x0A#6 ++ d ++ a ++ 0#2 ++ imm)
  | .setlo c d imm => some (c.sc ++ c.g ++ 0x0B#6 ++ d ++ imm)
  | .setsh c d imm => some (c.sc ++ c.g ++ 0x0C#6 ++ d ++ imm)
  | .ldlit c d imm => some (c.sc ++ c.g ++ 0x0D#6 ++ d ++ imm)
  | .cmp c pd cond a b pair => some (c.sc ++ c.g ++ 0x0E#6 ++ pd ++ cond ++ a ++ b ++ pair)
  | .cmpi c pd cond a imm pair => some (c.sc ++ c.g ++ 0x0F#6 ++ pd ++ cond ++ a ++ imm ++ pair)
  | .pand c pd pa pb => some (c.sc ++ c.g ++ 0x10#6 ++ 0#1 ++ pd ++ 0#1 ++ pa ++ 0#1 ++ pb ++ 0#3)
  | .por c pd pa pb => some (c.sc ++ c.g ++ 0x10#6 ++ 0#1 ++ pd ++ 0#1 ++ pa ++ 0#1 ++ pb ++ 1#3)
  | .pxor c pd pa pb => some (c.sc ++ c.g ++ 0x10#6 ++ 0#1 ++ pd ++ 0#1 ++ pa ++ 0#1 ++ pb ++ 2#3)
  | .pandn c pd pa pb => some (c.sc ++ c.g ++ 0x10#6 ++ 0#1 ++ pd ++ 0#1 ++ pa ++ 0#1 ++ pb ++ 3#3)
  | .porn c pd pa pb => some (c.sc ++ c.g ++ 0x10#6 ++ 0#1 ++ pd ++ 0#1 ++ pa ++ 0#1 ++ pb ++ 4#3)
  | .pnand c pd pa pb => some (c.sc ++ c.g ++ 0x10#6 ++ 0#1 ++ pd ++ 0#1 ++ pa ++ 0#1 ++ pb ++ 5#3)
  | .pnor c pd pa pb => some (c.sc ++ c.g ++ 0x10#6 ++ 0#1 ++ pd ++ 0#1 ++ pa ++ 0#1 ++ pb ++ 6#3)
  | .ldprm c d a off win => some (c.sc ++ c.g ++ 0x11#6 ++ d ++ a ++ off ++ win)
  | .br c off => some (c.sc ++ c.g ++ 0x12#6 ++ off)
  | .call c off => some (c.sc ++ c.g ++ 0x13#6 ++ off)
  | .jr c a => some (c.sc ++ c.g ++ 0x14#6 ++ 0#5 ++ a ++ 0#8)
  | .jalr c d a => some (c.sc ++ c.g ++ 0x14#6 ++ d ++ a ++ 1#8)
  | .ret c => some (c.sc ++ c.g ++ 0x14#6 ++ 2#18)
  | .loop c d imm => some (c.sc ++ c.g ++ 0x15#6 ++ d ++ imm)
  | .bsel c d a b => some (c.sc ++ c.g ++ 0x16#6 ++ d ++ a ++ b ++ 0#3)
  | .tfence c => some (c.sc ++ c.g ++ 0x17#6 ++ 0#18)
  | .trap c a => some (c.sc ++ c.g ++ 0x17#6 ++ 0#5 ++ a ++ 1#8)
  | .eret c => some (c.sc ++ c.g ++ 0x17#6 ++ 2#18)
  | .halt c => some (c.sc ++ c.g ++ 0x17#6 ++ 3#18)
  | .yield c => some (c.sc ++ c.g ++ 0x17#6 ++ 4#18)
  | .rmark c => some (c.sc ++ c.g ++ 0x17#6 ++ 5#18)
  | .mfs c d imm => some (c.sc ++ c.g ++ 0x18#6 ++ d ++ imm)
  | .mfsFtrap c d => some (c.sc ++ c.g ++ 0x18#6 ++ d ++ 24#13)
  | .mts c d imm => some (c.sc ++ c.g ++ 0x19#6 ++ d ++ imm)
  | .ldsp c d a off sz => some (c.sc ++ c.g ++ 0x1A#6 ++ d ++ a ++ off ++ sz)
  | .ldspu c d a off sz => some (c.sc ++ c.g ++ 0x1B#6 ++ d ++ a ++ off ++ sz)
  | .stsp c d a off sz => some (c.sc ++ c.g ++ 0x1C#6 ++ d ++ a ++ off ++ sz)
  | .ldspi c d a off sz => some (c.sc ++ c.g ++ 0x1D#6 ++ d ++ a ++ off ++ sz)
  | .stspi c d a off sz => some (c.sc ++ c.g ++ 0x1E#6 ++ d ++ a ++ off ++ sz)
  | .ldsh c d a off sz => some (c.sc ++ c.g ++ 0x1F#6 ++ d ++ a ++ off ++ sz)
  | .ldshu c d a off sz => some (c.sc ++ c.g ++ 0x20#6 ++ d ++ a ++ off ++ sz)
  | .stsh c d a off sz => some (c.sc ++ c.g ++ 0x21#6 ++ d ++ a ++ off ++ sz)
  | .ldg c d a off sz => some (c.sc ++ c.g ++ 0x22#6 ++ d ++ a ++ off ++ sz)
  | .ldgu c d a off sz => some (c.sc ++ c.g ++ 0x23#6 ++ d ++ a ++ off ++ sz)
  | .stg c d a off sz => some (c.sc ++ c.g ++ 0x24#6 ++ d ++ a ++ off ++ sz)
  | .ldh c d a off sz => some (c.sc ++ c.g ++ 0x25#6 ++ d ++ a ++ off ++ sz)
  | .sth c d a off sz => some (c.sc ++ c.g ++ 0x26#6 ++ d ++ a ++ off ++ sz)
  | .ldacq c d a space scope sz => some (c.sc ++ c.g ++ 0x27#6 ++ d ++ a ++ space ++ scope ++ 1#2 ++ sz)
  | .strel c d a space scope sz => some (c.sc ++ c.g ++ 0x28#6 ++ d ++ a ++ space ++ scope ++ 1#2 ++ sz)
  | .amospAdd c d a b => some (c.sc ++ c.g ++ 0x29#6 ++ d ++ a ++ b ++ 0#3)
  | .amospAnd c d a b => some (c.sc ++ c.g ++ 0x29#6 ++ d ++ a ++ b ++ 1#3)
  | .amospOr c d a b => some (c.sc ++ c.g ++ 0x29#6 ++ d ++ a ++ b ++ 2#3)
  | .amospXor c d a b => some (c.sc ++ c.g ++ 0x29#6 ++ d ++ a ++ b ++ 3#3)
  | .amospMin c d a b => some (c.sc ++ c.g ++ 0x29#6 ++ d ++ a ++ b ++ 4#3)
  | .amospMax c d a b => some (c.sc ++ c.g ++ 0x29#6 ++ d ++ a ++ b ++ 5#3)
  | .amospSwap c d a b => some (c.sc ++ c.g ++ 0x29#6 ++ d ++ a ++ b ++ 6#3)
  | .amospCas c d a b => some (c.sc ++ c.g ++ 0x29#6 ++ d ++ a ++ b ++ 7#3)
  | .amoshAdd c d a b => some (c.sc ++ c.g ++ 0x2A#6 ++ d ++ a ++ b ++ 0#3)
  | .amoshAnd c d a b => some (c.sc ++ c.g ++ 0x2A#6 ++ d ++ a ++ b ++ 1#3)
  | .amoshOr c d a b => some (c.sc ++ c.g ++ 0x2A#6 ++ d ++ a ++ b ++ 2#3)
  | .amoshXor c d a b => some (c.sc ++ c.g ++ 0x2A#6 ++ d ++ a ++ b ++ 3#3)
  | .amoshMin c d a b => some (c.sc ++ c.g ++ 0x2A#6 ++ d ++ a ++ b ++ 4#3)
  | .amoshMax c d a b => some (c.sc ++ c.g ++ 0x2A#6 ++ d ++ a ++ b ++ 5#3)
  | .amoshSwap c d a b => some (c.sc ++ c.g ++ 0x2A#6 ++ d ++ a ++ b ++ 6#3)
  | .amoshCas c d a b => some (c.sc ++ c.g ++ 0x2A#6 ++ d ++ a ++ b ++ 7#3)
  | .amogAdd c d a b => some (c.sc ++ c.g ++ 0x2B#6 ++ d ++ a ++ b ++ 0#3)
  | .amogAnd c d a b => some (c.sc ++ c.g ++ 0x2B#6 ++ d ++ a ++ b ++ 1#3)
  | .amogOr c d a b => some (c.sc ++ c.g ++ 0x2B#6 ++ d ++ a ++ b ++ 2#3)
  | .amogXor c d a b => some (c.sc ++ c.g ++ 0x2B#6 ++ d ++ a ++ b ++ 3#3)
  | .amogMin c d a b => some (c.sc ++ c.g ++ 0x2B#6 ++ d ++ a ++ b ++ 4#3)
  | .amogMax c d a b => some (c.sc ++ c.g ++ 0x2B#6 ++ d ++ a ++ b ++ 5#3)
  | .amogSwap c d a b => some (c.sc ++ c.g ++ 0x2B#6 ++ d ++ a ++ b ++ 6#3)
  | .amogCas c d a b => some (c.sc ++ c.g ++ 0x2B#6 ++ d ++ a ++ b ++ 7#3)
  | .amohAdd c d a b => some (c.sc ++ c.g ++ 0x2C#6 ++ d ++ a ++ b ++ 0#3)
  | .amohAnd c d a b => some (c.sc ++ c.g ++ 0x2C#6 ++ d ++ a ++ b ++ 1#3)
  | .amohOr c d a b => some (c.sc ++ c.g ++ 0x2C#6 ++ d ++ a ++ b ++ 2#3)
  | .amohXor c d a b => some (c.sc ++ c.g ++ 0x2C#6 ++ d ++ a ++ b ++ 3#3)
  | .amohMin c d a b => some (c.sc ++ c.g ++ 0x2C#6 ++ d ++ a ++ b ++ 4#3)
  | .amohMax c d a b => some (c.sc ++ c.g ++ 0x2C#6 ++ d ++ a ++ b ++ 5#3)
  | .amohSwap c d a b => some (c.sc ++ c.g ++ 0x2C#6 ++ d ++ a ++ b ++ 6#3)
  | .amohCas c d a b => some (c.sc ++ c.g ++ 0x2C#6 ++ d ++ a ++ b ++ 7#3)
  | .drain c space => some (c.sc ++ c.g ++ 0x2D#6 ++ 0#10 ++ space ++ 0#6)
  | .sbar c a => some (c.sc ++ c.g ++ 0x2D#6 ++ 0#5 ++ a ++ 1#8)
  | .dbar c => some (c.sc ++ c.g ++ 0x2D#6 ++ 2#18)
  | .fence c scope => some (c.sc ++ c.g ++ 0x2D#6 ++ 0#12 ++ scope ++ 3#3)
  | .wfe c a => some (c.sc ++ c.g ++ 0x2D#6 ++ 0#5 ++ a ++ 4#8)
  | .twait c tok level => some (c.sc ++ c.g ++ 0x2E#6 ++ tok ++ level ++ 0#10)
  | .accrd c d a imm => some (c.sc ++ c.g ++ 0x2F#6 ++ d ++ a ++ imm)
  | .pmode c a b => some (c.sc ++ c.g ++ 0x30#6 ++ 0#5 ++ a ++ b ++ 0#3)
  | .pbed c a b => some (c.sc ++ c.g ++ 0x30#6 ++ 0#5 ++ a ++ b ++ 1#3)
  | .pbeds c a b => some (c.sc ++ c.g ++ 0x30#6 ++ 0#5 ++ a ++ b ++ 2#3)
  | .pmap c a b => some (c.sc ++ c.g ++ 0x30#6 ++ 0#5 ++ a ++ b ++ 3#3)
  | .phold c a b => some (c.sc ++ c.g ++ 0x30#6 ++ 0#5 ++ a ++ b ++ 4#3)
  | .pflow c a b => some (c.sc ++ c.g ++ 0x30#6 ++ 0#5 ++ a ++ b ++ 5#3)
  | .pdrain c a b => some (c.sc ++ c.g ++ 0x30#6 ++ 0#5 ++ a ++ b ++ 6#3)
  | .pzero c a b => some (c.sc ++ c.g ++ 0x30#6 ++ 0#5 ++ a ++ b ++ 7#3)
  | .pspan c a b => some (c.sc ++ c.g ++ 0x31#6 ++ 0#5 ++ a ++ b ++ 0#3)
  | .pstat c d a b => some (c.sc ++ c.g ++ 0x31#6 ++ d ++ a ++ b ++ 1#3)
  | .sdef c a b => some (c.sc ++ c.g ++ 0x32#6 ++ 0#5 ++ a ++ b ++ 0#3)
  | .scnt c a b => some (c.sc ++ c.g ++ 0x32#6 ++ 0#5 ++ a ++ b ++ 1#3)
  | .ssub c a b => some (c.sc ++ c.g ++ 0x32#6 ++ 0#5 ++ a ++ b ++ 2#3)
  | .sgo c a b => some (c.sc ++ c.g ++ 0x32#6 ++ 0#5 ++ a ++ b ++ 3#3)
  | .sstop c a b => some (c.sc ++ c.g ++ 0x32#6 ++ 0#5 ++ a ++ b ++ 4#3)
  | .sunf c a b => some (c.sc ++ c.g ++ 0x32#6 ++ 0#5 ++ a ++ b ++ 5#3)
  | .srgp c a b => some (c.sc ++ c.g ++ 0x32#6 ++ 0#5 ++ a ++ b ++ 6#3)
  | .shash c a b => some (c.sc ++ c.g ++ 0x32#6 ++ 0#5 ++ a ++ b ++ 7#3)
  | .cpshape c a b => some (c.sc ++ c.g ++ 0x34#6 ++ 0#5 ++ a ++ b ++ 0#3)
  | .cpy c a b => some (c.sc ++ c.g ++ 0x34#6 ++ 0#5 ++ a ++ b ++ 1#3)
  | .cpyr c a b => some (c.sc ++ c.g ++ 0x34#6 ++ 0#5 ++ a ++ b ++ 2#3)
  | .cpyf c a b => some (c.sc ++ c.g ++ 0x34#6 ++ 0#5 ++ a ++ b ++ 3#3)
  | .gidx c a b => some (c.sc ++ c.g ++ 0x35#6 ++ 0#5 ++ a ++ b ++ 0#3)
  | .gath c a b => some (c.sc ++ c.g ++ 0x35#6 ++ 0#5 ++ a ++ b ++ 1#3)
  | .scata c a b => some (c.sc ++ c.g ++ 0x35#6 ++ 0#5 ++ a ++ b ++ 2#3)
  | .fload c a b => some (c.sc ++ c.g ++ 0x36#6 ++ 0#5 ++ a ++ b ++ 0#3)
  | .fgo c a b => some (c.sc ++ c.g ++ 0x36#6 ++ 0#5 ++ a ++ b ++ 1#3)
  | .fstop c a b => some (c.sc ++ c.g ++ 0x36#6 ++ 0#5 ++ a ++ b ++ 2#3)
  | .fput c a b => some (c.sc ++ c.g ++ 0x36#6 ++ 0#5 ++ a ++ b ++ 3#3)
  | .fget c d a b => some (c.sc ++ c.g ++ 0x36#6 ++ d ++ a ++ b ++ 4#3)
  | .fstat c d a b => some (c.sc ++ c.g ++ 0x36#6 ++ d ++ a ++ b ++ 5#3)
  | .tjoin c a b => some (c.sc ++ c.g ++ 0x37#6 ++ 0#5 ++ a ++ b ++ 0#3)
  | .treset c a b => some (c.sc ++ c.g ++ 0x37#6 ++ 0#5 ++ a ++ b ++ 1#3)
  | .tquery c d a b => some (c.sc ++ c.g ++ 0x37#6 ++ d ++ a ++ b ++ 2#3)
  | .gstart c a b => some (c.sc ++ c.g ++ 0x38#6 ++ 0#5 ++ a ++ b ++ 0#3)
  | .garm c a b => some (c.sc ++ c.g ++ 0x38#6 ++ 0#5 ++ a ++ b ++ 1#3)
  | .gdone c a b => some (c.sc ++ c.g ++ 0x38#6 ++ 0#5 ++ a ++ b ++ 2#3)
  | _ => none

/-- Bits lo + n − 1 down to lo of a slot. -/
def sfld (s : BitVec 128) (lo n : Nat) : BitVec n := s.extractLsb' lo n

/-- The trigger half of a slot (R138). -/
def slotTrig (s : BitVec 128) : Trig where
  pcare := sfld s 111 16
  pval := sfld s 95 16
  inreq := sfld s 89 6
  beatsM1 := sfld s 84 5
  outreq := sfld s 77 7
  tagch := sfld s 74 3
  tagv := sfld s 72 2
  fmt := sfld s 69 3

/-- The compute form of a slot (R139). -/
def slotComp (s : BitVec 128) : Comp where
  dst := sfld s 52 5
  sa := sfld s 47 5
  sb := sfld s 42 5
  scc := sfld s 37 5
  deq := sfld s 31 6
  pupd := sfld s 30 1
  ppred := sfld s 26 4
  pop := sfld s 23 3
  xinc := sfld s 21 2
  off8 := sfld s 13 8
  lapinc := sfld s 12 1
  imm12 := sfld s 0 12

/-- The memory form of a slot (R140). -/
def slotMem (s : BitVec 128) : MemF where
  chain := sfld s 53 4
  own := sfld s 45 8
  pred := sfld s 37 8
  succ := sfld s 29 8
  addr := sfld s 24 5
  data := sfld s 19 5
  deq := sfld s 13 6
  off8 := sfld s 5 8
  size := sfld s 3 2
  amo := sfld s 0 3

/-- Bits 56:0 of a compute-form slot (R139). -/
def Comp.bits (f : Comp) : BitVec 57 :=
  f.dst ++ f.sa ++ f.sb ++ f.scc ++ f.deq ++ f.pupd ++ f.ppred ++ f.pop ++ f.xinc ++ f.off8 ++
    f.lapinc ++ f.imm12

/-- Bits 56:0 of a memory-form slot (R140). -/
def MemF.bits (m : MemF) : BitVec 57 :=
  m.chain ++ m.own ++ m.pred ++ m.succ ++ m.addr ++ m.data ++ m.deq ++ m.off8 ++ m.size ++ m.amo

/-- Bits 127:64 of a slot with V = 1 (R138). -/
def Trig.bits (t : Trig) : BitVec 64 :=
  1#1 ++ t.pcare ++ t.pval ++ t.inreq ++ t.beatsM1 ++ t.outreq ++ t.tagch ++ t.tagv ++ t.fmt ++ 0#5

/-- The element instruction that the opcode OPC names, with the fields of the slot (R147). -/
def slotInstr (opc : Nat) (t : Trig) (f : Comp) (m : MemF) : Option Instr :=
  match opc with
  | 0x00 => some (.teMov t f)
  | 0x01 => some (.teAdd t f)
  | 0x02 => some (.teSub t f)
  | 0x03 => some (.teMul t f)
  | 0x04 => some (.teMulh t f)
  | 0x05 => some (.teMulhu t f)
  | 0x06 => some (.teAnd t f)
  | 0x07 => some (.teOr t f)
  | 0x08 => some (.teXor t f)
  | 0x09 => some (.teAndn t f)
  | 0x0A => some (.teShl t f)
  | 0x0B => some (.teShr t f)
  | 0x0C => some (.teSra t f)
  | 0x0D => some (.teMin t f)
  | 0x0E => some (.teMax t f)
  | 0x0F => some (.teMinu t f)
  | 0x10 => some (.teMaxu t f)
  | 0x11 => some (.teCmp t f)
  | 0x12 => some (.sel t f)
  | 0x13 => some (.teClz t f)
  | 0x14 => some (.tePopc t f)
  | 0x15 => some (.dot4 t f)
  | 0x16 => some (.teBfx t f)
  | 0x17 => some (.hash t f)
  | 0x20 => some (.fadd t f)
  | 0x21 => some (.fsub t f)
  | 0x22 => some (.fmul t f)
  | 0x23 => some (.fma t f)
  | 0x24 => some (.fms t f)
  | 0x25 => some (.fnma t f)
  | 0x26 => some (.fmin t f)
  | 0x27 => some (.fmax t f)
  | 0x28 => some (.fabs t f)
  | 0x29 => some (.fneg t f)
  | 0x2A => some (.fcmp t f)
  | 0x2B => some (.frnd t f)
  | 0x2C => some (.fscale t f)
  | 0x2D => some (.fexpo t f)
  | 0x2E => some (.fclass t f)
  | 0x2F => some (.fhadd t f)
  | 0x30 => some (.xexpf t f)
  | 0x31 => some (.xlog2 t f)
  | 0x32 => some (.xrcp t f)
  | 0x33 => some (.xrsq t f)
  | 0x34 => some (.xsqrt t f)
  | 0x35 => some (.xsin t f)
  | 0x36 => some (.xcos t f)
  | 0x37 => some (.xtanh t f)
  | 0x38 => some (.steer t f)
  | 0x39 => some (.merge t f)
  | 0x3A => some (.join t f)
  | 0x3B => some (.dup t f)
  | 0x3C => some (.gate t f)
  | 0x3D => some (.drop t f)
  | 0x3E => some (.tag t f)
  | 0x3F => some (.carry t f)
  | 0x40 => some (.ldcSp t m)
  | 0x41 => some (.stcSp t m)
  | 0x42 => some (.ldcSh t m)
  | 0x43 => some (.stcSh t m)
  | 0x44 => some (.ldcG t m)
  | 0x45 => some (.stcG t m)
  | 0x46 => some (.amocSp t m)
  | 0x47 => some (.amocSh t m)
  | 0x48 => some (.amocG t m)
  | 0x49 => some (.cskip t m)
  | 0x50 => some (.ropen t f)
  | 0x51 => some (.rclose t f)
  | 0x52 => some (.rabort t f)
  | 0x53 => some (.done t f)
  | 0x54 => some (.teTrap t f)
  | 0x55 => some (.teNop t f)
  | 0x56 => some (.lapset t f)
  | 0x58 => some (.cvt t f)
  | 0x59 => some (.pack t f)
  | 0x5A => some (.unpk t f)
  | 0x60 => some (.pset t f)
  | 0x61 => some (.tePlog t f)
  | 0x62 => some (.xset t f)
  | 0x63 => some (.xadd t f)
  | 0x64 => some (.xcmp t f)
  | _ => none

/-- The opcode, and bits 56:0, of an element instruction (R139, R140, R147). -/
def slotAction (i : Instr) : Option (Trig × BitVec 7 × BitVec 57) :=
  match i with
  | .teMov t f => some (t, 0x00#7, f.bits)
  | .teAdd t f => some (t, 0x01#7, f.bits)
  | .teSub t f => some (t, 0x02#7, f.bits)
  | .teMul t f => some (t, 0x03#7, f.bits)
  | .teMulh t f => some (t, 0x04#7, f.bits)
  | .teMulhu t f => some (t, 0x05#7, f.bits)
  | .teAnd t f => some (t, 0x06#7, f.bits)
  | .teOr t f => some (t, 0x07#7, f.bits)
  | .teXor t f => some (t, 0x08#7, f.bits)
  | .teAndn t f => some (t, 0x09#7, f.bits)
  | .teShl t f => some (t, 0x0A#7, f.bits)
  | .teShr t f => some (t, 0x0B#7, f.bits)
  | .teSra t f => some (t, 0x0C#7, f.bits)
  | .teMin t f => some (t, 0x0D#7, f.bits)
  | .teMax t f => some (t, 0x0E#7, f.bits)
  | .teMinu t f => some (t, 0x0F#7, f.bits)
  | .teMaxu t f => some (t, 0x10#7, f.bits)
  | .teCmp t f => some (t, 0x11#7, f.bits)
  | .sel t f => some (t, 0x12#7, f.bits)
  | .teClz t f => some (t, 0x13#7, f.bits)
  | .tePopc t f => some (t, 0x14#7, f.bits)
  | .dot4 t f => some (t, 0x15#7, f.bits)
  | .teBfx t f => some (t, 0x16#7, f.bits)
  | .hash t f => some (t, 0x17#7, f.bits)
  | .fadd t f => some (t, 0x20#7, f.bits)
  | .fsub t f => some (t, 0x21#7, f.bits)
  | .fmul t f => some (t, 0x22#7, f.bits)
  | .fma t f => some (t, 0x23#7, f.bits)
  | .fms t f => some (t, 0x24#7, f.bits)
  | .fnma t f => some (t, 0x25#7, f.bits)
  | .fmin t f => some (t, 0x26#7, f.bits)
  | .fmax t f => some (t, 0x27#7, f.bits)
  | .fabs t f => some (t, 0x28#7, f.bits)
  | .fneg t f => some (t, 0x29#7, f.bits)
  | .fcmp t f => some (t, 0x2A#7, f.bits)
  | .frnd t f => some (t, 0x2B#7, f.bits)
  | .fscale t f => some (t, 0x2C#7, f.bits)
  | .fexpo t f => some (t, 0x2D#7, f.bits)
  | .fclass t f => some (t, 0x2E#7, f.bits)
  | .fhadd t f => some (t, 0x2F#7, f.bits)
  | .xexpf t f => some (t, 0x30#7, f.bits)
  | .xlog2 t f => some (t, 0x31#7, f.bits)
  | .xrcp t f => some (t, 0x32#7, f.bits)
  | .xrsq t f => some (t, 0x33#7, f.bits)
  | .xsqrt t f => some (t, 0x34#7, f.bits)
  | .xsin t f => some (t, 0x35#7, f.bits)
  | .xcos t f => some (t, 0x36#7, f.bits)
  | .xtanh t f => some (t, 0x37#7, f.bits)
  | .steer t f => some (t, 0x38#7, f.bits)
  | .merge t f => some (t, 0x39#7, f.bits)
  | .join t f => some (t, 0x3A#7, f.bits)
  | .dup t f => some (t, 0x3B#7, f.bits)
  | .gate t f => some (t, 0x3C#7, f.bits)
  | .drop t f => some (t, 0x3D#7, f.bits)
  | .tag t f => some (t, 0x3E#7, f.bits)
  | .carry t f => some (t, 0x3F#7, f.bits)
  | .ldcSp t m => some (t, 0x40#7, m.bits)
  | .stcSp t m => some (t, 0x41#7, m.bits)
  | .ldcSh t m => some (t, 0x42#7, m.bits)
  | .stcSh t m => some (t, 0x43#7, m.bits)
  | .ldcG t m => some (t, 0x44#7, m.bits)
  | .stcG t m => some (t, 0x45#7, m.bits)
  | .amocSp t m => some (t, 0x46#7, m.bits)
  | .amocSh t m => some (t, 0x47#7, m.bits)
  | .amocG t m => some (t, 0x48#7, m.bits)
  | .cskip t m => some (t, 0x49#7, m.bits)
  | .ropen t f => some (t, 0x50#7, f.bits)
  | .rclose t f => some (t, 0x51#7, f.bits)
  | .rabort t f => some (t, 0x52#7, f.bits)
  | .done t f => some (t, 0x53#7, f.bits)
  | .teTrap t f => some (t, 0x54#7, f.bits)
  | .teNop t f => some (t, 0x55#7, f.bits)
  | .lapset t f => some (t, 0x56#7, f.bits)
  | .cvt t f => some (t, 0x58#7, f.bits)
  | .pack t f => some (t, 0x59#7, f.bits)
  | .unpk t f => some (t, 0x5A#7, f.bits)
  | .pset t f => some (t, 0x60#7, f.bits)
  | .tePlog t f => some (t, 0x61#7, f.bits)
  | .xset t f => some (t, 0x62#7, f.bits)
  | .xadd t f => some (t, 0x63#7, f.bits)
  | .xcmp t f => some (t, 0x64#7, f.bits)
  | _ => none

/-- The instruction that a slot holds, or why it holds none (R138, R147, R148). -/
def decodeSlot (s : BitVec 128) : Except DecodeError Instr :=
  if sfld s 127 1 == 0#1 then .error .slotInvalid
  else
    match slotInstr (sfld s 57 7).toNat (slotTrig s) (slotComp s) (slotMem s) with
    | none => .error .opcode
    | some i => if sfld s 64 5 == 0#5 && i.wf then .ok i else .error .slotForm

/-- The slot of an element instruction, with V = 1; none for any other step. -/
def encodeSlot (i : Instr) : Option (BitVec 128) :=
  match slotAction i with
  | some (t, opc, bits) => some (t.bits ++ (opc ++ bits))
  | none => none

/-- The little-endian value of some bytes (R6). -/
def leNat : List Byte → Nat
  | [] => 0
  | b :: bs => b.toNat + 256 * leNat bs

/-- The `n` little-endian bytes of a value (R6). -/
def leBytes : Nat → Nat → List Byte
  | 0, _ => []
  | n + 1, v => BitVec.ofNat 8 v :: leBytes n (v / 256)

/-- The control instruction in the first four of some bytes (R6, R39). -/
def decode (bs : List Byte) : Except DecodeError Instr :=
  if bs.length < 4 then .error .tooShort else decodeWord (BitVec.ofNat 32 (leNat (bs.take 4)))

/-- The element instruction in the first sixteen of some bytes, bits 63:0 at the lower address (R34). -/
def decodeElement (bs : List Byte) : Except DecodeError Instr :=
  if bs.length < 16 then .error .tooShort else decodeSlot (BitVec.ofNat 128 (leNat (bs.take 16)))

/-- The bytes of a well-formed instruction as the part stores them: four for a control word, sixteen
for a slot, none for an event. -/
def encode (i : Instr) : List Byte :=
  match encodeWord i, encodeSlot i with
  | some w, _ => leBytes 4 w.toNat
  | none, some s => leBytes 16 s.toNat
  | none, none => []

/-- The instruction whose bits are `w` as the opcode table numbers them: a control word of 32 bits, or
a slot of 128. -/
def decodeTableWord (nbits w : Nat) : Option Instr :=
  if nbits ≤ 32 then (decode (leBytes 4 w)).toOption else (decodeElement (leBytes 16 w)).toOption

end Sys2Proof
end

