-- ==== Sys2Proof/Machine/Store.lean ====
section
/-! DEFINITION. The two containers the state is built of, and their operations: a memory of bytes in one
canonical form, and a sparse table keyed by numbers. -/

namespace Sys2Proof.Machine

/-- A table that lists its entries by rising key; a key that is not listed holds the table's default. -/
structure Sparse (α : Type) where
  items : List (Nat × α)
  deriving DecidableEq, Repr, Inhabited

/-- The empty table. -/
def Sparse.empty {α : Type} : Sparse α := ⟨[]⟩

/-- The entry of a key in a list of entries. -/
def lookupKey {α : Type} (k : Nat) : List (Nat × α) → Option α
  | [] => none
  | (j, v) :: rest => if j = k then some v else lookupKey k rest

/-- The list with the entry of `k` set, in rising key order. -/
def insertKey {α : Type} (k : Nat) (v : α) : List (Nat × α) → List (Nat × α)
  | [] => [(k, v)]
  | (j, u) :: rest =>
    if j = k then (k, v) :: rest
    else if k < j then (k, v) :: (j, u) :: rest
    else (j, u) :: insertKey k v rest

/-- What a table holds at `k`, `d` where nothing is listed. -/
def Sparse.get {α : Type} (t : Sparse α) (d : α) (k : Nat) : α := (lookupKey k t.items).getD d

/-- The table with `v` at `k`. -/
def Sparse.set {α : Type} (t : Sparse α) (k : Nat) (v : α) : Sparse α := ⟨insertKey k v t.items⟩

/-- The keys that a table lists. -/
def Sparse.keys {α : Type} (t : Sparse α) : List Nat := t.items.map (·.1)

/-- A memory: the bytes that are not zero, by strictly rising address (R6). An address that is not
listed reads zero, which is what boot step 4 writes into every array (R414). -/
structure Memory where
  cells : List Host.Cell
  deriving DecidableEq, Repr, Inhabited

/-- What an unlisted address reads as: the zero of boot step 4 (R414). DESIGN CHOICE before that step
(log entry 2). -/
def Memory.unlisted : Byte := 0#8

/-- The memory with nothing listed. -/
def Memory.empty : Memory := ⟨[]⟩

/-- The byte of an address in a list of cells. -/
def readCells (a : Nat) : List Host.Cell → Byte
  | [] => Memory.unlisted
  | (b, v) :: rest => if b = a then v else readCells a rest

/-- The list with the byte of an address set: the entry goes where the byte is what an unlisted address
reads as. -/
def writeCells (a : Nat) (v : Byte) : List Host.Cell → List Host.Cell
  | [] => if v = Memory.unlisted then [] else [(a, v)]
  | (b, u) :: rest =>
    if b = a then (if v = Memory.unlisted then rest else (a, v) :: rest)
    else if a < b then (if v = Memory.unlisted then (b, u) :: rest else (a, v) :: (b, u) :: rest)
    else (b, u) :: writeCells a v rest

/-- The byte at an address. -/
def Memory.read (m : Memory) (a : Nat) : Byte := readCells a m.cells

/-- The memory with `v` at address `a`. -/
def Memory.write (m : Memory) (a : Nat) (v : Byte) : Memory := ⟨writeCells a v m.cells⟩

/-- Whether every cell of a list lies above `lo` and the addresses rise strictly, with no entry equal to
what an unlisted address reads as. -/
def cellsWf : Nat → List Host.Cell → Bool
  | _, [] => true
  | lo, (a, v) :: rest => decide (lo ≤ a) && decide (v ≠ Memory.unlisted) && cellsWf (a + 1) rest

/-- The canonical form of a memory. -/
def Memory.wf (m : Memory) : Bool := cellsWf 0 m.cells

/-- The memory with the bytes of a list from address `a` upward. -/
def Memory.writeBytes (m : Memory) (a : Nat) : List Byte → Memory
  | [] => m
  | b :: bs => (m.write a b).writeBytes (a + 1) bs

/-- The `n` bytes from address `a` upward. -/
def Memory.readBytes (m : Memory) (a : Nat) : Nat → List Byte
  | 0 => []
  | n + 1 => m.read a :: m.readBytes (a + 1) n

/-- The little-endian value of the `n` bytes from address `a` (R6). -/
def Memory.readLe (m : Memory) (a n : Nat) : Nat := leNat (m.readBytes a n)

/-- The memory with the `n` low bytes of a value at address `a`, little-endian (R6). -/
def Memory.writeLe (m : Memory) (a n v : Nat) : Memory := m.writeBytes a (leBytes n v)

/-- A sorted list of numbers with `k` added. -/
def insertNat (k : Nat) : List Nat → List Nat
  | [] => [k]
  | j :: rest => if j = k then j :: rest else if k < j then k :: j :: rest else j :: insertNat k rest

/-- The list with one place changed. -/
def modifyAt {α : Type} (f : α → α) : Nat → List α → List α
  | _, [] => []
  | 0, x :: xs => f x :: xs
  | n + 1, x :: xs => x :: modifyAt f n xs

end Sys2Proof.Machine
end

