-- ==== Sys2Proof/Machine/State.lean ====
section
/-! DEFINITION. The state of the package (R2): its tiles with their threads, elements, engines and
tokens, the homes of the chains, the network, the sequencers, the partitions and the package's own
registers; the faults and refusals of a step; and the state after a cold reset (R413). -/

namespace Sys2Proof.Machine

/-! ## Small vocabularies -/

/-- The four spaces that a control thread reaches, coded as R45 and R286 code them (R90). -/
inductive Space where
  | sp | sh | g | h
  deriving DecidableEq, Repr, Inhabited

/-- An atomic operation on a location: the eight of R105, and the floating add of R215 and R290. -/
inductive AmoOp where
  | add | and | or | xor | min | max | swap | cas | fadd
  deriving DecidableEq, Repr, Inhabited

/-- The seven states of a dependence token (R275). -/
inductive TokState where
  | free | pending | read | visible | skipped | faulted | poison
  deriving DecidableEq, Repr, Inhabited

/-- What a thread slot holds (R237): nothing, a started thread, a thread that has halted, or one that
R342 has stopped instead of entering a handler. -/
inductive ThreadStatus where
  | empty | running | halted | stopped
  deriving DecidableEq, Repr, Inhabited

/-- The states of a region domain (R233). -/
inductive DomState where
  | idle | opened | closed | stopped
  deriving DecidableEq, Repr, Inhabited

/-! ## Tokens and commands -/

/-- One of the 64 token slots of a tile, with what TQUERY reads of it and the last command that left a
buffer to produce it (R274, R276, R282). -/
structure TokenSlot where
  state : TokState := .free
  cause : BitVec 6 := 0#6
  func : BitVec 7 := 0x7F#7
  prog : Nat := 0
  frozen : Bool := false
  owner : Option Nat := none
  poisoned : Bool := false
  deriving DecidableEq, Repr, Inhabited

/-- How far the next access of an engine has got (R252, R262, R265, R267): its request is not made, is on its way, or has
reached its end; or the access has its banks from a cycle on. -/
inductive AskStage where
  | unsent
  | onWay
  | arrived
  | booked (cycle : Nat)
  deriving DecidableEq, Repr, Inhabited

/-- Where an engine command stands after it has left its buffer: it waits, it runs, a memory fault holds it at an
element, or it has done its work and ends once its writes are visible at its scope (R277, R279, R317). -/
inductive Stage where
  | waiting
  | running
  | frozen (cause : BitVec 6) (tval : Word)
  | ending (state : TokState) (cause : BitVec 6)
  deriving DecidableEq, Repr, Inhabited

/-- An engine command: its function and arguments as its word issued (R47), the descriptors as they
stood when it left its buffer (R285, R406), the cycle in which it left and that of its last request (R331), and
how far it has got, its next access to memory included.
`armed` marks a command of an armed section's round (R384). -/
structure Cmd where
  id : Nat
  func : BitVec 7
  a : Word
  b : Word
  slot : Nat
  gid : Nat
  reply : Option (BitVec 5)
  copy : Vector Word 5 := Vector.replicate 5 0#64
  sieve : Vector Word 3 := Vector.replicate 3 0#64
  satisfied : BitVec 3 := 0#3
  upstream : Bool := false
  stage : Stage := .waiting
  pos : Nat := 0
  since : Nat := 0
  asked : Nat := 0
  ask : AskStage := .unsent
  chunk : List (BitVec 32) := []
  list : List Nat := []
  flags : BitVec 8 := 0#8
  readDone : Bool := false
  aux : Nat := 0
  left : Nat := 0
  armed : Bool := false
  deriving DecidableEq, Repr, Inhabited

/-! ## Control threads -/

/-- What a buffered access does when it is performed (R96, R106). -/
inductive Access where
  | store (size : Nat) (data : Word)
  | amo (op : AmoOp) (operand : Word)
  deriving DecidableEq, Repr, Inhabited

/-- A store or non-returning AMO of a thread (R96, R97): its space, the place it names (the window
offset in SP, the location elsewhere) and the virtual address it was translated from. -/
structure Buffered where
  space : Space
  place : Nat
  va : Word
  act : Access
  deriving DecidableEq, Repr, Inhabited

/-- A committed store or non-returning AMO that has not been performed (R221, R256): the region it
belongs to, its order in the thread, whether its request is express (R252), whether the memory interface
has presented it and whether it is still on its way, whether it has passed the point at which R335 makes it
visible at the narrower scopes, the cycle in which it was committed, and the cycle of its bank that it has booked
(R262). -/
structure InFlight where
  region : Nat
  sid : Nat
  buf : Buffered
  express : Bool := false
  sent : Bool := false
  inNet : Bool := false
  passed : Bool := false
  since : Nat := 0
  booked : Option Nat := none
  deriving DecidableEq, Repr, Inhabited

/-- Where a scoreboarded result comes from: memory, the literal or accumulator or atomic whose value is
already read, the reply of an engine command, or the divider (R53). -/
inductive Source where
  | load
  | value
  | reply (cmd : Nat)
  | division
  deriving DecidableEq, Repr, Inhabited

/-- What a read that stands behind earlier accesses of its thread does once they are performed (R95, R102, R106,
R111): the place of each of its bytes, the bytes that its region had buffered, its sign extension, the operation,
operand and comparand of a returning atomic, whether it is an acquire, and how many of the thread's committed accesses
come before it. -/
structure QueuedRead where
  places : List Nat
  taken : List (Option Byte)
  signed : Bool := false
  amo : Option (AmoOp × Word × Word) := none
  acquire : Bool := false
  after : Nat := 0
  deriving DecidableEq, Repr, Inhabited

/-- A scoreboarded result that has not been written (R53): its register, the value it will hold where that
is already fixed (R95), and of an access its space, its place, its address, whether its request or reply
is still on its way, and what it will do where it still stands behind earlier accesses. -/
structure Outstanding where
  id : Nat
  dst : BitVec 5
  src : Source
  value : Option Word := none
  space : Space := .sp
  place : Nat := 0
  due : Nat := 0
  inNet : Bool := false
  va : Word := 0#64
  queued : Option QueuedRead := none
  deriving DecidableEq, Repr, Inhabited

/-- A fixed-latency result on its way to its register, or to a predicate (R52): it is written in cycle
`due`. A predicate is numbered 32 + its number. -/
structure Pending where
  reg : Nat
  value : Word
  due : Nat
  deriving DecidableEq, Repr, Inhabited

/-- The last fixed-latency producer of a register or predicate, for the guaranteed distance of R52. -/
structure Producer where
  reg : Nat
  at_ : Nat
  latency : Nat
  deriving DecidableEq, Repr, Inhabited

/-- A wait of a TWAIT on a token at a level, and, once a state of the token has decided it, whether it goes
on or traps with a cause (R81, R82, R277). -/
structure TokenWait where
  tok : Nat
  level : Nat
  result : Option (Option (BitVec 6)) := none
  deriving DecidableEq, Repr, Inhabited

/-- One thread slot (R237, R239): the thread's registers, special registers, region, buffers, results
in flight and descriptors. -/
structure Thread where
  status : ThreadStatus := .empty
  gid : Nat := 0
  -- registers and predicates (R43, R59)
  regs : Vector Word 32 := Vector.replicate 32 0#64
  preds : BitVec 16 := 0#16
  pc : Word := 0#64
  poisonR : BitVec 32 := 0#32
  poisonP : BitVec 16 := 0#16
  -- special registers of R49
  role : BitVec 2 := 0#2
  group : BitVec 32 := 0#32
  domain : Word := 0#64
  evt : BitVec 16 := 0#16
  flags : BitVec 8 := 0#8
  trapen : BitVec 8 := 0#8
  sbchk : Bool := false
  netclass : Bool := false
  padm : Word := 0#64
  pwbase : Vector Word 4 := Vector.replicate 4 0#64
  pwlim : Vector (BitVec 32) 4 := Vector.replicate 4 0#32
  ftrap : Word := 0#64
  -- supervisor trap registers (R341)
  sup : Bool := false
  tcause : Word := 0#64
  tepc : Word := 0#64
  tval : Word := 0#64
  taux : Word := 0#64
  tvec : Word := 0#64
  tsave0 : Word := 0#64
  tsave1 : Word := 0#64
  tstate : Word := 0#64
  reentrymax : BitVec 8 := 8#8
  trapsPoisoned : Bool := false
  -- the open region (R217, R218, R220, R228), and, while a word that has put a marker in front of itself runs, the
  -- counter of the region that this marker has committed (R76)
  resume : Word := 0#64
  readR : BitVec 32 := 0#32
  readP : BitVec 16 := 0#16
  wroteR : BitVec 32 := 0#32
  wroteP : BitVec 16 := 0#16
  buffered : List Buffered := []
  held : List Cmd := []
  reentry : BitVec 8 := 0#8
  trapReentry : BitVec 8 := 0#8
  frontReentry : Option (BitVec 8) := none
  regionNo : Nat := 0
  -- committed work on its way out (R220, R221)
  departing : List Cmd := []
  inflight : List InFlight := []
  nextSid : Nat := 0
  -- timing (R40, R52 to R55, R240, R241)
  earliest : Nat := 0
  distance : Nat := 0
  pend : List Pending := []
  producers : List Producer := []
  lastSet : Option (BitVec 5) := none
  fresh : Bool := false
  age : Nat := 0
  yielded : Option Nat := none
  waiting : Bool := false
  waitOwn : Bool := false
  arrived : Bool := false
  twait : Option TokenWait := none
  phaseAtWait : Bool := false
  latchA : Word := 0#64
  latchB : Word := 0#64
  latchD : Word := 0#64
  outstanding : List Outstanding := []
  nextLoad : Nat := 0
  -- descriptors (R285, R406)
  copy : Vector Word 5 := Vector.replicate 5 0#64
  sieve : Vector Word 3 := Vector.replicate 3 0#64
  deriving DecidableEq, Repr, Inhabited

/-! ## Triggered elements -/

/-- A token on a channel (R137), with the flags that come beside a column unit's reply (R149), the image
to whose open region instance it belongs (R226), and whether a stream delivered it (R386). -/
structure Token where
  data : W32
  fmt : BitVec 3
  utag : BitVec 2
  flags : BitVec 8 := 0#8
  region : Option Nat := none
  stream : Bool := false
  deriving DecidableEq, Repr, Inhabited

/-- What the region snapshot of a TE holds (R136, R225). -/
structure Snapshot where
  p : BitVec 16
  x : Vector (BitVec 16) 8
  lap : BitVec 8
  deriving DecidableEq, Repr, Inhabited

/-- How far a request has got: its sender holds it, it is on its way, or it has arrived. -/
inductive NetStage where
  | unsent
  | onWay
  | arrived
  deriving DecidableEq, Repr, Inhabited

/-- A chain access that its TE has sent and its home has not yet granted (R194, R198), with how far its
request to a home in a slice has got (R252). -/
structure ChainReq where
  firing : Nat
  beat : Nat
  beats : Nat
  chain : BitVec 4
  lap : BitVec 8
  own : BitVec 8
  pred : BitVec 8
  succ : BitVec 8
  op : ChainOp
  size : Nat
  amo : BitVec 3
  returning : Bool
  addr : W32
  data : W32
  inRegion : Bool
  slot : Nat
  net : NetStage := .unsent
  deriving DecidableEq, Repr

/-- One triggered element (R136): its slots, predicates, index and lap registers, windows, router word,
input queues n e s w m f with the live-in tokens an instance took from them (R226), the free-slot counts
of its outputs n e s w (R172), the ROPEN slot that holds it (R165), its run state, and the tile and slot of
the thread that its control tokens go to (R15). `auditing` holds the cycle in which an output's audit began (R190),
`overflowed` counts the tokens that an input has dropped, and `audited` says that an audit has followed (R191). -/
structure TE where
  slots : List (BitVec 128) := []
  p : BitVec 16 := 0#16
  x : Vector (BitVec 16) 8 := Vector.replicate 8 0#16
  lap : BitVec 8 := 0#8
  liveBase : BitVec 14 := 0#14
  liveLim : BitVec 14 := 0#14
  scrBase : BitVec 14 := 0#14
  scrLim : BitVec 14 := 0#14
  router : BitVec 64 := 0#64
  queues : Vector (List Token) 6 := Vector.replicate 6 []
  taken : List (Nat × Token) := []
  reservedM : Nat := 0
  reservedF : Nat := 0
  credit : Vector Nat 4 := Vector.replicate 4 4
  creditBad : Vector Bool 4 := Vector.replicate 4 false
  auditing : Vector (Option Nat) 4 := Vector.replicate 4 none
  overflowed : Vector Nat 4 := Vector.replicate 4 0
  audited : Vector Bool 4 := Vector.replicate 4 false
  flags : BitVec 8 := 0#8
  image : Option Nat := none
  started : Bool := false
  dest : Nat × Nat := (0, 0)
  ctlTokens : Nat := 0
  holding : Option Nat := none
  outM : List ChainReq := []
  slotPoison : BitVec 32 := 0#32
  deriving DecidableEq, Repr, Inhabited

/-- A control token on its way to a thread (R15, R177): the TE that pushed it, the EVT bit, the flags it
carries, the tile, slot and group of the FGO thread that it goes to, the first cycle in which it may be
delivered, and, once it leaves for another tile, the tile of its TE (R177). -/
structure CtlToken where
  col : Nat
  row : Nat
  bit : BitVec 4
  flags : BitVec 8
  tile : Nat
  slot : Nat
  gid : Nat
  due : Nat := 0
  source : Nat := 0
  deriving DecidableEq, Repr, Inhabited

/-- A request that a TE holds out to its column unit (R149, R161). -/
structure ColReq where
  row : Nat
  func : BitVec 3
  operand : W32
  utag : BitVec 2
  inRegion : Bool
  img : Nat
  deriving DecidableEq, Repr, Inhabited

/-! ## Fabric images and chain homes -/

/-- A loaded fabric image and its region domain (R85, R87, R168, R224 to R233). TEs are named by their
tile, column and row. `blockedSince` is the cycle from which R211's conditions have held together,
`discarded` the cycle of its last discard (R232), `snapPoison` the TEs whose snapshot holds an uncorrectable error
(R234), `committing` says that an instance's commit has begun and waits for its far accesses (R208), `stopAfter` that
a stop has come meanwhile and takes effect once it is complete (R233), `heldAnswers` the values that its returning
atomics send then, each with its TE (R215), and `endedAt` the cycle in which a
takeover ended its domain with an instance open (R232). -/
structure Image where
  id : Nat
  gid : Nat
  leader : Nat
  offset : Nat
  colOff : Nat
  rowOff : Nat
  level : Nat
  home : Nat
  tes : List (Nat × Nat × Nat)
  head : Option (Nat × Nat × Nat)
  tail : Option (Nat × Nat × Nat)
  chains : List Nat
  started : Bool := false
  thread : Option (Nat × Nat) := none
  base3 : Word := 0#64
  lim3 : BitVec 32 := 0#32
  reentrymax : BitVec 8 := 8#8
  bound : Bool := false
  state : DomState := .idle
  ordered : Bool := false
  reentry : BitVec 8 := 0#8
  snapshots : List ((Nat × Nat × Nat) × Snapshot) := []
  heldTokens : List (Nat × CtlToken) := []
  columnOut : Nat := 0
  blockedSince : Option Nat := none
  discarded : Option Nat := none
  snapPoison : List (Nat × Nat × Nat) := []
  committing : Bool := false
  stopAfter : Bool := false
  heldAnswers : List ((Nat × Nat × Nat) × W32) := []
  endedAt : Option Nat := none
  deriving DecidableEq, Repr, Inhabited

/-- The access that a chain context released last, as far as the next one needs it (R195). -/
structure ChainPos where
  firing : Nat
  beat : Nat
  beats : Nat
  own : BitVec 8
  succ : BitVec 8
  deriving DecidableEq, Repr, Inhabited

/-- A chain context of a home: its image and chain, its lap and position, and what ROPEN recorded of
them (R195, R197, R201). -/
structure ChainCtx where
  img : Nat
  chain : Nat
  lap : BitVec 8 := 0#8
  pos : Option ChainPos := none
  savedLap : BitVec 8 := 0#8
  savedPos : Option ChainPos := none
  closed : Bool := false
  deriving DecidableEq, Repr, Inhabited

/-- Where an entry of an ordering buffer stands (R200). A load that has been released stays until its
value has been returned. -/
inductive EntryState where
  | wait
  | held (order : Nat)
  | done
  deriving DecidableEq, Repr, Inhabited

/-- An entry of a home ordering buffer (R197, R200), with the cycle of its acceptance, the cycle from which the
value of a load is there, once its bank has served it, and that of its bank which a store or atomic has booked (R262). -/
structure Entry where
  id : Nat
  img : Nat
  req : ChainReq
  te : Nat × Nat × Nat
  loc : Nat
  state : EntryState := .wait
  value : Option W32 := none
  sources : List (Option Nat) := []
  replied : Bool := false
  reserved : Bool := false
  since : Nat := 0
  due : Nat := 0
  booked : Option Nat := none
  deriving DecidableEq, Repr

/-- A home ordering buffer (R197): its contexts and its entries in the order they arrived. -/
structure Home where
  ctxs : List ChainCtx := []
  entries : List Entry := []
  nextEntry : Nat := 0
  nextOrder : Nat := 0
  deriving DecidableEq, Repr, Inhabited

/-! ## Pool and streams -/

/-- An element on its way to a subscriber: its bits, and whether the prism marks it as a hard zero
(R131, R400). -/
structure Elem where
  bits : W32
  hard : Bool := false
  deriving DecidableEq, Repr, Inhabited

/-- A subscriber of a stream (R356, R385): its number, window and replays, where it writes when it is
the copy engine (R387), the elements it has taken in the running pass over the stream, and how far the write of its next
has got. -/
structure Sub where
  sub : Nat
  win : Nat
  rep : Nat
  dst : Word := 0#64
  mode : Word := 0#64
  taken : Nat := 0
  written : Nat := 0
  ask : AskStage := .unsent
  deriving DecidableEq, Repr, Inhabited

/-- The unfolding descriptor of R398. -/
structure Unfold where
  c : Nat
  h : Nat
  w : Nat
  oh : Nat
  ow : Nat
  kh : Nat
  kw : Nat
  sy : Nat
  sx : Nat
  dy : Nat
  dx : Nat
  pt : Nat
  pl : Nat
  cstride : Nat
  deriving DecidableEq, Repr, Inhabited

/-- An address-generator stream (R360, R385 to R404): its definition, its counters, its subscribers,
the counters recorded while it unfolds (R399), the prism's settings, and, while it runs, the command that
started it and its place among the streams that began (R422), the elements whose requests it has made, those of them
that are on their way, how far its next access has got, the elements it has fetched and the buffer of R422 that holds
those not yet taken by every subscriber. -/
structure Stream where
  base : Word := 0#64
  space : BitVec 2 := 0#2
  fmt : Nat := 0
  counts : Vector Nat 6 := Vector.replicate 6 1
  strides : Vector Int 6 := Vector.replicate 6 0
  subs : List Sub := []
  nextCounts : List (Nat × Nat × Int) := []
  unfold : Option Unfold := none
  regroupDir : Bool := false
  regroupFact : BitVec 2 := 0#2
  gid : Nat := 0
  running : Bool := false
  starter : Nat := 0
  began : Nat := 0
  asked : Nat := 0
  onWay : List Nat := []
  ask : AskStage := .unsent
  fetched : Nat := 0
  buffer : List Elem := []
  bufferBase : Nat := 0
  frozen : Option (BitVec 6 × Word) := none
  deriving DecidableEq, Repr, Inhabited

/-- The ownership of one accumulator tile by one PFLOW (R361): the command, whether it has left its
buffer and has ended, and the PDRAIN that will end the ownership once one has left after it, and whether that has
ended. -/
structure Owner where
  acct : Nat
  flow : Nat
  slot : Nat
  left : Bool := false
  flowEnded : Bool := false
  drain : Option Nat := none
  drainEnded : Bool := false
  ptok : BitVec 6 := 0x3F#6
  gid : Nat := 0
  deriving DecidableEq, Repr, Inhabited

/-- An armed section that runs on a pool (R384): the passes left, the passes of the running round, how far
that round has got (0 not begun, 1 flow running, 2 flow done, 3 drain running, 4 done), whether a fault or
poison has ended it, and who waits for it: a node, or the GARM command of a tile. -/
structure Armed where
  passesLeft : Nat
  round : Nat := 0
  phase : Nat := 0
  failed : Bool := false
  node : Option (Nat × Nat × Nat)
  command : Option (Nat × Nat)
  deriving DecidableEq, Repr, Inhabited

/-- What a pool held before it joined another (R382): its multicast map and held entries, with the poisoned ones of
each (R350). -/
structure SavedPool where
  map : Sparse (BitVec 16)
  held : Sparse (BitVec 16)
  mapPoison : List Nat
  heldPoison : List Nat
  deriving DecidableEq, Repr, Inhabited

/-- A tile's pool (R354 to R376): mode word, bed words, multicast map, held entries, accumulators,
joining, with what a member held before it (R382), ownership, the recorded commands
of R384 with the stream that fed the flow, and the armed section. -/
structure Pool where
  mode : Word := 0#64
  beds : List Word := []
  map : Sparse (BitVec 16) := ⟨[]⟩
  held : Sparse (BitVec 16) := ⟨[]⟩
  acc : Sparse W32 := ⟨[]⟩
  joined : Nat := 0
  target : Nat := 0
  memberOf : Option Nat := none
  saved : Option SavedPool := none
  owners : List Owner := []
  lastFlow : Option Cmd := none
  fed : Option Stream := none
  lastStream : Option Stream := none
  lastDrain : Option Cmd := none
  armed : Option Armed := none
  aflags : BitVec 6 := 0#6
  flowPort : List Elem := []
  heldPoison : List Nat := []
  accPoison : List Nat := []
  mapPoison : List Nat := []
  bedPoison : List Nat := []
  deriving DecidableEq, Repr, Inhabited

/-! ## Packets -/

/-- Whose access an engine's request is (R252): a command's, that of an element of a stream, by the stream's place
among those that began, or that of a stream's copy engine. -/
inductive EngineId where
  | command (id : Nat)
  | element (index began k : Nat)
  | sub (index began n : Nat)
  deriving DecidableEq, Repr, Inhabited

/-- What a packet of the control network carries to its end (R252, R266): the request of a load, of a
committed store or of a chain access, the reply of a load or of a chain access with its token, a barrier arrival,
a control token for another tile, an engine's request, by its maker, tile, space, place, bytes and direction, a stop wave
for a block (R343), or what has no effect beyond the room and the cycles it takes: an acknowledgement, an engine's reply,
a permit, or a reservation. -/
inductive Payload where
  | load (tile slot k : Nat)
  | loadReply (tile slot k : Nat)
  | store (tile slot sid : Nat)
  | chain (tile col row : Nat)
  | chainReply (img col row : Nat) (t : Token)
  | engine (who : EngineId) (target : Nat) (space : Space) (place bytes : Nat) (write : Bool)
  | stop (part block : Nat)
  | arrival (gid tile slot : Nat)
  | token (c : CtlToken)
  | plain
  deriving DecidableEq, Repr, Inhabited

/-- A packet: its channel, whether it is a reply, its flits, its sender's owner identifier, the tile it comes
from or goes back to, the egresses it has still to take, its age, the cycle in which its first flit was sent to the
queue that holds it, the first cycle in which it stands at the head of that (R255, R260), its number among those that its
tile has presented, and what it carries (R252 to R254, R256, R349). -/
structure Packet where
  vc : Nat
  reply : Bool := false
  flits : Nat := 1
  owner : Nat
  tile : Nat := 0
  path : List Nat
  age : Nat := 0
  sentAt : Nat := 0
  at_ : Nat := 0
  stamp : Nat := 0
  payload : Payload
  deriving DecidableEq, Repr, Inhabited

/-! ## Far writes -/

/-- Who made a far write: a committed access of a thread slot, a copy command, with its number among those that have
left a buffer of its tile and the slot that issued it, a stream that a command started, or a chain of an image, by the TE
and the slot that fired its access. -/
inductive FarMaker where
  | access (slot sid : Nat)
  | command (id left slot : Nat)
  | stream (id index : Nat)
  | chain (img col row slot : Nat)
  deriving DecidableEq, Repr, Inhabited

/-- What a chain's atomic does where it is performed (R215): its operation, its data, whether it returns, and whether
it belongs to an instance, whose commit performs it. -/
structure FarAmo where
  amo : BitVec 3
  data : W32
  returning : Bool
  inRegion : Bool
  deriving DecidableEq, Repr, Inhabited

/-- A write of a tile to device memory of another die, or to the host, that has left its die and is not yet
performed, or complete (R335), or an engine's write to a nearer place that its command performs after such a one
(R294): its number, tile, group, maker, space, place and virtual address, the bytes that its command had written before
it, the locations and bytes that it writes, which its die sees already where it has left that, or, of a chain's atomic,
what it will do, the cycle in which it was sent and that in which it is performed, whether its command's scope is a
wider one, and whether a thread of its die has read it (R314). -/
structure FarWrite where
  id : Nat := 0
  tile : Nat
  gid : Nat
  maker : FarMaker
  space : Space
  place : Nat
  va : Word
  pos : Nat := 0
  cells : List (Nat × Byte)
  atomic : Option FarAmo := none
  since : Nat
  due : Nat
  wide : Bool := false
  read : Bool := false
  deriving DecidableEq, Repr, Inhabited

/-! ## The tile -/

/-- A leaf that a translation buffer holds (R325, R327): the space and partition it was walked for, the
first address and size of its page, and the entry. -/
structure Leaf where
  host : Bool
  part : Nat
  base : Nat
  size : Nat
  entry : Word
  deriving DecidableEq, Repr, Inhabited

/-- The swapped context of a tile (R345), with the registers that a swap moves. -/
structure Context where
  threads : Vector Thread 4 := Vector.replicate 4 {}
  agelim : BitVec 8 := 32#8
  tokens : Vector TokenSlot 64 := Vector.replicate 64 {}
  cmds : List Cmd := []
  tes : Sparse TE := ⟨[]⟩
  collector : List CtlToken := []
  lastServed : Nat := 199
  colReqs : Vector (List ColReq) 20 := Vector.replicate 20 []
  lastRow : Vector Nat 20 := Vector.replicate 20 9
  home : Home := {}
  pool : Pool := {}
  streams : Vector Stream 8 := Vector.replicate 8 {}
  ftz : Bool := false
  rej : BitVec 8 := 0#8
  rejCol : BitVec 8 := 0#8
  rejRow : BitVec 8 := 0#8
  rejSlot : BitVec 8 := 0#8
  deriving DecidableEq, Repr, Inhabited

/-- A division in the tile's one divider (R62): the thread that issued it and its group, its register, its
result, and whether it posts DZ. -/
structure Division where
  slot : Nat
  gid : Nat
  dst : BitVec 5
  value : Word
  dz : Bool
  due : Nat
  deriving DecidableEq, Repr, Inhabited

/-- A context window that the supervisor gives a tile's W and SP (R347). -/
structure CtxWindow where
  wbase : Nat := 0
  wlim : Nat := 8192
  spbase : Nat := 0
  splim : Nat := 0x200000
  deriving DecidableEq, Repr, Inhabited

/-- A tile (R2): its running context and the one in its shadow storage (R346), its W register files by
TE, its divider, its translation buffer, its context windows, the state of a stop, and its memory interface
(R253, R256): the requests presented, those in its queues toward the quad switch, the cycles for which its
link is still held, and the control tokens that have come from other tiles (R177); the poisoned words of its W
(R350). -/
structure Tile where
  ctx : Context := {}
  shadow : Context := {}
  w : Sparse W32 := ⟨[]⟩
  divider : Option Division := none
  lastIssue : Option (Nat × Nat) := none
  tlb : List Leaf := []
  windows : Vector CtxWindow 4 := Vector.replicate 4 {}
  window : Nat := 0
  stopped : Bool := false
  retired : Bool := false
  nextCmd : Nat := 0
  nextLeft : Nat := 0
  nextBegan : Nat := 0
  presented : List Packet := []
  nextPacket : Nat := 0
  interface : List Packet := []
  linkBusy : Nat := 0
  incoming : List CtlToken := []
  wPoison : List Nat := []
  deriving DecidableEq, Repr, Inhabited

/-! ## The switches -/

/-- An egress of a switch (R254, R269): its settings word, one that is written and takes effect in the cycle
after the one named, its pointer and credit for each channel, and the flits of a granted packet still to
pass. -/
structure Egress where
  settings : BitVec 64 := 0x11111120#64
  written : Option (Nat × BitVec 64) := none
  ptr : Vector Nat 6 := Vector.replicate 6 0
  credit : Vector Nat 6 := Vector.replicate 6 1
  busy : Nat := 0
  deriving DecidableEq, Repr, Inhabited

/-- A switch of level 1 to 4 (R253): six egresses, and for each of six ingress ports the queues of the
six channels and, seventh, the express replies. `waiting` holds the packets that its slice or its root's
port 5 sends, by ingress port, until they are due and their queue has room, `linkFree` the cycle from which the link of
each port carries the next of them, and `returns` the flits that have left its queues and that their senders do not count
as free yet: the port, the queue and the cycle from which they do. -/
structure Switch where
  egress : Vector Egress 6 := Vector.replicate 6 {}
  queues : Vector (Vector (List Packet) 7) 6 := Vector.replicate 6 (Vector.replicate 7 [])
  waiting : List (Nat × Packet) := []
  linkFree : Vector Nat 6 := Vector.replicate 6 0
  returns : List (Nat × Nat × Nat) := []
  deriving DecidableEq, Repr, Inhabited

/-! ## Groups, graphs and partitions -/

/-- A group's scratchpad window on one member tile (R261). -/
structure Window where
  tile : Nat
  base : Nat
  size : Nat
  masks : Vector (BitVec 10) 5 := Vector.replicate 5 0#10
  deriving DecidableEq, Repr, Inhabited

/-- A fabric rectangle of a group (R305, R272): the lowest tile of its mesh, the mesh's level, its
origin and its extent. -/
structure Rect where
  unitTile : Nat
  level : Nat
  col : Nat
  row : Nat
  width : Nat
  height : Nat
  deriving DecidableEq, Repr, Inhabited

/-- A placed group (R305 to R310). `away` says that its context stands in shadow storage, `terminated` that TERMINATE has
stopped it and its end waits for what it wrote (R296, R346); `arrivals`
lists the cycles in which arrivals reach its barrier slot, and `release` is the cycle in which a release
reaches its members (R421); `paramPosts` counts the posts of R338. -/
structure Group where
  gid : Nat
  part : Nat
  plot : Nat
  graph : Nat
  node : Nat
  index : Nat
  level : Nat
  unitTile : Nat
  members : List Nat
  memberMask : BitVec 16
  earliest : Nat := 0
  started : Bool := false
  ended : Bool := false
  away : Bool := false
  terminated : Bool := false
  tokmask : BitVec 64
  windows : List Window
  texts : List (Nat × Nat × Nat)
  rects : List Rect
  slots : List (Nat × Nat)
  entries : List (BitVec 2 × Nat)
  codeVa : Word := 0#64
  ftz : Bool := false
  barrier : Nat := 0
  arrivals : List Nat := []
  release : Option Nat := none
  phase : Bool := false
  paramPosts : Nat := 0
  deriving DecidableEq, Repr, Inhabited

/-- A node record of a graph as the sequencer holds it (R300 to R302), and how far the node has got. -/
structure Node where
  kind : Nat
  preds : List Nat
  soft : Nat
  cfg : BitVec 8
  groups : Nat
  code : Word
  fimg : Nat
  members : BitVec 16
  entry : List Nat
  tokmask : BitVec 64
  set : Word
  passes : Nat
  value : Word
  state : Nat := 0
  ready : Bool := false
  arrivals : Nat := 0
  placed : Nat := 0
  ended : Nat := 0
  faults : Nat := 0
  readyAt : Nat := 0
  deriving DecidableEq, Repr, Inhabited

/-- A graph that a sequencer runs (R297 to R303): the partition and launch window it came from, the
parameter windows of its record, its nodes, and the node that an abort names. -/
structure Graph where
  id : Nat
  part : Nat
  window : Word
  graphVa : Word
  seq : BitVec 32
  flags : BitVec 16
  vector : Nat
  pwbase : Vector Word 4
  pwlim : Vector (BitVec 32) 4
  nodes : List Node
  status : Nat := 1
  aborted : Option Nat := none
  deriving DecidableEq, Repr, Inhabited

/-- A launch that waits for room in its sequencer, or for the partition to be resumed (R300, R343). -/
structure Launch where
  part : Nat
  window : Word
  seq : BitVec 32
  deriving DecidableEq, Repr, Inhabited

/-- A graph sequencer (R299, R300, R306, R348). -/
structure Sequencer where
  graphs : List Graph := []
  waiting : List Launch := []
  ptr : Vector Nat 4 := Vector.replicate 4 0
  boundary : List Nat := []
  deriving DecidableEq, Repr, Inhabited

/-- An event ring in device memory: base, size, tail and the hardware's head and loss count (R352). -/
structure Ring where
  base : Nat := 0
  size : Nat := 0
  tail : Nat := 0
  head : Nat := 0
  lost : Nat := 0
  deriving DecidableEq, Repr, Inhabited

/-- A partition (R349): its owner identifier and blocks, launch window, table roots, handler setting,
re-entry limit, slice grants, event ring, and the state of a stop, with the blocks that its wave has reached (R343,
R348). -/
structure Partition where
  id : Nat
  owner : Nat
  blocks : List Nat
  window : Word := 0#64
  rootG : Nat := 0
  rootH : Nat := 0
  tvec : Word := 0#64
  reentrymax : BitVec 8 := 8#8
  grants : List (Nat × Nat × Nat × Nat) := []
  ring : Ring := {}
  stopping : Bool := false
  reached : List Nat := []
  stopped : Bool := false
  pendingReset : Bool := false
  deriving DecidableEq, Repr, Inhabited

/-- What a node-boundary pre-emption has saved of a sequencer for a partition (R348): its pointers and running
graphs, the GDONE arrival counts among their nodes. -/
structure SavedSeq where
  plot : Nat
  part : Nat
  ptr : Vector Nat 4
  graphs : List Graph
  deriving DecidableEq, Repr, Inhabited

/-- An invalidation under way (R328): the committed accesses, the loads, the entries of chain homes and the far writes
of engines and chains that use entries it has removed, each by its thread or home and its number. -/
structure Invalidation where
  stores : List (Nat × Nat × Nat)
  loads : List (Nat × Nat × Nat)
  entries : List (Nat × Nat × Nat)
  writes : List Nat
  deriving DecidableEq, Repr, Inhabited

/-- An entry of the MSI-X table (R332): the address and the data of its message. -/
structure MsixEntry where
  addr : Word := 0#64
  data : BitVec 32 := 0#32
  deriving DecidableEq, Repr, Inhabited

/-- A compute die (R49, R353, R418, R419): the cycle its CYCLE counts from, whether it is in reset, its
duty value, its power and temperature, and its lost UCIe modules (R318, R320). -/
structure Die where
  cycleBase : Nat := 0
  eventBase : Nat := 0
  duty : Nat := 16
  power : BitVec 16 := 0#16
  temp : BitVec 8 := 0#8
  lost : List Nat := []
  pendingReset : Bool := false
  deriving DecidableEq, Repr, Inhabited

/-- A lasting-fault window of a unit: the cycles of its last corrected events (R351). -/
structure Corrected where
  unit : CounterId
  cycles : List Nat
  deriving DecidableEq, Repr

/-- The package's own state: bring-up (R414 to R416), identity, power (R418, R419), the interleave
setting (R322), the event log (R352, R353), host and scale-up links with the replies sent over them, the lost
modules between the I/O dies (R318), the host's decoders and the MSI-X table (R332), grants, gated blocks (R308),
counters (R420), the second levels of translation and the walkers' pointers (R327), the invalidations under way
(R328), the cycles in which each bank serves an access, with its group (R262, R265), and what stands saved: the slice homes' contexts of
swapped-out groups (R345) and the sequencers' state (R348). -/
structure Package where
  bootState : BitVec 8 := 0#8
  bootError : BitVec 8 := 0#8
  il : Nat := 64
  raisedSvn : BitVec 32 := 0#32
  firmwareDigest : BitVec 384 := 0#384
  firmwareSvn : BitVec 32 := 0#32
  number : Nat := 0
  dies : Vector Die 8 := Vector.replicate 8 {}
  pkgPower : BitVec 16 := 0#16
  ring : Ring := {}
  downPorts : List Nat := []
  ioLost : List Nat := []
  remoteGrants : List (Nat × Nat × Nat) := []
  remoteReplies : List (Nat × Nat × List Byte) := []
  blockOwner : Sparse Nat := ⟨[]⟩
  gated : List Nat := []
  waking : List (Nat × Nat) := []
  idleSince : Sparse Nat := ⟨[]⟩
  retired : List CounterId := []
  corrected : List Corrected := []
  counters : List (CounterId × Nat) := []
  msix : List Nat := []
  hostReplies : List (Bool × List Byte) := []
  report : List Byte := []
  boots : Nat := 0
  certificate : List Byte := []
  hdm : Sparse (Nat × Nat) := ⟨[]⟩
  msixTable : Sparse MsixEntry := ⟨[]⟩
  supervisorValue : Word := 0#64
  quadTlb : Sparse (List Leaf) := ⟨[]⟩
  sieveTlb : Sparse (List Leaf) := ⟨[]⟩
  walkers : Sparse (List Leaf) := ⟨[]⟩
  invalidations : List Invalidation := []
  banks : Sparse (List (Nat × Nat)) := ⟨[]⟩
  far : List FarWrite := []
  homesAway : Sparse Home := ⟨[]⟩
  savedSeqs : List SavedSeq := []
  deriving DecidableEq, Repr, Inhabited

/-! ## The machine -/

/-- What moves next: the takeovers of FLOADs, the results that reach the threads of a tile, a word that holds its thread and is looked
at again, the issue scheduler of a tile, the priority encoder of one TE, the other units of a tile, the
package's own units, with which a cycle ends, or an event, such as one that the world outside brings. -/
inductive Action where
  | takeovers
  | results (tile : Nat)
  | poll (tile slot : Nat)
  | issue (tile : Nat)
  | te (tile col row : Nat)
  | units (tile : Nat)
  | package
  | event (i : Instr)
  deriving DecidableEq, Repr

/-- The agent that a step concerns: a thread slot and a TE of one tile. -/
structure Focus where
  tile : Nat := 0
  slot : Nat := 0
  col : Nat := 0
  row : Nat := 0
  teSlot : Nat := 0
  deriving DecidableEq, Repr, Inhabited

/-- The state of the package. `mem` holds every byte of device memory, of the slices, of the
scratchpads, of the text stores, of host memory and of remote packages, at the locations that
`Machine/Ops.lean` gives them; `poison` lists the first location of every poisoned granule (R350).
`now` counts 700 MHz cycles (R5). `agenda` says what moves next, `free` numbers the free values. -/
structure State where
  now : Nat
  agenda : List Action
  focus : Focus
  mem : Memory
  poison : List Nat
  tiles : Sparse Tile
  homes : Sparse Home
  images : List Image
  switches : Sparse Switch
  groups : List Group
  seqs : Sparse Sequencer
  parts : List Partition
  pkg : Package
  nextId : Nat
  free : Nat
  deriving DecidableEq, Repr

/-- Why a step faults. Each is safe: it is raised where a step names a unit that the part does not
have, so that nothing could happen. -/
inductive Fault where
  /-- A step that names a tile, thread slot, TE, stream, switch, egress or sequencer outside the
  package. Raised by the events; safe. -/
  | noSuchUnit
  deriving DecidableEq, Repr

/-- Why a step is refused. -/
inductive Refusal where
  /-- An instruction whose meaning this model does not hold. Raised by the dispatcher's arms only;
  safe. -/
  | notModelled (mnemonic : String)
  deriving DecidableEq, Repr

/-- The package right after a cold reset (R413): every unit at its reset value, no partition, nothing
running, every memory unlisted. -/
def State.reset : State where
  now := 0
  agenda := []
  focus := {}
  mem := Memory.empty
  poison := []
  tiles := Sparse.empty
  homes := Sparse.empty
  images := []
  switches := Sparse.empty
  groups := []
  seqs := Sparse.empty
  parts := []
  pkg := {}
  nextId := 1
  free := 0

end Sys2Proof.Machine
end

