-- ==== Sys2Proof/Machine/Access.lean ====
section
/-! DEFINITION. Accessors of the state: tiles, threads, registers, groups, windows and partitions; where
each array's bytes lie in the one memory; and the 32-byte event records (R352). -/

namespace Sys2Proof.Machine

/-! ## Vectors and bits -/

/-- The element of a vector at a number, `d` outside it. -/
def vget {α : Type} {n : Nat} (v : Vector α n) (i : Nat) (d : α) : α := (v[i]?).getD d

/-- The vector with one element set; a number outside it changes nothing. -/
def vset {α : Type} {n : Nat} (v : Vector α n) (i : Nat) (x : α) : Vector α n := v.setIfInBounds i x

/-- Bits hi down to lo of a word, as a number. -/
def bits (w : Word) (hi lo : Nat) : Nat := w.toNat / 2 ^ lo % 2 ^ (hi + 1 - lo)

/-- One bit of a word. -/
def bit (w : Word) (i : Nat) : Bool := w.getLsbD i

/-- A condition as the number 1 or 0. -/
def b2n (b : Bool) : Nat := if b then 1 else 0

/-- The integer that the low `n` bits of a number hold in two's complement. -/
def toInt (v n : Nat) : Int :=
  if v % 2 ^ n < 2 ^ (n - 1) then ((v % 2 ^ n : Nat) : Int) else ((v % 2 ^ n : Nat) : Int) - 2 ^ n

/-- `sx(v, n)`: the low `n` bits sign-extended to a word (R59). -/
def sx (v n : Nat) : Word := BitVec.ofInt 64 (toInt v n)

/-- The parity of a number's low bits. -/
def parity : Nat → Nat → Bool
  | 0, _ => false
  | n + 1, v => (v % 2 == 1) != parity n (v / 2)

/-! ## Tiles and their parts -/

/-- A tile by its number (R4). -/
def State.tile (s : State) (t : Nat) : Tile := s.tiles.get {} t

/-- The state with one tile replaced. -/
def State.setTile (s : State) (t : Nat) (x : Tile) : State := { s with tiles := s.tiles.set t x }

/-- The state with one tile changed. -/
def State.modTile (s : State) (t : Nat) (f : Tile → Tile) : State := s.setTile t (f (s.tile t))

/-- The running context of a tile. -/
def State.ctx (s : State) (t : Nat) : Context := (s.tile t).ctx

/-- The state with a tile's running context changed. -/
def State.modCtx (s : State) (t : Nat) (f : Context → Context) : State :=
  s.modTile t fun x => { x with ctx := f x.ctx }

/-- The thread in a slot of a tile (R237). -/
def State.thread (s : State) (t k : Nat) : Thread := vget (s.ctx t).threads k {}

/-- The state with the thread of a slot replaced. -/
def State.setThread (s : State) (t k : Nat) (th : Thread) : State :=
  s.modCtx t fun c => { c with threads := vset c.threads k th }

/-- The state with the thread of a slot changed. -/
def State.modThread (s : State) (t k : Nat) (f : Thread → Thread) : State :=
  s.setThread t k (f (s.thread t k))

/-- The thread in focus. -/
def State.cur (s : State) : Thread := s.thread s.focus.tile s.focus.slot

/-- The state with the thread in focus replaced. -/
def State.setCur (s : State) (th : Thread) : State := s.setThread s.focus.tile s.focus.slot th

/-- The state with the thread in focus changed. -/
def State.modCur (s : State) (f : Thread → Thread) : State := s.setCur (f s.cur)

/-- The key of a TE of a tile: column-major, as the collector orders TEs (R177). -/
def teKey (col row : Nat) : Nat := 10 * col + row

/-- A TE of a tile by its place in the tile's 20 × 10 fabric. -/
def State.te (s : State) (t col row : Nat) : TE := (s.ctx t).tes.get {} (teKey col row)

/-- The state with one TE replaced. -/
def State.setTe (s : State) (t col row : Nat) (e : TE) : State :=
  s.modCtx t fun c => { c with tes := c.tes.set (teKey col row) e }

/-- The state with one TE changed. -/
def State.modTe (s : State) (t col row : Nat) (f : TE → TE) : State :=
  s.setTe t col row (f (s.te t col row))

/-- A switch by its level and unit number (R253). -/
def State.switch (s : State) (level unit : Nat) : Switch := s.switches.get {} (4096 * level + unit)

/-- The state with one switch replaced. -/
def State.setSwitch (s : State) (level unit : Nat) (w : Switch) : State :=
  { s with switches := s.switches.set (4096 * level + unit) w }

/-- A plot's sequencer (R299). -/
def State.seqr (s : State) (plot : Nat) : Sequencer := s.seqs.get {} plot

/-- The state with one sequencer changed. -/
def State.modSeqr (s : State) (plot : Nat) (f : Sequencer → Sequencer) : State :=
  { s with seqs := s.seqs.set plot (f (s.seqr plot)) }

/-- The state with the package's own registers changed. -/
def State.modPkg (s : State) (f : Package → Package) : State := { s with pkg := f s.pkg }

/-- The home ordering buffer of a level and unit (R197): a tile's own for level 0. -/
def State.homeAt (s : State) (level unit : Nat) : Home :=
  if level = 0 then (s.ctx unit).home else s.homes.get {} (4096 * level + unit)

/-- The state with one home changed. -/
def State.modHome (s : State) (level unit : Nat) (f : Home → Home) : State :=
  if level = 0 then s.modCtx unit fun c => { c with home := f c.home }
  else { s with homes := s.homes.set (4096 * level + unit) (f (s.homeAt level unit)) }

/-- The next free-value number, and the state that has used it. -/
def State.draw (s : State) : Nat × State := (s.free, { s with free := s.free + 1 })

/-- A cause code that the manual leaves open, one of the codes 0x01 to 0x19 of R337, and the state that has drawn
it. -/
def State.drawCode (s : State) : Nat × State :=
  (1 + (Config.freeWord s.free).toNat % 25, { s with free := s.free + 1 })

/-- A fresh identifier, and the state that has used it. -/
def State.fresh (s : State) : Nat × State := (s.nextId, { s with nextId := s.nextId + 1 })

/-! ## Registers -/

/-- `s(r)`: s0 reads zero (R43). -/
def Thread.reg (th : Thread) (r : BitVec 5) : Word := if r = 0#5 then 0#64 else vget th.regs r.toNat 0#64

/-- The thread with `s(r)` written, the value unpoisoned; a write to s0 is discarded (R43, R350). -/
def Thread.setReg (th : Thread) (r : BitVec 5) (v : Word) : Thread :=
  if r = 0#5 then th
  else { th with regs := vset th.regs r.toNat v, poisonR := th.poisonR &&& ~~~(1#32 <<< r.toNat) }

/-- `p(k)`: p0 reads 1 (R43). -/
def Thread.pred (th : Thread) (p : BitVec 4) : Bool := p == 0#4 || th.preds.getLsbD p.toNat

/-- A 16-bit vector with one bit set to a value. -/
def putBit16 (v : BitVec 16) (i : Nat) (b : Bool) : BitVec 16 :=
  if b then v ||| (1#16 <<< i) else v &&& ~~~(1#16 <<< i)

/-- The thread with `p(k)` written; a write to p0 is discarded (R43). -/
def Thread.setPred (th : Thread) (p : BitVec 4) (b : Bool) : Thread :=
  if p = 0#4 then th
  else { th with preds := putBit16 th.preds p.toNat b, poisonP := th.poisonP &&& ~~~(1#16 <<< p.toNat) }

/-- PREDS: bit k is pk, and bit 0 reads 1 (R49). -/
def Thread.predsWord (th : Thread) : BitVec 16 := th.preds ||| 1#16

/-- The register or predicate of a pending result written (R52). -/
def Thread.land (th : Thread) (p : Pending) : Thread :=
  if p.reg < 32 then th.setReg (BitVec.ofNat 5 p.reg) p.value
  else th.setPred (BitVec.ofNat 4 (p.reg - 32)) (p.value.getLsbD 0)

/-- Pending results written in order. -/
def landAll : List Pending → Thread → Thread
  | [], th => th
  | p :: ps, th => landAll ps (th.land p)

/-- The thread at the start of cycle `now`: every fixed-latency result due before it is written (R52). -/
def Thread.settle (th : Thread) (now : Nat) : Thread :=
  let due := th.pend.filter fun p => decide (p.due < now)
  { landAll due th with pend := th.pend.filter fun p => decide (now ≤ p.due) }

/-! ## Groups, windows and partitions -/

/-- A group by its identifier. -/
def State.group? (s : State) (gid : Nat) : Option Group := s.groups.find? fun g => g.gid == gid

/-- The state with one group changed. -/
def State.modGroup (s : State) (gid : Nat) (f : Group → Group) : State :=
  { s with groups := s.groups.map fun g => if g.gid == gid then f g else g }

/-- A partition by its number. -/
def State.part? (s : State) (p : Nat) : Option Partition := s.parts.find? fun q => q.id == p

/-- The state with one partition changed. -/
def State.modPart (s : State) (p : Nat) (f : Partition → Partition) : State :=
  { s with parts := s.parts.map fun q => if q.id == p then f q else q }

/-- The partition of a group. -/
def State.partOf (s : State) (gid : Nat) : Option Partition :=
  (s.group? gid).bind fun g => s.part? g.part

/-- The partition whose blocks contain a tile (R349). -/
def State.partAt (s : State) (tile : Nat) : Option Partition :=
  s.parts.find? fun q => q.blocks.contains (tile / 16)

/-- A group's scratchpad window on a tile (R261). -/
def State.window? (s : State) (gid tile : Nat) : Option Window :=
  (s.group? gid).bind fun g => g.windows.find? fun w => w.tile == tile

/-- An image by its identifier. -/
def State.image? (s : State) (id : Nat) : Option Image := s.images.find? fun m => m.id == id

/-- An image by its identifier, while its group's context is not in shadow storage (R346). -/
def State.liveImage? (s : State) (id : Nat) : Option Image :=
  (s.image? id).filter fun m => !((s.group? m.gid).any fun g => g.away)

/-- The state with one image changed. -/
def State.modImage (s : State) (id : Nat) (f : Image → Image) : State :=
  { s with images := s.images.map fun m => if m.id == id then f m else m }

/-- A graph of a sequencer. -/
def Sequencer.graph? (q : Sequencer) (g : Nat) : Option Graph := q.graphs.find? fun x => x.id == g

/-- The state with one graph of a sequencer changed. -/
def State.modGraph (s : State) (plot g : Nat) (f : Graph → Graph) : State :=
  s.modSeqr plot fun q => { q with graphs := q.graphs.map fun x => if x.id == g then f x else x }

/-- A node of a graph. -/
def State.node? (s : State) (plot g n : Nat) : Option Node :=
  ((s.seqr plot).graph? g).bind fun x => x.nodes[n]?

/-- The state with one node of a graph changed. -/
def State.modNode (s : State) (plot g n : Nat) (f : Node → Node) : State :=
  s.modGraph plot g fun x => { x with nodes := modifyAt f n x.nodes }

/-! ## Places in memory -/

/-- Where the byte of a device physical address of this package lies (R322). -/
def locPa (pa : Nat) : Nat := pa % 2 ^ 41

/-- Where a byte of a slice lies (R2, R265). -/
def locSlice (level unit off : Nat) : Nat := 2 ^ 42 + level * 2 ^ 40 + unit * 2 ^ 25 + off

/-- Where a byte of a tile's scratchpad lies, by its physical offset (R261). -/
def locSp (tile phys : Nat) : Nat := 2 ^ 48 + tile * 2 ^ 21 + phys % 2 ^ 21

/-- Where a byte of a tile's text store lies (R305). -/
def locText (tile off : Nat) : Nat := 2 ^ 49 + tile * 2 ^ 16 + off % 2 ^ 16

/-- Where a byte of host memory lies, by its bus address (R334). -/
def locHost (bus : Nat) : Nat := 2 ^ 53 + bus % 2 ^ 52

/-- Where a byte of another package's device memory lies (R329). -/
def locRemote (pkg pa : Nat) : Nat := 2 ^ 60 + pkg * 2 ^ 41 + pa % 2 ^ 41

/-- The first location of the granule of a location: 32 bytes in device memory, 64 elsewhere (R350). -/
def granuleOf (loc : Nat) : Nat :=
  if loc < 2 ^ 41 || 2 ^ 60 ≤ loc then loc / 32 * 32 else loc / 64 * 64

/-- Whether a location lies in a poisoned granule (R350). -/
def State.poisonedAt (s : State) (loc : Nat) : Bool := s.poison.contains (granuleOf loc)

/-- The bytes of a slice by level: 2, 4, 8 and 16 MiB (R92). -/
def sliceSize (level : Nat) : Nat := 2 ^ (20 + level)

/-- The number of the unit of a level that contains a tile (R4). -/
def unitOf (level tile : Nat) : Nat := tile / 4 ^ level

/-- The tiles of an aligned unit: 4^level at levels 0 to 4, 1,024 in a half and 2,048 in the package. -/
def unitTiles (level : Nat) : Nat :=
  if level ≤ 4 then 4 ^ level else if level = 5 then 1024 else 2048

/-- The hash bit j of a window offset (R261). -/
def hashBit (o : Nat) (mask : BitVec 10) (j : Nat) : Bool :=
  (o / 2 ^ (6 + j) % 2 == 1) != parity 10 (o / 2048 % 1024 &&& mask.toNat)

/-- The bank of a window offset under the window's hash masks (R261). -/
def Window.bank (w : Window) (o : Nat) : Nat :=
  b2n (hashBit o (vget w.masks 0 0) 0) + 2 * b2n (hashBit o (vget w.masks 1 0) 1) +
    4 * b2n (hashBit o (vget w.masks 2 0) 2) + 8 * b2n (hashBit o (vget w.masks 3 0) 3) +
    16 * b2n (hashBit o (vget w.masks 4 0) 4)

/-- The physical scratchpad offset of a window offset (R261). -/
def Window.phys (w : Window) (o : Nat) : Nat :=
  w.base + 2048 * (o / 2048 % 1024) + 64 * w.bank o + o % 64

/-! ## Event records -/

/-- An event record before it is stamped (R352). -/
structure Event where
  cause : Nat
  lasting : Bool := false
  src : Nat
  unit : Nat
  owner : Option Nat
  sub : Nat := 0
  col : Nat := 0
  row : Nat := 0
  addr : Nat := 0
  aux : Nat := 0
  die : Nat := 0
  deriving DecidableEq, Repr

/-- The 32 bytes of a record stamped with a sequence number (R352). -/
def Event.bytes (e : Event) (seq : Nat) : List Byte :=
  leBytes 8 seq ++ leBytes 1 (e.cause % 64 + 64 * b2n e.lasting) ++ leBytes 1 e.src ++ leBytes 2 e.unit ++
    leBytes 1 (match e.owner with | some o => o % 128 | none => 128) ++ leBytes 1 e.sub ++
    leBytes 1 e.col ++ leBytes 1 e.row ++ leBytes 8 e.addr ++ leBytes 8 e.aux

/-- A ring after a record has been offered to it: written at the head, or lost where the ring is full
(R352). Heads and tails count bytes; a ring of size 0 takes nothing. A record whose place is poisoned is lost too
(R323; DESIGN CHOICE, log entry 72). -/
def putRing (poison : List Nat) (m : Memory) (r : Ring) (bs : List Byte) : Memory × Ring :=
  if r.size = 0 then (m, r)
  else if r.tail + r.size ≤ r.head || poison.contains (granuleOf (locPa (r.base + r.head % r.size))) then
    (m, { r with lost := r.lost + 1 })
  else (m.writeBytes (locPa (r.base + r.head % r.size)) bs, { r with head := r.head + 32 })

/-- The state with an event record stamped by a die root and written to the package ring and to the ring
of the owner's partition (R352, R353). A root stamps at most one record in a cycle. -/
def State.log (s : State) (e : Event) : State :=
  let d := vget s.pkg.dies (e.die % 8) {}
  let count := Nat.max s.now d.eventBase
  let bs := e.bytes (8 * count + e.die % 8)
  let (m1, r1) := putRing s.poison s.mem s.pkg.ring bs
  let s1 := { s with mem := m1 }.modPkg fun p =>
    { p with ring := r1, dies := vset p.dies (e.die % 8) { d with eventBase := count + 1 } }
  match e.owner.bind fun o => s1.parts.find? fun q => q.owner == o with
  | none => s1
  | some q =>
    let (m2, r2) := putRing s.poison s1.mem q.ring bs
    { s1 with mem := m2 }.modPart q.id fun x => { x with ring := r2 }

/-- The owner identifier of a group, for its records. -/
def State.ownerOf (s : State) (gid : Nat) : Option Nat := (s.partOf gid).map (·.owner)

/-- The die of a tile (R4). -/
def dieOf (tile : Nat) : Nat := tile / 256

/-- CYCLE in a tile: the cycles since its die was reset (R49). -/
def State.cycle (s : State) (tile : Nat) : Nat := s.now - (vget s.pkg.dies (dieOf tile) {}).cycleBase

/-- Whether the duty value of a die holds it back in this cycle: a pool admits no pass, and no copy engine or sieve
moves bytes (R418). -/
def State.throttled (s : State) (die : Nat) : Bool :=
  decide ((vget s.pkg.dies die {}).duty ≤ s.cycle (256 * die) % 16)

/-- The FTZ bit of a tile: what its group's node gave it, and 0 while an armed section runs on its pool (R129). -/
def State.tileFtz (s : State) (tile : Nat) : Bool :=
  let p := (s.ctx tile).pool
  (s.ctx tile).ftz && (s.ctx (p.memberOf.getD tile)).pool.armed.isNone

/-- What a counter of R420 holds. -/
def State.counter (s : State) (c : CounterId) : Nat :=
  ((s.pkg.counters.find? fun x => x.1 == c).map (·.2)).getD 0

/-- The most that a counter holds: 32 bits for those of the banks, unit 8, and 48 for every other (R263, R420). -/
def counterMost (c : CounterId) : Nat := if c.unit = 8 then 2 ^ 32 - 1 else 2 ^ 48 - 1

/-- A counter of R420 increased, saturating. -/
def State.countBy (s : State) (unit index counter n : Nat) : State :=
  let c : CounterId := ⟨unit, index, counter⟩
  s.modPkg fun p =>
    { p with counters := (c, Nat.min (s.counter c + n) (counterMost c)) :: p.counters.filter fun x => x.1 != c }

/-- A counter of R420 increased by one. The units are numbered 0 thread slot (4 × tile + slot), 1 TE
fabric, 2 pool, 3 stream, 4 copy and 5 sieve (tile), 6 ordering buffer (4,096 × level + unit), 7 switch
egress (6 × the switch's number + egress), 8 bank (R263: 64 × tile + bank, 64 × tile + 32 for the cycles of a
full replay queue, and 2^20 × level + 256 × unit + bank for a slice's), 9 package, and from 11 as the units of
R351; a unit's counters stand in the order of R420's row. -/
def State.count (s : State) (unit index counter : Nat) : State := s.countBy unit index counter 1

end Sys2Proof.Machine
end

