-- ==== Sys2Proof/Machine/Flags.lean ====
section
/-! DEFINITION. The number formats (R113 to R117), the one rounding of the device with the flags it raises
(R120 to R123, R133), the arithmetic on exact values (R126 to R129), and the functions of the column units
(R161). -/

namespace Sys2Proof.Machine

/-! ## Flags (R11) -/

def flagNone : BitVec 8 := 0x00#8
def flagNV : BitVec 8 := 0x01#8
def flagDZ : BitVec 8 := 0x02#8
def flagOF : BitVec 8 := 0x04#8
def flagUF : BitVec 8 := 0x08#8
def flagNX : BitVec 8 := 0x10#8
def flagTC : BitVec 8 := 0x20#8
def flagPB : BitVec 8 := 0x40#8
def flagPN : BitVec 8 := 0x80#8

/-- A flag where a condition holds. -/
def flagIf (b : Bool) (f : BitVec 8) : BitVec 8 := if b then f else flagNone

/-! ## Formats -/

/-- A format of R113 and R116. -/
inductive Fmt where
  | fp32 | fp16 | bf16 | e4m3 | e5m2 | e2m1 | int8 | int32
  deriving DecidableEq, Repr, Inhabited

/-- The format of a tag (R117). -/
def Fmt.ofTag (t : BitVec 3) : Fmt :=
  match t.toNat with
  | 0 => .fp32
  | 1 => .fp16
  | 2 => .bf16
  | 3 => .e4m3
  | 4 => .e5m2
  | 5 => .e2m1
  | 6 => .int8
  | _ => .int32

/-- The bits of a value. -/
def Fmt.bits (f : Fmt) : Nat :=
  match f with
  | .fp32 | .int32 => 32
  | .fp16 | .bf16 => 16
  | .e4m3 | .e5m2 | .int8 => 8
  | .e2m1 => 4

/-- Whether a format is an integer format. -/
def Fmt.isInt (f : Fmt) : Bool := f == .int8 || f == .int32

/-- The fraction bits m(F). -/
def Fmt.frac (f : Fmt) : Nat :=
  match f with
  | .fp32 => 23
  | .fp16 => 10
  | .bf16 => 7
  | .e4m3 => 3
  | .e5m2 => 2
  | .e2m1 => 1
  | _ => 0

/-- The exponent bias. -/
def Fmt.bias (f : Fmt) : Int :=
  match f with
  | .fp32 | .bf16 => 127
  | .fp16 | .e5m2 => 15
  | .e4m3 => 7
  | _ => 1

/-- emin(F), the exponent of the smallest normal. -/
def Fmt.emin (f : Fmt) : Int := 1 - f.bias

/-- The largest value that the exponent field takes. -/
def Fmt.eones (f : Fmt) : Nat := 2 ^ (f.bits - 1 - f.frac) - 1

/-- Whether a format has infinities. -/
def Fmt.hasInf (f : Fmt) : Bool := f != .e4m3 && f != .e2m1 && !f.isInt

/-- The pattern of the largest finite magnitude, or of the largest integer (R114). -/
def Fmt.maxBits (f : Fmt) : Nat :=
  match f with
  | .fp32 => 0x7F7FFFFF
  | .fp16 => 0x7BFF
  | .bf16 => 0x7F7F
  | .e4m3 => 0x7E
  | .e5m2 => 0x7B
  | .e2m1 => 0x7
  | .int8 => 0x7F
  | .int32 => 0x7FFFFFFF

/-- The canonical NaN, 0 for a format without one (R114, R121). -/
def Fmt.nanBits (f : Fmt) : Nat :=
  match f with
  | .fp32 => 0x7FC00000
  | .fp16 => 0x7E00
  | .bf16 => 0x7FC0
  | .e4m3 => 0x7F
  | .e5m2 => 0x7E
  | _ => 0

/-- The pattern of +∞ (R114). -/
def Fmt.infBits (f : Fmt) : Nat := f.eones * 2 ^ f.frac

/-- The pattern of 1.0 (R114). -/
def Fmt.oneBits (f : Fmt) : Nat := f.bias.toNat * 2 ^ f.frac

/-- A pattern with the sign bit of its format set where `neg`. -/
def Fmt.withSign (f : Fmt) (neg : Bool) (v : Nat) : Nat := if neg then v + 2 ^ (f.bits - 1) else v

/-! ## Exact values -/

/-- An exact value: (−1)^neg × mant × 2^exp with `mant = 0` a signed zero, an infinity, or a NaN. -/
inductive Num where
  | fin (neg : Bool) (mant : Nat) (exp : Int)
  | inf (neg : Bool)
  | nan (signalling : Bool)
  deriving DecidableEq, Repr, Inhabited

/-- The exact value of an integer. -/
def Num.ofInt (v : Int) : Num := .fin (v < 0) v.natAbs 0

/-- The exact value of a pattern; under `ftz` a subnormal reads as a zero of its sign (R113, R119,
R129). -/
def Fmt.value (f : Fmt) (ftz : Bool) (v : Nat) : Num :=
  if f.isInt then Num.ofInt (toInt v f.bits)
  else
    let neg := v / 2 ^ (f.bits - 1) % 2 == 1
    let e := v / 2 ^ f.frac % (f.eones + 1)
    let m := v % 2 ^ f.frac
    let special := e == f.eones && (f.hasInf || (f == .e4m3 && m == 7))
    if special then
      if f.hasInf && m == 0 then .inf neg
      else .nan (f.hasInf && m / 2 ^ (f.frac - 1) % 2 == 0)
    else if e = 0 then
      if ftz then .fin neg 0 0 else .fin neg m (f.emin - f.frac)
    else .fin neg (2 ^ f.frac + m) ((e : Int) - f.bias - f.frac)

/-- Whether a value is a NaN. -/
def Num.isNan (n : Num) : Bool := match n with | .nan _ => true | _ => false

/-- Whether a value is a signalling NaN. -/
def Num.isSnan (n : Num) : Bool := match n with | .nan s => s | _ => false

/-- The value with its sign inverted. -/
def Num.neg (n : Num) : Num :=
  match n with
  | .fin s m e => .fin (!s) m e
  | .inf s => .inf (!s)
  | .nan s => .nan s

/-- floor(log2 |v|) of a finite value other than zero. -/
def floorLog2 (mant : Nat) (exp : Int) : Int := (Nat.log2 mant : Int) + exp

/-! ## Rounding -/

/-- A rounding mode (R120). -/
inductive Rm where
  | rne | rtz | rdn | rup
  deriving DecidableEq, Repr, Inhabited

/-- The mode of a two-bit code (R120). -/
def Rm.ofCode (c : Nat) : Rm :=
  match c % 4 with
  | 0 => .rne
  | 1 => .rtz
  | 2 => .rdn
  | _ => .rup

/-- The magnitude mant × 2^sh rounded to an integer under a mode, and whether it was inexact. -/
def roundMag (rm : Rm) (neg : Bool) (mant : Nat) (sh : Int) : Nat × Bool :=
  if 0 ≤ sh then (mant * 2 ^ sh.toNat, false)
  else
    let d := 2 ^ (-sh).toNat
    let k := mant / d
    let r := mant % d
    let up : Bool :=
      match rm with
      | .rne => decide (d < 2 * r) || (2 * r == d && k % 2 == 1)
      | .rtz => false
      | .rdn => neg && r != 0
      | .rup => !neg && r != 0
    (if up then k + 1 else k, r != 0)

/-- The pattern of the magnitude r × 2^(e − m(F)) of a floating format, for r up to 2^(m(F) + 1). -/
def Fmt.pack (f : Fmt) (r : Nat) (e : Int) : Nat :=
  let (r', e') := if 2 ^ (f.frac + 1) ≤ r then (r / 2, e + 1) else (r, e)
  if r' < 2 ^ f.frac then r' else (e' + f.bias).toNat * 2 ^ f.frac + (r' - 2 ^ f.frac)

/-- `round_to(v, F, rm, sat, ftz)`: the pattern and the flags (R121). -/
def roundTo (v : Num) (f : Fmt) (rm : Rm) (sat ftz : Bool) : Nat × BitVec 8 :=
  match v with
  | .nan s => (f.nanBits, flagIf (s || f == .e2m1 || f.isInt) flagNV)
  | .inf neg =>
    if f.hasInf then (f.withSign neg f.infBits, flagNone)
    else if f.isInt then (if neg then 2 ^ (f.bits - 1) else f.maxBits, flagNV)
    else if f == .e4m3 && !sat then (f.nanBits, flagNV)
    else (f.withSign neg f.maxBits, flagNV)
  | .fin neg mant exp =>
    if f.isInt then
      let (r, inexact) := roundMag rm neg mant exp
      let limit := if neg then 2 ^ (f.bits - 1) else f.maxBits
      if limit < r then (if neg then 2 ^ (f.bits - 1) else f.maxBits, flagNV)
      else ((if neg then 2 ^ f.bits - r else r) % 2 ^ f.bits, flagIf inexact flagNX)
    else if mant = 0 then (f.withSign neg 0, flagNone)
    else
      let l := floorLog2 mant exp
      let tiny := decide (l < f.emin)
      if tiny && ftz then (f.withSign neg 0, flagUF ||| flagNX)
      else
        let e := max l f.emin
        let (r, inexact) := roundMag rm neg mant (exp - (e - f.frac))
        let p := f.pack r e
        let fl := flagIf inexact (flagNX ||| flagIf tiny flagUF)
        if f.maxBits < p then
          let fl' := fl ||| flagOF ||| flagNX
          let away := rm == .rne || (rm == .rup && !neg) || (rm == .rdn && neg)
          if sat || !away then (f.withSign neg f.maxBits, fl')
          else if f.hasInf then (f.withSign neg f.infBits, fl')
          else if f == .e4m3 then (f.nanBits, fl')
          else (f.withSign neg f.maxBits, fl')
        else (f.withSign neg p, fl)

/-! ## Arithmetic on exact values (R126, R127, R133) -/

/-- NV for a signalling operand. -/
def snanFlag (xs : List Num) : BitVec 8 := flagIf (xs.any Num.isSnan) flagNV

/-- The signed integer of a finite value at exponent `e`, no larger than its own. -/
def atExp (neg : Bool) (mant : Nat) (exp e : Int) : Int :=
  let m : Int := (mant * 2 ^ (exp - e).toNat : Nat)
  if neg then -m else m

/-- The exact sum of two finite values, with the sign of a zero sum by R127. -/
def addFin (rm : Rm) (s1 : Bool) (m1 : Nat) (e1 : Int) (s2 : Bool) (m2 : Nat) (e2 : Int) : Num :=
  let e := min e1 e2
  let v := atExp s1 m1 e1 e + atExp s2 m2 e2 e
  if v = 0 then
    if m1 = 0 && m2 = 0 && s1 == s2 then .fin s1 0 0 else .fin (rm == .rdn) 0 0
  else .fin (v < 0) v.natAbs e

/-- The exact sum, and the flags of its operands. -/
def Num.add (rm : Rm) (x y : Num) : Num × BitVec 8 :=
  match x, y with
  | .nan _, _ | _, .nan _ => (.nan false, snanFlag [x, y])
  | .inf s, .inf t => if s == t then (.inf s, flagNone) else (.nan false, flagNV)
  | .inf s, .fin .. => (.inf s, flagNone)
  | .fin .., .inf t => (.inf t, flagNone)
  | .fin s1 m1 e1, .fin s2 m2 e2 => (addFin rm s1 m1 e1 s2 m2 e2, flagNone)

/-- The exact product, and the flags of its operands. -/
def Num.mul (x y : Num) : Num × BitVec 8 :=
  match x, y with
  | .nan _, _ | _, .nan _ => (.nan false, snanFlag [x, y])
  | .inf s, .inf t => (.inf (s != t), flagNone)
  | .inf s, .fin t m _ => if m = 0 then (.nan false, flagNV) else (.inf (s != t), flagNone)
  | .fin s m _, .inf t => if m = 0 then (.nan false, flagNV) else (.inf (s != t), flagNone)
  | .fin s1 m1 e1, .fin s2 m2 e2 => (.fin (s1 != s2) (m1 * m2) (e1 + e2), flagNone)

/-- The exact x × y + z, rounded nowhere (R126). -/
def Num.fma (rm : Rm) (x y z : Num) : Num × BitVec 8 :=
  let (p, f1) := x.mul y
  let (r, f2) := p.add rm z
  (r, f1 ||| f2 ||| snanFlag [x, y, z])

/-- How two values that are not NaNs compare; −0 and +0 are equal. -/
def Num.cmp (x y : Num) : Ordering :=
  match x, y with
  | .inf s, .inf t => if s == t then .eq else if s then .lt else .gt
  | .inf s, _ => if s then .lt else .gt
  | _, .inf t => if t then .gt else .lt
  | .fin s1 m1 e1, .fin s2 m2 e2 =>
    let e := min e1 e2
    compare (atExp s1 m1 e1 e) (atExp s2 m2 e2 e)
  | _, _ => .eq

/-- Whether a value has its sign set. -/
def Num.isNeg (n : Num) : Bool :=
  match n with
  | .fin s _ _ => s
  | .inf s => s
  | .nan _ => false

/-- Whether a value is a zero. -/
def Num.isZero (n : Num) : Bool := match n with | .fin _ m _ => m == 0 | _ => false

/-- The minimum (or, with `larger`, the maximum) of two patterns as FMIN and FMAX give it (R128). -/
def Fmt.minmax (f : Fmt) (larger ftz : Bool) (a b : Nat) : Nat × BitVec 8 :=
  let x := f.value ftz a
  let y := f.value ftz b
  if x.isNan || y.isNan then (f.nanBits, snanFlag [x, y])
  else
    let o := if x.isZero && y.isZero then (if x.isNeg == y.isNeg then .eq else if x.isNeg then .lt else .gt)
      else x.cmp y
    let first := match o with | .lt => !larger | .gt => larger | .eq => true
    let v := if first then a else b
    let n := if first then x else y
    (if n.isZero then f.withSign n.isNeg 0 else v, flagNone)

/-! ## Lanes (R117, R118) -/

/-- Lane i of a packed word. -/
def lane (f : Fmt) (w : W32) (i : Nat) : Nat := w.toNat / 2 ^ (f.bits * i) % 2 ^ f.bits

/-- The lanes of a format in a word. -/
def Fmt.lanes (f : Fmt) : Nat := 32 / f.bits

/-- The word of the lanes that a function gives, with the flags of all of them. -/
def buildLanes (f : Fmt) (g : Nat → Nat × BitVec 8) : Nat → W32 × BitVec 8
  | 0 => (0#32, flagNone)
  | n + 1 =>
    let (w, fl) := buildLanes f g n
    let (v, fl1) := g n
    (w ||| BitVec.ofNat 32 (v % 2 ^ f.bits * 2 ^ (f.bits * n)), fl ||| fl1)

/-! ## Column units (R161) -/

/-- A square root, bit by bit from bit `n − 1`: the largest r with r² ≤ v below 2^n. -/
def sqrtBits (v : Nat) : Nat → Nat → Nat
  | 0, r => r
  | n + 1, r => let t := r + 2 ^ n; sqrtBits v n (if t * t ≤ v then t else r)

/-- The working precision of the series below, in fraction bits. -/
def prec : Nat := 512

/-- A product of two fixed-point numbers of `prec` fraction bits. -/
def fixMul (a b : Int) : Int := a * b / 2 ^ prec

/-- Σ x^k / k! from the term `t` of number `k`, with `n` terms left: the exponential series. -/
def expSeries (x : Int) : Nat → Nat → Int → Int → Int
  | 0, _, _, acc => acc
  | n + 1, k, t, acc =>
    let t' := fixMul t x / (k : Int)
    expSeries x n (k + 1) t' (acc + t')

/-- e^x in fixed point, for |x| at most 1. -/
def expFix (x : Int) : Int := expSeries x 120 1 (2 ^ prec) (2 ^ prec)

/-- The alternating or plain series of odd powers z^(2k+1) / (2k+1). -/
def oddSeries (alt : Bool) (z2 : Int) : Nat → Nat → Int → Int → Int
  | 0, _, _, acc => acc
  | n + 1, k, p, acc =>
    let q := fixMul p z2
    let p' := if alt then -q else q
    oddSeries alt z2 n (k + 2) p' (acc + p' / ((k : Int) + 2))

/-- atan z (`alt`) or atanh z in fixed point, for |z| at most 1/3. -/
def oddFix (alt : Bool) (z : Int) : Int := oddSeries alt (fixMul z z) 180 1 z z

/-- 1/n in fixed point. -/
def recipFix (n : Int) : Int := 2 ^ prec / n

/-- ln 2 = 2 atanh (1/3). -/
def ln2Fix : Int := 2 * oddFix false (recipFix 3)

/-- π = 16 atan (1/5) − 4 atan (1/239). -/
def piFix : Int := 16 * oddFix true (recipFix 5) - 4 * oddFix true (recipFix 239)

/-- sin x and cos x in fixed point, for |x| at most π/4: the terms of even number go to the cosine. -/
def trigSeries (x : Int) : Nat → Nat → Int → Int → Int → Int × Int
  | 0, _, _, sn, cs => (sn, cs)
  | n + 1, k, t, sn, cs =>
    let t' := fixMul t x / (k : Int)
    let v := if (k / 2) % 2 = 1 then -t' else t'
    if k % 2 = 1 then trigSeries x n (k + 1) t' (sn + v) cs else trigSeries x n (k + 1) t' sn (cs + v)

/-- sin and cos of any fixed-point x, by the multiple of π/2 nearest to it. -/
def trigFix (x : Int) : Int × Int :=
  let half := piFix / 2
  let k := (2 * x + half) / (2 * half)
  let (sn, cs) := trigSeries (x - k * half) 140 1 (2 ^ prec) 0 (2 ^ prec)
  match (k % 4).toNat with
  | 0 => (sn, cs)
  | 1 => (cs, -sn)
  | 2 => (-sn, -cs)
  | _ => (-cs, sn)

/-- A finite value in fixed point. -/
def toFix (neg : Bool) (mant : Nat) (exp : Int) : Int :=
  let m : Int := if 0 ≤ exp + prec then (mant * 2 ^ (exp + prec).toNat : Nat) else (mant / 2 ^ (-(exp + prec)).toNat : Nat)
  if neg then -m else m

/-- A fixed-point value that an irrational number lies beside, with a bit below it that keeps it from
being exact or a tie. -/
def inexactFix (v : Int) : Num := .fin (v < 0) (2 * v.natAbs + 1) (-(prec : Int) - 1)

/-- Doubling of the exponential: v squared `n` times. -/
def squareFix : Nat → Int → Int
  | 0, v => v
  | n + 1, v => squareFix n (fixMul v v)

/-- tanh x in fixed point, for |x| below 16. -/
def tanhFix (x : Int) : Int :=
  let e := squareFix 5 (expFix (2 * x / 32))
  (e - 2 ^ prec) * 2 ^ prec / (e + 2 ^ prec)

/-- log2 of mant × 2^exp in fixed point. -/
def log2Fix (mant : Nat) (exp : Int) : Int :=
  let l := Nat.log2 mant
  let m : Int := (mant * 2 ^ prec / 2 ^ l : Nat)
  let z := (m - 2 ^ prec) * 2 ^ prec / (m + 2 ^ prec)
  (exp + l) * 2 ^ prec + 2 * oddFix false z * 2 ^ prec / ln2Fix

/-- A quotient or root whose exactness is known. -/
def withSticky (neg exact : Bool) (m : Nat) (exp : Int) : Num :=
  if exact then .fin neg m exp else .fin neg (2 * m + 1) (exp - 1)

/-- 1/a of a finite value other than zero. -/
def recipNum (neg : Bool) (mant : Nat) (exp : Int) : Num :=
  let q := 2 ^ 96 / mant
  withSticky neg (q * mant == 2 ^ 96) q (-96 - exp)

/-- The mantissa and exponent of a value with the exponent made even. -/
def evenExp (mant : Nat) (exp : Int) : Nat × Int := if exp % 2 = 0 then (mant, exp) else (2 * mant, exp - 1)

/-- √a of a finite value above zero. -/
def sqrtNum (mant : Nat) (exp : Int) : Num :=
  let (m, e) := evenExp mant exp
  let r := sqrtBits (m * 2 ^ 128) 100 0
  withSticky false (r * r == m * 2 ^ 128) r (e / 2 - 64)

/-- 1/√a of a finite value above zero. -/
def rsqrtNum (mant : Nat) (exp : Int) : Num :=
  let (m, e) := evenExp mant exp
  let r := sqrtBits (2 ^ 192 / m) 100 0
  withSticky false (r * r * m == 2 ^ 192) r (-96 - e / 2)

/-- Whether |mant × 2^exp| is at most an integer. -/
def atMost (mant : Nat) (exp : Int) (n : Nat) : Bool := (Num.fin false mant exp).cmp (.fin false n 0) != .gt

/-- The exact value, or one that rounds as it does, of a column unit's function, with NV and DZ (R161).
`func` is the low three bits of the opcode. -/
def columnValue (func : BitVec 3) (x : Num) : Num × BitVec 8 :=
  let bad : Num × BitVec 8 := (.nan false, flagNV)
  match x with
  | .nan s => (.nan false, flagIf s flagNV)
  | .inf neg =>
    match func.toNat with
    | 1 => if neg then bad else (.inf false, flagNone)
    | 2 => (.fin neg 0 0, flagNone)
    | 3 => if neg then bad else (.fin false 0 0, flagNone)
    | 4 => if neg then bad else (.inf false, flagNone)
    | 7 => (.fin neg 1 0, flagNone)
    | _ => bad
  | .fin neg m e =>
    if m = 0 then
      match func.toNat with
      | 0 | 6 => (.fin false 1 0, flagNone)
      | 1 => (.inf true, flagDZ)
      | 2 | 3 => (.inf neg, flagDZ)
      | _ => (.fin neg 0 0, flagNone)
    else
      match func.toNat with
      | 0 =>
        if !atMost m e 1 then bad
        else if x.cmp (.fin neg 1 0) == .eq then (.fin false 1 (if neg then -1 else 1), flagNone)
        else (inexactFix (expFix (fixMul (toFix neg m e) ln2Fix)), flagNone)
      | 1 =>
        if neg then bad
        else if m == 2 ^ Nat.log2 m then (Num.ofInt (floorLog2 m e), flagNone)
        else (inexactFix (log2Fix m e), flagNone)
      | 2 => (recipNum neg m e, flagNone)
      | 3 => if neg then bad else (rsqrtNum m e, flagNone)
      | 4 => if neg then bad else (sqrtNum m e, flagNone)
      | 5 => if atMost m e 32768 then (inexactFix (trigFix (toFix neg m e)).1, flagNone) else bad
      | 6 => if atMost m e 32768 then (inexactFix (trigFix (toFix neg m e)).2, flagNone) else bad
      | _ =>
        if atMost m e 15 then (inexactFix (tanhFix (toFix neg m e)), flagNone)
        else (.fin neg (2 ^ 64 - 1) (-64), flagNone)

/-- The reply of a column unit and its flags: one rounding of the function of the operand (R129, R161). -/
def columnReply (func : BitVec 3) (ftz : Bool) (a : W32) : W32 × BitVec 8 :=
  let (v, f1) := columnValue func (Fmt.fp32.value ftz a.toNat)
  let (r, f2) := roundTo v .fp32 .rne false ftz
  (BitVec.ofNat 32 r, f1 ||| f2)

/-! ## Integer conditions -/

/-- Whether a condition code of R67 and R156 holds for two values of `n` bits; BITSET and BITCLR test
against `mask`. -/
def condition (cond : Nat) (n : Nat) (a b mask : Nat) : Bool :=
  match cond with
  | 0 => a == b
  | 1 => a != b
  | 2 => decide (toInt a n < toInt b n)
  | 3 => decide (toInt b n ≤ toInt a n)
  | 4 => decide (a < b)
  | 5 => decide (b ≤ a)
  | 6 => (a &&& mask) != 0
  | _ => (a &&& mask) == 0

/-- A predicate operation of R68 and R164 by its code. -/
def predOp (op : Nat) (a b : Bool) : Bool :=
  match op with
  | 0 => a && b
  | 1 => a || b
  | 2 => a != b
  | 3 => a && !b
  | 4 => a || !b
  | 5 => !(a && b)
  | _ => !(a || b)

end Sys2Proof.Machine
end

