-- ==== Sys2Proof/Machine/Translate.lean ====
section
/-! DEFINITION. The page tables and buffers of the G and H spaces (R322 to R328), and the checks that
every access to a space passes (R90, R92). -/

namespace Sys2Proof.Machine

/-- Why an access is refused: the cause of R337 and the reason of R341. -/
structure AccessErr where
  code : BitVec 6
  reason : BitVec 8
  deriving DecidableEq, Repr

def errAlign : AccessErr := ⟨0x02#6, 0#8⟩
def errTranslation (r : Nat) : AccessErr := ⟨0x03#6, BitVec.ofNat 8 r⟩
def errAccess (r : Nat) : AccessErr := ⟨0x04#6, BitVec.ofNat 8 r⟩
def errPoison : AccessErr := ⟨0x05#6, 0#8⟩
def errLink (r : Nat) : AccessErr := ⟨0x13#6, BitVec.ofNat 8 r⟩

/-- Whether an access reads, writes, or does both (R326), and whether its sender is told that another
package refuses it, or, a committed store or non-returning atomic, has it dropped there (R329). -/
structure Need where
  rd : Bool
  wr : Bool
  told : Bool
  deriving DecidableEq, Repr

def needLoad : Need := ⟨true, false, true⟩
def needStore : Need := ⟨false, true, false⟩
def needAmo : Need := ⟨true, true, false⟩

/-- The need of an access that learns of its refusal. -/
def Need.learns (n : Need) : Need := { n with told := true }

/-- The virtual page number at a level of the walk (R326). -/
def walkIndex (va : Word) (l : Nat) : Nat :=
  match l with
  | 0 => bits va 47 39
  | 1 => bits va 38 30
  | 2 => bits va 29 21
  | _ => bits va 20 16

/-- The bytes of a leaf's page at a level: 1 GiB, 2 MiB or 64 KiB (R326). -/
def leafSize (l : Nat) : Nat :=
  match l with
  | 1 => 2 ^ 30
  | 2 => 2 ^ 21
  | _ => 2 ^ 16

/-- Whether an entry's reserved fields are zero and its KIND is one (R325). -/
def entryOk (host : Bool) (e : Word) : Bool :=
  bit e 0 && bits e 2 1 < 2 && bits e 4 3 == 0 &&
    (if host then bits e 63 52 == 0 && !bit e 7 else bits e 46 41 == 0)

/-- Whether a pointer's remaining fields are as R325 and R326 require: the fields that a leaf alone uses
are zero, and the address is a multiple of the next table's size, 4 KiB or, of level 3, 256 bytes. -/
def pointerOk (host : Bool) (l : Nat) (e : Word) : Bool :=
  l < 3 && (if host then bits e 51 41 == 0 else bits e 63 47 == 0 && !bit e 7) &&
    (bits e 40 8 * 256) % (if l = 2 then 256 else 4096) == 0

/-- Whether a leaf of level `l` names a frame aligned to its page (R326). -/
def leafOk (host : Bool) (l : Nat) (e : Word) : Bool :=
  0 < l && (if host then (bits e 51 8 * 256) % leafSize l == 0
    else (bits e 40 8 * 256) % leafSize l == 0 && bits e 63 54 ≤ 575)

/-- Whether the package's memory map gives a device physical address a stack address (R322). -/
def State.frameOk (s : State) (pa : Nat) : Bool :=
  if pa / 2 ^ 40 % 2 = 0 then pa % 2 ^ 40 < 16 * s.pkg.il * 2 ^ 30
  else pa % 2 ^ 37 < 2 * (64 - s.pkg.il) * 2 ^ 30

/-- The stack beside which a device physical address lies (R322). -/
def stackOf (pa : Nat) : Nat :=
  if pa / 2 ^ 40 % 2 = 0 then (pa / 2 ^ 12 % 16 + pa / 2 ^ 16 % 16) % 16
  else 2 * (pa / 2 ^ 37 % 8) + pa / 2 ^ 12 % 2

/-- The die whose root holds the controller of a device physical address (R321). -/
def dieOfPa (pa : Nat) : Nat := stackOf pa / 2

/-- Whether a write to a place is visible at the narrower scopes of R335 before it is performed: one to the host,
and one to another die of the package. -/
def farPlace (tile : Nat) (space : Space) (place : Nat) : Bool :=
  space == .h || (space == .g && decide (place < 2 ^ 60) && dieOfPa place != dieOf tile)

/-- Whether a far write has left its die: the others are performed after one that has (R294). -/
def FarWrite.away (w : FarWrite) : Bool := farPlace w.tile w.space w.place

/-- A buffer of leaves (R327): a tile's, a quad's second level, or a sieve's. -/
inductive TlbId where
  | tile (t : Nat)
  | quad (q : Nat)
  | sieve (p : Nat)
  deriving DecidableEq, Repr

/-- The leaves that a buffer holds. -/
def State.tlb (s : State) (b : TlbId) : List Leaf :=
  match b with
  | .tile t => (s.tile t).tlb
  | .quad q => s.pkg.quadTlb.get [] q
  | .sieve p => s.pkg.sieveTlb.get [] p

/-- The state with a buffer's leaves replaced. -/
def State.setTlb (s : State) (b : TlbId) (ls : List Leaf) : State :=
  match b with
  | .tile t => s.modTile t fun x => { x with tlb := ls }
  | .quad q => s.modPkg fun p => { p with quadTlb := p.quadTlb.set q ls }
  | .sieve k => s.modPkg fun p => { p with sieveTlb := p.sieveTlb.set k ls }

/-- The leaves a buffer can hold (R327). -/
def TlbId.capacity (b : TlbId) : Nat :=
  match b with
  | .quad _ => 512
  | _ => 64

/-- Whether a buffered leaf translates an address for a partition's space. -/
def Leaf.hits (l : Leaf) (host : Bool) (part : Nat) (va : Nat) : Bool :=
  l.host == host && l.part == part && l.base ≤ va && va < l.base + l.size

/-- The bytes that a pointer of a level covers. -/
def pointerSpan (l : Nat) : Nat :=
  match l with
  | 0 => 2 ^ 39
  | 1 => 2 ^ 30
  | _ => 2 ^ 21

/-- What a walk finds: the entry of the leaf, its level, and the pointers on the way (R326, R327). -/
structure Walked where
  entry : Word
  level : Nat
  pointers : List Leaf

/-- The modules of a die that lead to another die (R318; DESIGN CHOICE, log entry 10): modules 2k and
2k + 1 lead to the k-th of the other dies in rising number, 14 and 15 to the I/O die. -/
def pairModules (die other : Nat) : List Nat :=
  let k := if other < die then other else other - 1
  [2 * k, 2 * k + 1]

/-- Whether both modules of a pair of dies are lost (R320). -/
def State.pairLost (s : State) (die other : Nat) : Bool :=
  die != other && (pairModules die other).all fun m => (vget s.pkg.dies die {}).lost.contains m

/-- The walk of R326 from level `l` with `n` levels left, with the pointers that the die's walker holds (R327). A
table entry in a poisoned granule is refused as any read of it is (R323), and one beyond a lost pair ends as a LINK error
(R320). -/
def State.walk (s : State) (die part : Nat) (host : Bool) (va : Word) : Nat → Nat → Nat → Except AccessErr Walked
  | 0, l, _ => .error (errTranslation (l + 1))
  | n + 1, l, table =>
    let span := pointerSpan l
    let held := (s.pkg.walkers.get [] die).find? fun x =>
      decide (l < 3) && x.size == span && x.hits host part va.toNat
    let loc := locPa (table + 8 * walkIndex va l)
    let e : Word := match held with
      | some x => x.entry
      | none => Word.ofN (s.mem.readLe loc 8)
    if held.isNone && s.poisonedAt loc then .error errPoison
    else if held.isNone && s.pairLost die (dieOfPa table) then .error (errLink 2)
    else if !entryOk host e then .error (errTranslation (l + 1))
    else if bits e 2 1 = 0 then
      if pointerOk host l e then
        (s.walk die part host va n (l + 1) (bits e 40 8 * 256)).map fun w =>
          { w with pointers :=
              if held.isSome then w.pointers else ⟨host, part, va.toNat / span * span, span, e⟩ :: w.pointers }
      else .error (errTranslation (l + 1))
    else if leafOk host l e then .ok ⟨e, l, []⟩
    else .error (errTranslation (l + 1))

/-- The die whose walker serves a buffer (R327). -/
def TlbId.die (b : TlbId) : Nat :=
  match b with
  | .tile t => t / 256
  | .quad q => q / 64
  | .sieve p => p / 4

/-- The state with pointers in a die's walker, which holds 256; the oldest leave a full one (R327; DESIGN CHOICE,
log entry 9). -/
def State.fillWalker (s : State) (die : Nat) (ps : List Leaf) : State :=
  if ps.isEmpty then s
  else s.modPkg fun k => { k with walkers := k.walkers.set die ((ps ++ k.walkers.get [] die).take 256) }

/-- The buffer behind a buffer: the second level of a tile's quad (R327). -/
def TlbId.behind (b : TlbId) : Option TlbId :=
  match b with
  | .tile t => some (.quad (t / 4))
  | _ => none

/-- The leaf of a buffer that translates an address. -/
def State.leafIn (s : State) (b : TlbId) (host : Bool) (part va : Nat) : Option Leaf :=
  (s.tlb b).find? fun l => l.hits host part va

/-- The state with a leaf in a buffer; the oldest leaves a full one (R327; DESIGN CHOICE, log entry 9). -/
def State.fillTlb (s : State) (b : TlbId) (l : Leaf) : State := s.setTlb b (l :: (s.tlb b).take (b.capacity - 1))

/-- The leaf of an address: from the buffer, from the one behind it, or by a walk; a buffer that missed is
filled, with valid leaves only (R326, R327). -/
def State.leafOf (s : State) (b : TlbId) (p : Partition) (host : Bool) (va : Word) :
    Except AccessErr (Leaf × State) :=
  match s.leafIn b host p.id va.toNat with
  | some l => .ok (l, s)
  | none =>
    match b.behind.bind fun q => s.leafIn q host p.id va.toNat with
    | some l => .ok (l, s.fillTlb b l)
    | none =>
      match s.walk b.die p.id host va 4 0 (if host then p.rootH else p.rootG) with
      | .error e => .error e
      | .ok w =>
        let sz := leafSize w.level
        let leaf : Leaf := ⟨host, p.id, va.toNat / sz * sz, sz, w.entry⟩
        let s1 := s.fillWalker b.die w.pointers
        .ok (leaf, (match b.behind with
          | some q => s1.fillTlb q leaf
          | none => s1).fillTlb b leaf)

/-- Whether the way from a die to an I/O die is lost: both modules of the die to the I/O die of its half, or,
for the other I/O die, the four modules between the two (R318, R320). -/
def State.ioWayLost (s : State) (die io : Nat) : Bool :=
  ([14, 15].all fun m => (vget s.pkg.dies die {}).lost.contains m) ||
    (die / 4 != io && [0, 1, 2, 3].all fun m => s.pkg.ioLost.contains m)

/-- The scale-up port of a tile's requests to another package (R329). -/
def portOf (tile pkg : Nat) : Nat := (tile + pkg) % 36

/-- Whether the way of a tile's requests to a place is lost: to another die both modules of the pair, to the
host, which I/O die 0 leads to, the way to that, to another package its port or the way to the I/O die that
carries it (R318, R320, R414). -/
def State.wayLost (s : State) (tile : Nat) (space : Space) (place : Nat) : Bool :=
  match space with
  | .sp | .sh => false
  | .h => s.ioWayLost (dieOf tile) 0
  | .g =>
    if 2 ^ 60 ≤ place then
      let port := portOf tile ((place - 2 ^ 60) / 2 ^ 41)
      s.pkg.downPorts.contains port || s.ioWayLost (dieOf tile) (port / 18)
    else s.pairLost (dieOf tile) (dieOfPa place)

/-- The error of an access that has passed every other check: LINK where its way is lost (R320, R340). -/
def State.linkFault (s : State) (tile : Nat) (space : Space) (place : Nat) : Option AccessErr :=
  if s.wayLost tile space place then some (errLink 2) else none

/-- Whether the gateways of a block drop the packets of an owner: its identifier is another (R349). A block that has
never been given an identifier has no gateway. -/
def State.blockDrops (s : State) (owner block : Nat) : Bool :=
  let o := s.pkg.blockOwner.get 128 block
  o != 128 && o != owner

/-- Whether a gateway drops the requests that leave a tile's block for a place: those to the levels above the
block, where the block's identifier is not the sender's (R349). -/
def State.gatewayDrops (s : State) (owner tile : Nat) (space : Space) (place : Nat) : Bool :=
  s.blockDrops owner (tile / 16) &&
    match space with
    | .sp => false
    | .sh => decide (2 < (place - 2 ^ 42) / 2 ^ 40)
    | _ => true

/-- The location that a leaf and an address name, after the checks of R326 in its order, the frame check
of R322, and, for another package, its grant (R329). -/
def State.leafLoc (s : State) (p : Partition) (host : Bool) (l : Leaf) (va : Word)
    (need : Need) : Except AccessErr Nat :=
  let e := l.entry
  let low := va.toNat % l.size
  let perm := (!need.rd || bit e 5) && (!need.wr || bit e 6)
  if host then
    if perm then .ok (locHost (bits e 51 8 * 256 / l.size * l.size + low)) else .error (errAccess 6)
  else
    let pa := bits e 40 8 * 256 / l.size * l.size + low
    let pkg := bits e 63 54
    if pkg = s.pkg.number && !s.frameOk pa then .error (errTranslation 5)
    else if bits e 53 47 ≠ p.owner then .error (errAccess 7)
    else if bit e 7 then .error (errAccess 8)
    else if !perm then .error (errAccess 6)
    else if pkg = s.pkg.number then .ok (locPa pa)
    else if !need.told || Config.remoteAdmits pkg p.owner (pa / 2 ^ 30) then .ok (locRemote pkg pa)
    else .error (errAccess 11)

/-- Translation of a G or H address (R326, R327): a fault before any table is read where bits 63:48 are set
(R324). -/
def State.translate (s : State) (b : TlbId) (p : Partition) (host : Bool) (va : Word)
    (need : Need) : Except AccessErr (Nat × State) :=
  if bits va 63 48 ≠ 0 then .error (errTranslation 6)
  else
    match s.leafOf b p host va with
    | .error e => .error e
    | .ok (l, s') =>
      match s'.leafLoc p host l va need with
      | .error e => .error e
      | .ok loc => .ok (loc, s')

/-- The SH checks of R92: the location in the slice of the level that contains the tile. -/
def slicePlace (p : Partition) (tile : Nat) (addr : Word) :
    Except AccessErr Nat :=
  let level := bits addr 26 24
  let off := bits addr 23 0
  let unit := unitOf level tile
  if bits addr 63 27 ≠ 0 then .error (errAccess 2)
  else if level = 0 || 4 < level then .error (errAccess 3)
  else if sliceSize level ≤ off then .error (errAccess 4)
  else if p.grants.any fun g => g.1 == level && g.2.1 == unit && g.2.2.1 ≤ off && off < g.2.2.2 then
    .ok (locSlice level unit off)
  else .error (errAccess 5)

/-- A place, or ACCESS where a gateway drops the request (R341, R349). -/
def State.pastGateway (s : State) (p : Partition) (tile : Nat) (space : Space) (r : Nat × State) :
    Except AccessErr (Nat × State) :=
  if s.gatewayDrops p.owner tile space r.1 then .error (errAccess 10) else .ok r

/-- The checks of R92 for one access of `size` bytes, in their order, and the gateway's (R349), without the
poison and the link check. The place is the window offset in SP and the location in every other space. -/
def State.resolve (s : State) (b : TlbId) (tile gid : Nat) (space : Space) (addr : Word) (size : Nat)
    (need : Need) : Except AccessErr (Nat × State) :=
  if addr.toNat % size ≠ 0 then .error errAlign
  else
    match s.partOf gid with
    | none => .error (errAccess 1)
    | some p =>
      match space with
      | .sp =>
        match s.window? gid tile with
        | none => .error (errAccess 1)
        | some w => if addr.toNat < w.size then .ok (addr.toNat, s) else .error (errAccess 1)
      | .sh => (slicePlace p tile addr).bind fun loc => s.pastGateway p tile .sh (loc, s)
      | .g => (s.translate b p false addr need).bind fun r => s.pastGateway p tile .g r
      | .h => (s.translate b p true addr need).bind fun r => s.pastGateway p tile .h r

/-- Where a place lies now: an SP place under the window's present masks (R261, R264). -/
def State.locOf (s : State) (tile gid : Nat) (space : Space) (place : Nat) : Nat :=
  match space with
  | .sp =>
    match s.window? gid tile with
    | some w => locSp tile (w.phys place)
    | none => locSp tile place
  | _ => place

/-- The byte that the youngest far write of a die gives a location (R335). -/
def State.farByte (s : State) (die loc : Nat) : Option Byte :=
  s.pkg.far.foldl (fun b w =>
    if dieOf w.tile = die && w.away then ((w.cells.find? fun c => c.1 == loc).map (·.2)).or b else b) none

/-- The byte of a location of G as a tile sees it: a far write of its die before what memory holds (R335). -/
def State.seenByte (s : State) (tile loc : Nat) : Byte := (s.farByte (dieOf tile) loc).getD (s.mem.read loc)

/-- The byte of a place of a space, as a tile sees it (R261, R335). -/
def State.byteAt (s : State) (tile gid : Nat) (space : Space) (place : Nat) : Byte :=
  if space = .g then s.seenByte tile place else s.mem.read (s.locOf tile gid space place)

/-- The bytes that the places from `place` upward hold, as a tile sees them (R6, R261, R335). -/
def State.loadBytes (s : State) (tile gid : Nat) (space : Space) (place : Nat) : Nat → List Byte
  | 0 => []
  | n + 1 => s.byteAt tile gid space place :: s.loadBytes tile gid space (place + 1) n

/-- The state with the bytes of a list written to the places from `place` upward. -/
def State.storeBytes (s : State) (tile gid : Nat) (space : Space) (place : Nat) : List Byte → State
  | [] => s
  | b :: bs =>
    ({ s with mem := s.mem.write (s.locOf tile gid space place) b }).storeBytes tile gid space (place + 1) bs

/-- The state with the bytes that a die's far writes hold for `n` locations from `loc` upward struck out: a later
write of that die to those locations is performed first (R246, R335; DESIGN CHOICE, log entry 12). -/
def State.strikeFar (s : State) (die loc n : Nat) : State :=
  if s.pkg.far.isEmpty then s
  else
    s.modPkg fun p =>
      { p with far := p.far.map fun w =>
          if dieOf w.tile = die && w.away then { w with cells := w.cells.filter fun c => !(loc ≤ c.1 && c.1 < loc + n) } else w }

/-- The state with an access of a tile performed that writes at once. -/
def State.writeOver (s : State) (tile gid : Nat) (space : Space) (place : Nat) (bs : List Byte) : State :=
  (if space = .g then s.strikeFar (dieOf tile) place bs.length else s).storeBytes tile gid space place bs

/-- Whether another package refuses a group's access to a place (R329). -/
def State.refuses (s : State) (gid : Nat) (space : Space) (place : Nat) : Bool :=
  space == .g && decide (2 ^ 60 ≤ place) &&
    !Config.remoteAdmits ((place - 2 ^ 60) / 2 ^ 41) ((s.ownerOf gid).getD 0) (place % 2 ^ 41 / 2 ^ 30)

/-- Whether the granule of a place is poisoned (R350). -/
def State.placePoisoned (s : State) (tile gid : Nat) (space : Space) (place : Nat) : Bool :=
  space != .h && s.poisonedAt (s.locOf tile gid space place)

end Sys2Proof.Machine
end

