-- ==== Sys2Proof/Machine/Ops.lean ====
section
/-! DEFINITION. The named operations that the meanings share: atomic updates, register results, tokens and
the end of a command, the regions of a thread, and taking and leaving a trap. -/

namespace Sys2Proof.Machine

/-! ## Atomic operations -/

/-- The new value of an integer atomic of `n` bits on an old value and an operand; a CAS compares with
`cmp` (R105, R215, R290). -/
def AmoOp.apply (op : AmoOp) (n : Nat) (old arg cmp : Nat) : Nat :=
  match op with
  | .add => (old + arg) % 2 ^ n
  | .and => old &&& arg
  | .or => old ||| arg
  | .xor => old ^^^ arg
  | .min => if toInt old n ≤ toInt arg n then old else arg
  | .max => if toInt old n ≤ toInt arg n then arg else old
  | .swap => arg
  | .cas => if old = cmp then arg else old
  | .fadd => arg

/-! ## Performing an access -/

/-- The state with the record of a request of a tile dropped at a block's gateway, with both owner identifiers
(R349). -/
def State.gatewayRecord (s : State) (tile block slot gid : Nat) (va : Word) : State :=
  s.log { cause := 0x14, src := 13, unit := tile, owner := s.ownerOf gid, sub := slot, addr := va.toNat,
          aux := 128 * s.pkg.blockOwner.get 128 block + (s.ownerOf gid).getD 0, die := dieOf tile }

/-- The state with a store or non-returning AMO performed at its place; at a poisoned granule it is not
performed and a record goes to the log (R96, R105, R323), and neither is one that a gateway drops (R349) or
another package refuses (R329). -/
def State.perform (s : State) (tile slot gid : Nat) (b : Buffered) : State :=
  if s.gatewayDrops ((s.ownerOf gid).getD 0) tile b.space b.place then s.gatewayRecord tile (tile / 16) slot gid b.va
  else if s.refuses gid b.space b.place then
    s.log { cause := 0x14, src := 13, unit := tile, owner := s.ownerOf gid, sub := slot,
            addr := b.va.toNat, aux := (b.place - 2 ^ 60) / 2 ^ 41, die := dieOf tile }
  else if s.placePoisoned tile gid b.space b.place then
    s.log { cause := 0x05, src := 0, unit := tile, owner := s.ownerOf gid, sub := slot,
            addr := b.va.toNat, die := dieOf tile }
  else
    match b.act with
    | .store size data => s.writeOver tile gid b.space b.place (leBytes size data.toNat)
    | .amo op arg =>
      let old := leNat (s.loadBytes tile gid b.space b.place 8)
      s.writeOver tile gid b.space b.place (leBytes 8 (op.apply 64 old arg.toNat 0))

/-! ## Far writes (R335) -/

/-- The widest scope, by the codes of R103, at which a far write is visible before it is performed (R335): of G,
once it has left its die, the die's, and of H, once the port has accepted it, the package's. -/
def earlyScope (space : Space) : Nat := if space = .h then 6 else 4

/-- The plane of a request: its scale-up port, or the die across the link (R329); 36 for the host's port. -/
def planeOf (tile : Nat) (space : Space) (place : Nat) : Nat :=
  if space = .h then 36
  else if 2 ^ 60 ≤ place then portOf tile ((place - 2 ^ 60) / 2 ^ 41) else dieOfPa place

/-- The state with a far write on its way, numbered by the free values drawn so far. It is performed, or complete, a free
number of cycles below 2^21 later, no sooner than those of its die before it (R335; DESIGN CHOICE, log entry 12). -/
def State.launchFar (s : State) (w : FarWrite) : State :=
  let n := (Config.freeWord s.draw.1).toNat % 2 ^ 21
  let last := ((s.pkg.far.filter fun x => dieOf x.tile == dieOf w.tile).map (·.due)).foldl Nat.max 0
  s.draw.2.modPkg fun p =>
    { p with far := p.far ++ [{ w with id := s.free, since := s.now, due := Nat.max last (s.now + 1 + n) }] }

/-- The locations and bytes of a write from a place upward. -/
def cellsOf (place : Nat) (bs : List Byte) : List (Nat × Byte) :=
  (List.range bs.length).map fun i => (place + i, bs.getD i 0#8)

/-- The state with a write of a tile that has left its die: to the host it is written, and elsewhere its die sees
its bytes from now on (R335). -/
def State.sendFar (s : State) (tile gid : Nat) (maker : FarMaker) (space : Space) (place : Nat) (va : Word) (wide : Bool)
    (bs : List Byte) (pos : Nat := 0) : State :=
  (if space = .h then s.storeBytes tile gid .h place bs else s).launchFar
    { tile := tile, gid := gid, maker := maker, space := space, place := place, va := va, pos := pos,
      cells := if space = .h then [] else cellsOf place bs, since := 0, due := 0, wide := wide }

/-- The command of an engine that made a far write. -/
def FarMaker.cmd? (m : FarMaker) : Option Nat :=
  match m with
  | .command id _ _ | .stream id _ => some id
  | _ => none

/-- Whether a far write meets a poisoned granule. -/
def State.farPoisoned (s : State) (w : FarWrite) : Bool :=
  (w.cells.any fun c => s.poisonedAt c.1) || (w.atomic.isSome && s.poisonedAt w.place)

/-- The record of a far write, from its maker or, of a lost one, from its link (R320, R323, R331, R352). -/
def State.farRecord (s : State) (w : FarWrite) (cause aux : Nat) : State :=
  let e : Event := { cause := cause, src := 12, unit := w.tile, owner := s.ownerOf w.gid, addr := w.va.toNat, aux := aux,
                     die := dieOf w.tile }
  let src (n : Nat) : Nat := if cause = 0x13 then 12 else n
  s.log
    (match w.maker with
     | .access slot _ => { e with src := src 0, sub := slot }
     | .command _ _ _ => { e with src := src 4 }
     | .stream _ _ => { e with src := src 3 }
     | .chain _ col row slot => { e with src := src 7, sub := slot, col := col, row := row })

/-- The state with the bytes of a far write in memory. -/
def State.landBytes (s : State) (w : FarWrite) : State :=
  { s with mem := w.cells.foldl (fun m c => m.write c.1 c.2) s.mem }

/-- Whether a committed access has left its die and is not yet performed. -/
def State.farAccess (s : State) (tile slot sid : Nat) : Bool :=
  s.pkg.far.any fun w => w.tile == tile && w.maker == .access slot sid

/-- Whether a command has far writes that are not yet visible at its scope (R295, R317). -/
def State.lags (s : State) (tile id : Nat) : Bool :=
  s.pkg.far.any fun w => w.tile == tile && w.maker.cmd? == some id && w.wide

/-- Whether a command has far writes to a space, made by itself or a stream of its own, that are not yet performed. -/
def State.unlanded (s : State) (tile : Nat) (maker : FarMaker) (space : Space) : Bool :=
  s.pkg.far.any fun w => w.tile == tile && w.maker == maker && w.space == space

/-- Whether copy commands of a tile that a test on their number, slot and group names have far writes to a space that are
not yet performed (R295, R336). -/
def State.farCopies (s : State) (tile : Nat) (space : Space) (test : Nat → Nat → Nat → Bool) : Bool :=
  s.pkg.far.any fun w => w.tile == tile && w.space == space &&
    match w.maker with
    | .command _ left slot => test left slot w.gid
    | _ => false

/-- Whether elements that streams of a tile delivered before a far write of a number are not yet performed (R108). -/
def State.farElements (s : State) (tile : Nat) (streams : List Nat) (before : Nat) : Bool :=
  s.pkg.far.any fun w => w.tile == tile && decide (w.id < before) &&
    match w.maker with
    | .stream _ i => streams.contains i
    | _ => false

/-- Whether every far write of a tile's die that a release of its threads may cover is visible at a scope: those
of the die's threads, and those of its commands and chains that a thread has read (R314, R336; DESIGN CHOICE, log entry 12). -/
def State.coverable (s : State) (tile scope : Nat) : Bool :=
  s.pkg.far.all fun w =>
    dieOf w.tile != dieOf tile || decide (scope ≤ earlyScope w.space) || !w.away ||
      (match w.maker with
       | .access _ _ => false
       | _ => !w.read)

/-- The state with the far writes of a tile's die noted that a read of `n` locations has met (R314). -/
def State.noteRead (s : State) (tile place n : Nat) : State :=
  if s.pkg.far.isEmpty then s
  else
    s.modPkg fun p =>
      { p with far := p.far.map fun w =>
          if dieOf w.tile == dieOf tile && w.away && w.cells.any fun c => place ≤ c.1 && c.1 < place + n then
            { w with read := true }
          else w }

/-! ## Banks (R261 to R265) -/

/-- The bank of a place of SP or SH, numbered as its counters are: of a slice, bit 6 of the offset is the lowest
of the bank's number (R261, R265). -/
def State.bankOf (s : State) (tile gid : Nat) (space : Space) (place : Nat) : Option Nat :=
  match space with
  | .sp => (s.window? gid tile).map fun w => 64 * tile + w.bank place
  | .sh =>
    let level := (place - 2 ^ 42) / 2 ^ 40
    some (2 ^ 20 * level + 256 * (place % 2 ^ 40 / 2 ^ 25) + place / 64 % 2 ^ (4 + level))
  | _ => none

/-- The accesses that a bank is to serve, by cycle and group. -/
def State.bookings (s : State) (bank : Nat) : List (Nat × Nat) := s.pkg.banks.get [] bank

/-- The first cycle from `c` on in which a bank serves none of a list of accesses; `n` cycles may be looked at. -/
def firstFree (l : List (Nat × Nat)) : Nat → Nat → Nat
  | 0, c => c
  | n + 1, c => if l.any fun x => x.1 == c then firstFree l n (c + 1) else c

/-- The cycle in which a bank serves a request that may be served from a cycle on: each bank performs one access in a
cycle, the oldest request first (R262, R265). -/
def State.bankCycle (s : State) (bank from_ : Nat) : Nat :=
  firstFree (s.bookings bank) (s.bookings bank).length (Nat.max s.now from_)

/-- The cycles that a request for a bank waits. -/
def State.bankWait (s : State) (bank : Nat) : Nat := s.bankCycle bank s.now - s.now

/-- The requests that wait in the replay queue of a tile's scratchpad, of one group or of all (R262). -/
def State.replays (s : State) (tile : Nat) (gid : Option Nat := none) : Nat :=
  ((List.range 32).map fun b =>
    ((s.bookings (64 * tile + b)).filter fun x => decide (s.now < x.1) && gid.all (x.2 == ·)).length).sum

/-- An access of a group to a bank accepted in the first cycle, from one on, in which the bank is free: the cycles that it
waits, and the state (R262, R265). -/
def State.takeBank (s : State) (bank : Option Nat) (gid : Nat) (from_ : Nat := 0) : Nat × State :=
  match bank with
  | none => (0, s)
  | some b =>
    let c := s.bankCycle b from_
    (c - s.now, s.modPkg fun p => { p with banks := p.banks.set b (p.banks.get [] b ++ [(c, gid)]) })

/-- Accesses of a group to several banks accepted, the first `d` cycles from now and each `step` later than the one
before it: the most cycles that one of them waits beyond that, and the state. -/
def State.takeBanks (s : State) (gid step : Nat) : Nat → List Nat → Nat × State
  | _, [] => (0, s)
  | d, b :: bs =>
    let r := s.takeBank (some b) gid (s.now + d)
    let q := r.2.takeBanks gid step (d + step) bs
    (Nat.max (r.1 - d) q.1, q.2)

/-- The end of a cycle of the banks (R263): one conflict is counted for each bank that has served an access while another
waits for it, and one cycle for each scratchpad whose replay queue is full; what is over is forgotten. -/
def State.bankTurn (s : State) : State :=
  if s.pkg.banks.items.isEmpty then s
  else
    let left := (s.pkg.banks.items.map fun x => (x.1, x.2.filter fun y => decide (s.now < y.1))).filter fun x => !x.2.isEmpty
    let found := left.filter fun x => (s.bookings x.1).any fun y => y.1 == s.now
    let tiles := ((left.filter fun x => decide (x.1 < 2 ^ 20)).map (·.1 / 64)).eraseDups
    let s1 := found.foldl (fun a x => a.count 8 x.1 0) s
    let s2 := (tiles.filter fun t => decide (16 ≤ s.replays t)).foldl (fun a t => a.count 8 (64 * t + 32) 0) s1
    s2.modPkg fun p => { p with banks := ⟨left⟩ }

/-! ## Register results -/

/-- The thread that will write a fixed-latency result of latency `lat`, issued in cycle `now`, to s(r)
(R52); a write to s0 is discarded (R43). -/
def Thread.result (th : Thread) (now : Nat) (r : BitVec 5) (v : Word) (lat : Nat) : Thread :=
  if r = 0#5 then th
  else
    { th with
      pend := th.pend ++ [⟨r.toNat, v, now + lat - 1⟩]
      producers := ⟨r.toNat, th.distance, lat⟩ :: th.producers.filter fun q => q.reg != r.toNat }

/-- The thread that will write a predicate with latency 2 (R67, R69). -/
def Thread.predResult (th : Thread) (now : Nat) (p : BitVec 4) (b : Bool) : Thread :=
  if p = 0#4 then th
  else
    { th with
      pend := th.pend ++ [⟨32 + p.toNat, Word.ofN (b2n b), now + 1⟩]
      producers := ⟨32 + p.toNat, th.distance, 2⟩ :: th.producers.filter fun q => q.reg != 32 + p.toNat }

/-- The thread with a scoreboarded result outstanding (R53); d = s0 still counts as an access. -/
def Thread.await (th : Thread) (o : Outstanding) : Thread :=
  { th with
    outstanding := th.outstanding ++ [{ o with id := th.nextLoad }]
    producers := th.producers.filter fun q => q.reg != o.dst.toNat
    nextLoad := th.nextLoad + 1 }

/-- Whether a register awaits a scoreboarded result. -/
def Thread.awaits (th : Thread) (r : BitVec 5) : Bool :=
  r != 0#5 && th.outstanding.any fun o => o.dst == r

/-! ## Tokens -/

/-- A token slot of a tile. -/
def State.token (s : State) (tile k : Nat) : TokenSlot := vget (s.ctx tile).tokens k {}

/-- A token's state as a reader sees it: a poisoned slot reads as POISON (R350). -/
def TokenSlot.seen (t : TokenSlot) : TokState := if t.poisoned then .poison else t.state

/-- Whether a state is final (R275). -/
def TokState.final (t : TokState) : Bool :=
  match t with
  | .visible | .skipped | .faulted | .poison => true
  | _ => false

/-- Whether a token counts as PENDING for the reuse check (R276). -/
def TokState.busy (t : TokState) : Bool := t == .pending || t == .read

/-- The level table of R48: whether a state satisfies READ (1), VISIBLE (2) or FINAL (3). -/
def TokState.satisfies (t : TokState) (level : Nat) : Bool :=
  match level with
  | 1 => t == .read || t == .visible || t == .skipped
  | 2 => t == .visible || t == .skipped
  | 3 => t.final
  | _ => true

/-- Whether a state ends a wait below FINAL on a fault (R81, R278). -/
def TokState.failed (t : TokState) : Bool := t == .faulted || t == .poison

/-- Consumed byte j of a token word: its token and its level (R48). -/
def consumed (b : Word) (j : Nat) : Nat × Nat :=
  let byte := b.toNat / 2 ^ (48 - 8 * j) % 256
  (byte / 4, byte % 4)

/-- The produced token of a token word, where produce is enabled (R48). -/
def produced (b : Word) : Option Nat := if bit b 57 then some (bits b 63 58) else none

/-- A waiting command with its consumed byte j judged against the tokens: satisfied for good by the first
state that satisfies its level, or failed (R277, R278). -/
def judge (tokens : Vector TokenSlot 64) (c : Cmd) (j : Nat) : Cmd :=
  let (k, level) := consumed c.b j
  if level = 0 || c.satisfied.getLsbD j then { c with satisfied := c.satisfied ||| (1#3 <<< j) }
  else
    let st := (vget tokens k {}).seen
    if st.satisfies level then { c with satisfied := c.satisfied ||| (1#3 <<< j) }
    else if st.failed then { c with satisfied := c.satisfied ||| (1#3 <<< j), upstream := true }
    else c

/-- A command with its three consumed bytes judged, if it still waits. -/
def judgeAll (tokens : Vector TokenSlot 64) (c : Cmd) : Cmd :=
  if c.stage = .waiting then judge tokens (judge tokens (judge tokens c 0) 1) 2 else c

/-- Whether every consumed token of a command is satisfied or has failed it. -/
def Cmd.decided (c : Cmd) : Bool := c.satisfied == 7#3

/-- The cause of a token as TQUERY and a TWAIT read it (R82, R282): of a slot that an error has poisoned, for which
no engine recorded one, POISON (R350; DESIGN CHOICE, log entry 75). -/
def TokenSlot.causeSeen (t : TokenSlot) : BitVec 6 := if t.poisoned then 0x05#6 else t.cause

/-- A TWAIT judged against a state of its token: the first state that decides it stands (R81, R82,
R277). -/
def TokenWait.judge (w : TokenWait) (t : TokenSlot) : TokenWait :=
  if w.result.isSome then w
  else if t.seen.satisfies w.level then { w with result := some none }
  else if t.seen.failed then { w with result := some (some t.causeSeen) }
  else w

/-- A thread's TWAIT judged against a new state of token `k`. -/
def Thread.judgeWait (th : Thread) (k : Nat) (t : TokenSlot) : Thread :=
  { th with twait := th.twait.map fun w => if w.tok = k then w.judge t else w }

/-- The context with one token slot changed, and every waiting command and TWAIT judged again: a waiter
keeps the first state that satisfies it (R277). -/
def Context.modToken (c : Context) (k : Nat) (f : TokenSlot → TokenSlot) : Context :=
  let t := f (vget c.tokens k {})
  let tokens := vset c.tokens k t
  { c with tokens := tokens, cmds := c.cmds.map (judgeAll tokens),
           threads := c.threads.map fun th => th.judgeWait k t }

/-- The state with one token slot of a tile changed. -/
def State.modToken (s : State) (tile k : Nat) (f : TokenSlot → TokenSlot) : State :=
  s.modCtx tile fun c => c.modToken k f

/-- A command of a tile by its identifier. -/
def State.cmd? (s : State) (tile id : Nat) : Option Cmd := (s.ctx tile).cmds.find? fun c => c.id == id

/-- The state with one command changed. -/
def State.modCmd (s : State) (tile id : Nat) (f : Cmd → Cmd) : State :=
  s.modCtx tile fun c => { c with cmds := c.cmds.map fun x => if x.id == id then f x else x }

/-- The produced token of a command, moved to a state with the cause and the bytes performed (R275,
R282). A command that another has overwritten leaves the token alone (R276). -/
def State.moveToken (s : State) (tile : Nat) (c : Cmd) (st : TokState) (cause : BitVec 6) : State :=
  match produced c.b with
  | none => s
  | some k =>
    s.modToken tile k fun t =>
      if t.owner = some c.id then
        { t with state := st, cause := cause, frozen := false, poisoned := false,
                 prog := if 0x21 ≤ c.func.toNat && c.func.toNat ≤ 0x23 then Nat.min c.pos 0xFFFFFFFF else 0 }
      else t

/-- The state with flags ORed into the FLAGS of the thread that issued a command, while its slot still holds a thread
of the group, a stopped one included (R134, R135, R342). -/
def State.postFlags (s : State) (tile slot gid : Nat) (f : BitVec 8) : State :=
  let th := s.thread tile slot
  if th.status ≠ .empty && th.gid = gid then s.setThread tile slot { th with flags := th.flags ||| f }
  else s

/-- The state with a reply written to the command's register d, where it has one (R47, R278): it ends the
outstanding result of that register. -/
def State.replyTo (s : State) (tile : Nat) (c : Cmd) (v : Word) : State :=
  match c.reply with
  | none => s
  | some r =>
    let th := (s.thread tile c.slot).settle s.now
    if th.gid = c.gid then
      s.setThread tile c.slot
        { th.setReg r v with outstanding := th.outstanding.filter fun o => o.src != .reply c.id }
    else s

/-- What the end of a command of an armed round leaves: its flags in AFLAGS, and how far the round has got
(R384). -/
def Pool.endArmed (p : Pool) (c : Cmd) (st : TokState) : Pool :=
  { p with
    aflags := p.aflags ||| c.flags.setWidth 6
    armed := p.armed.map fun a =>
      { a with failed := a.failed || st.failed
               phase := if c.func = 0x05#7 then 2 else if c.func = 0x06#7 then 4 else a.phase } }

/-- An ownership after the end of a command. -/
def Owner.ended (o : Owner) (id : Nat) : Owner :=
  { o with flowEnded := o.flowEnded || o.flow == id, drainEnded := o.drainEnded || o.drain == some id }

/-- What the end of a thread's command leaves in its tile's pool: an accumulator tile is owned no longer once the PDRAIN
that left after its PFLOW has ended (R361), and the PFLOW is forgotten once it has ended too: an ACCRD comes after its
passes (R371). -/
def Pool.endOwned (p : Pool) (id : Nat) : Pool :=
  { p with owners := (p.owners.map fun o => o.ended id).filter fun o => !(o.flowEnded && o.drainEnded) }

/-- The state with a command ended in a final state: its flags reach FLAGS first, then its token leaves
PENDING; a reply register that has had no reply is written 0 (R134, R275, R278). -/
def State.endCmd (s : State) (tile : Nat) (c : Cmd) (st : TokState) (cause : BitVec 6) : State :=
  let s1 := s.modCtx tile fun x =>
    { x with cmds := x.cmds.filter fun y => y.id != c.id
             pool := if c.armed then x.pool.endArmed c st else x.pool.endOwned c.id }
  if c.armed then s1
  else
    let s2 := s1.postFlags tile c.slot c.gid c.flags
    let s3 := if st.failed then s2.replyTo tile c 0#64 else s2
    s3.moveToken tile c st cause

/-! ## Regions of a thread -/

/-- The egresses that a request from a tile takes to the slice of a level, or past the die root for level
5 and above: the parent egress of each lower switch, then the slice egress (R253, R260). Egress `e` of
the switch of level `l` is written 8 l + e. -/
def pathTo (level : Nat) : List Nat :=
  match level with
  | 0 => []
  | 1 => [12]
  | 2 => [13, 20]
  | 3 => [13, 21, 28]
  | 4 => [13, 21, 29, 36]
  | _ => [13, 21, 29, 37]

/-- The level of the switch whose slice a location of SH lies in; 5 for G and H. -/
def levelOfPlace (space : Space) (place : Nat) : Nat :=
  match space with
  | .sp => 0
  | .sh => (place - 2 ^ 42) / 2 ^ 40
  | _ => 5

/-- The egresses down to a tile from the switch of a level, in whose unit the tile lies (R3, R253). -/
def downPath (tile : Nat) : Nat → List Nat
  | 0 => []
  | l + 1 => (8 * (l + 1) + tile / 4 ^ l % 4) :: downPath tile l

/-- The level of the lowest switch that contains two tiles of a die (R266). -/
def meetLevel (a b : Nat) : Nat :=
  if a / 4 = b / 4 then 1 else if a / 16 = b / 16 then 2 else if a / 64 = b / 64 then 3 else 4

/-- The egresses from a tile to another of its die: up to the lowest switch that contains both, then down
(R266). -/
def pathBetween (a b : Nat) : List Nat :=
  let l := meetLevel a b
  (pathTo (l + 1)).take (l - 1) ++ downPath b l

/-- The control flits of a packet whose payload is `bytes` bytes (R266). -/
def flitsOf (bytes : Nat) : Nat := if bytes ≤ 8 then 1 else 1 + (bytes + 15) / 16

/-- The state with a packet presented at a tile's memory interface, to stand at its link from the next cycle
on (R255, R256). -/
def State.present (s : State) (tile : Nat) (p : Packet) : State :=
  s.modTile tile fun x =>
    { x with presented := x.presented ++ [{ p with tile := tile, at_ := s.now + 1, stamp := x.nextPacket }]
             nextPacket := x.nextPacket + 1 }

/-- The state with a packet that enters a switch by the port of its slice or by its root's port 5. -/
def State.enterAt (s : State) (level unit port : Nat) (p : Packet) : State :=
  let w := s.switch level unit
  s.setSwitch level unit { w with waiting := w.waiting ++ [(port, p)] }

/-- The state with a reply to a tile on its way from the slice of a place, or, of G and H, from its die root's
port 5, standing at the first egress from a cycle on: in the express reply queues where its request was express,
on channel 2 otherwise (R252, R253, R260). -/
def State.replyFrom (s : State) (tile : Nat) (express : Bool) (space : Space) (place at_ owner : Nat)
    (load : Payload) (flits : Nat := 1) : State :=
  let l := Nat.min 4 (levelOfPlace space place)
  s.enterAt l (unitOf l tile) (if levelOfPlace space place = 5 then 5 else 4)
    { vc := if express then 0 else 2, reply := express, flits := flits, owner := owner, tile := tile,
      path := downPath tile l, at_ := at_, payload := load }

/-- The state with a request of an engine presented at its tile: on channel 1, with the data flits of a write, and for a
move on the data network its permit and reservation on channel 3 as well, which take room and have no further effect
(R252, R266). `target` is the tile whose scratchpad it names. -/
def State.engineRequest (s : State) (tile target gid : Nat) (who : EngineId) (space : Space) (place bytes : Nat)
    (write : Bool) : State :=
  let path := if space = .sp then pathBetween tile target else pathTo (levelOfPlace space place)
  let p : Packet :=
    { vc := 1, owner := (s.ownerOf gid).getD 0, flits := if write && decide (bytes ≤ 64) then flitsOf bytes else 1,
      path := path, payload := .engine who target space place bytes write }
  if bytes ≤ 64 then s.present tile p
  else (s.present tile p).present tile { p with vc := 3, payload := .plain }

/-- The packet of a request of a thread to a place: on channel 0 where it is express, on channel 1 otherwise
(R252). -/
def State.requestPacket (s : State) (gid : Nat) (express : Bool) (space : Space) (place : Nat) (load : Payload) :
    Packet :=
  { vc := if express then 0 else 1, owner := (s.ownerOf gid).getD 0, path := pathTo (levelOfPlace space place),
    payload := load }

/-- The state with the request of a thread presented: SH, G and H requests enter the network (R252). -/
def State.send (s : State) (tile slot : Nat) (space : Space) (place : Nat) (load : Payload) : State :=
  if space = .sp then s
  else
    let th := s.thread tile slot
    s.present tile (s.requestPacket th.gid th.netclass space place load)

/-- Buffered accesses as accesses of a region committed in a cycle, numbered from `n`; one to SP needs no
network (R256). -/
def toInFlight (now region : Nat) (express : Bool) : Nat → List Buffered → List InFlight
  | _, [] => []
  | n, b :: bs =>
    { region := region, sid := n, buf := b, express := express, sent := b.space == .sp,
      inNet := b.space != .sp, since := now } :: toInFlight now region express (n + 1) bs

/-- The thread with its open region's masks and counter as a marker leaves them: a new region whose
resume point is `at` (R217, R228). -/
def Thread.openRegion (th : Thread) (pc : Word) (counter : BitVec 8) : Thread :=
  { th with resume := pc, readR := 0#32, readP := 0#16, wroteR := 0#32, wroteP := 0#16,
            buffered := [], held := [], reentry := counter, frontReentry := none, regionNo := th.regionNo + 1 }

/-- A marker of a thread in group state: its open region commits, the stores to be performed in stream
order and the commands to leave in issue order, and the next region opens at `next` (R80, R217, R220,
R221). A thread in supervisor state has no open region, and only releases what it holds. -/
def State.marker (s : State) (tile slot : Nat) (next : Word) : State :=
  let th := s.thread tile slot
  let out := toInFlight s.now th.regionNo th.netclass th.nextSid th.buffered
  s.setThread tile slot
    { th.openRegion next 0#8 with
      inflight := th.inflight ++ out
      nextSid := th.nextSid + th.buffered.length
      departing := th.departing ++ th.held }

/-- The pool owners that a discarded thread's held PFLOWs took (R361) given up. -/
def State.giveUp (s : State) (tile slot : Nat) (held : List Cmd) : State :=
  s.modCtx tile fun c =>
    { c with pool := { c.pool with
        owners := c.pool.owners.filter fun o => !(o.slot == slot && held.any fun h => h.id == o.flow) } }

/-- A discard of a thread's open region for a cause: its buffered accesses and held commands are dropped,
the counter rises by one, and the thread resumes at the region's resume point (R222, R228). The counters of
R420 count it from counter 3 by its cause. -/
def State.discard (s : State) (tile slot : Nat) (cause : BitVec 6) : State :=
  let th := s.thread tile slot
  let s1 := (s.giveUp tile slot th.held).count 0 (4 * tile + slot) (3 + cause.toNat)
  s1.setThread tile slot
    { th.openRegion th.resume (th.reentry + 1) with
      pc := th.resume, fresh := true, waiting := false, twait := none, producers := [], lastSet := none }

/-! ## Traps -/

/-- How a trap meets the open region (R223): a memory fault discards it, TFENCE and SWTRAP have already
committed it and resume after the word, and every other cause commits it up to the word. -/
inductive TrapStyle where
  | memory
  | precise
  | after
  deriving DecidableEq, Repr

/-- A trap that a word raises: its code, reason and detail (R337, R341), TVAL, where R337 gives it one,
and TAUX. -/
structure Trap where
  code : BitVec 6
  reason : BitVec 8 := 0#8
  detail : BitVec 32 := 0#32
  tval : Option Word := none
  taux : Word := 0#64
  style : TrapStyle := .precise
  deriving DecidableEq, Repr

/-- TCAUSE of a trap (R341). -/
def Trap.causeWord (t : Trap) : Word := t.detail ++ (0#16 ++ (t.reason ++ (0#2 ++ t.code)))

/-- TVAL of a trap: a free value for a cause to which R337 gives none (log entry 6). -/
def State.trapValue (s : State) (t : Trap) : Word × State :=
  match t.tval with
  | some v => (v, s)
  | none => (Config.freeWord s.draw.1, s.draw.2)

/-- The thread with the trap registers written: TCAUSE, TEPC, TVAL, TAUX and TSTATE (R342, step 2). -/
def Thread.saveTrap (th : Thread) (t : Trap) (tval epc : Word) (counter : BitVec 8) : Thread :=
  { th with tcause := t.causeWord, tepc := epc, tval := tval, taux := t.taux,
            tstate := Word.ofN (256 * counter.toNat + b2n th.sup) }

/-- The thread that enters its handler: supervisor state, no open region, age 0, the fetch at TVEC once
no result is outstanding (R342, steps 3 and 4). -/
def Thread.enterHandler (th : Thread) : Thread :=
  { th.openRegion 0#64 0#8 with
    sup := true, age := 0, pc := th.tvec, fresh := true, waiting := false, twait := none, producers := [], lastSet := none }

/-- The thread that R342 stops instead of entering a handler, and the record of it. -/
def State.stopThread (s : State) (tile slot : Nat) (t : Trap) : State :=
  let th := s.thread tile slot
  (s.setThread tile slot { th with status := .stopped, waiting := false }).log
    { cause := t.code.toNat, src := 0, unit := tile, owner := s.ownerOf th.gid, sub := 128 + slot,
      addr := (t.tval.getD 0#64).toNat, die := dieOf tile }

/-- The last steps of a trap entry: the thread stops where TVEC is 0 or its trap registers are poisoned,
and else enters its handler (R342). -/
def State.enterOrStop (s : State) (tile slot : Nat) (t : Trap) : State :=
  let th := s.thread tile slot
  if th.tvec = 0#64 || th.trapsPoisoned then s.stopThread tile slot t
  else s.setThread tile slot th.enterHandler

/-- TAKING A TRAP (R223, R228, R342). In group state the open region is discarded and counted for a
memory fault, committed otherwise; the trap registers are written; and the thread enters supervisor
state at TVEC, or stops. A trap raised in supervisor state stops the thread. A discard that brings the
counter to REENTRYMAX traps REENTRY_LIMIT in the fault's place. After a word whose own marker in front of it has
committed the region, MFS REENTRY gives that region's counter (R76; DEDUCED, log entry 76). -/
def State.takeTrap (s : State) (tile slot : Nat) (t : Trap) : State :=
  let th := s.thread tile slot
  if th.sup then s.stopThread tile slot t
  else
    match t.style with
    | .memory =>
      let s1 := s.discard tile slot t.code
      let d := s1.thread tile slot
      let limit := th.reentrymax.toNat ≤ d.reentry.toNat || d.reentry = 0#8
      let t' : Trap :=
        if limit then { code := 0x11#6, tval := t.tval, taux := Word.ofN t.code.toNat, style := .memory } else t
      let (v, s2) := s1.trapValue t'
      let saved :=
        { d.saveTrap t' v th.resume (if limit then 0#8 else d.reentry) with trapReentry := d.reentry }
      (s2.setThread tile slot saved).enterOrStop tile slot t'
    | .precise | .after =>
      let epc := if t.style = .after then th.pc + 4#64 else th.pc
      let s1 := s.marker tile slot epc
      let d := s1.thread tile slot
      let (v, s2) := s1.trapValue t
      let saved := { d.saveTrap t v epc 0#8 with trapReentry := th.frontReentry.getD th.reentry }
      (s2.setThread tile slot saved).enterOrStop tile slot t

/-- The return from a trap, ERET (R78, R342): with TSTATE.SUP = 0 the thread is in group state again and
a region opens at TEPC with the counter TSTATE.REENTRY; the first word waits for every result in flight
(R55). -/
def Thread.eret (th : Thread) : Thread :=
  let back := { th with pc := th.tepc, fresh := true, producers := [], lastSet := none }
  if bit th.tstate 0 then back
  else { back.openRegion th.tepc (BitVec.ofNat 8 (bits th.tstate 15 8)) with sup := false }

end Sys2Proof.Machine
end

