-- ==== Sys2Proof/Machine/Operands.lean ====
section
/-! DEFINITION. The operands of every form: which registers and predicates a control word reads and
writes and where R219 puts its markers, and the effective addresses of the memory words. The selectors of an
element's slot stand in `Machine/Firing.lean`. -/

namespace Sys2Proof.Machine

/-! ## Control words -/

/-- What a control word reads and writes besides its guard (R218), and whether R219 puts a marker in
front of it or behind it whatever its region holds. -/
structure Uses where
  rd : List (BitVec 5) := []
  rp : List (BitVec 4) := []
  wr : List (BitVec 5) := []
  wp : List (BitVec 4) := []
  before : Bool := false
  after : Bool := false
  deriving DecidableEq, Repr

/-- p1 to p15, which PREDS reads and writes together (R69). -/
def allPreds : List (BitVec 4) :=
  [1#4, 2#4, 3#4, 4#4, 5#4, 6#4, 7#4, 8#4, 9#4, 10#4, 11#4, 12#4, 13#4, 14#4, 15#4]

/-- The uses of a control word (R45, R60 to R74, R93, R101 to R105, R218, R219). A step that is not a
control word uses nothing. -/
def uses (i : Instr) : Uses :=
  match i with
  | .add _ d a b | .sub _ d a b | .and _ d a b | .or _ d a b | .xor _ d a b | .andn _ d a b | .shl _
    d a b | .shr _ d a b | .sra _ d a b | .min _ d a b | .max _ d a b | .minu _ d a b | .maxu _ d a
    b | .sext _ d a b | .mul _ d a b | .mulh _ d a b | .mulhu _ d a b | .div _ d a b | .divu _ d a b
    | .rem _ d a b | .remu _ d a b | .bfx _ d a b | .bfxu _ d a b | .rotl _ d a b | .bsel _ d a b =>
    { rd := [a, b], wr := [d] }
  | .clz _ d a | .popc _ d a | .bswap _ d a | .addi _ d a _ | .andi _ d a _ | .ori _ d a _ | .xori _
    d a _ | .shli _ d a _ | .shri _ d a _ | .srai _ d a _ | .ldprm _ d a _ _ | .jalr _ d a | .ldsp _
    d a _ _ | .ldspu _ d a _ _ | .ldsh _ d a _ _ | .ldshu _ d a _ _ | .ldg _ d a _ _ | .ldgu _ d a _
    _ | .ldh _ d a _ _ | .accrd _ d a _ =>
    { rd := [a], wr := [d] }
  | .bfi _ d a b =>
    { rd := [a, b, d], wr := [d] }
  | .setlo _ d _ | .ldlit _ d _ =>
    { wr := [d] }
  | .setsh _ d _ | .loop _ d _ =>
    { rd := [d], wr := [d] }
  | .cmp _ pd _ a b pair =>
    { rd := [a, b], wp := if pair == 1#1 then [pd, pd ^^^ 1#4] else [pd] }
  | .cmpi _ pd _ a _ pair =>
    { rd := [a], wp := if pair == 1#1 then [pd, pd ^^^ 1#4] else [pd] }
  | .pand _ pd pa pb | .por _ pd pa pb | .pxor _ pd pa pb | .pandn _ pd pa pb | .porn _ pd pa pb |
    .pnand _ pd pa pb | .pnor _ pd pa pb =>
    { rp := [pa, pb], wp := [pd] }
  | .br _ _ | .eret _ | .yield _ | .rmark _ =>
    {}
  | .call _ _ =>
    { wr := [31#5] }
  | .jr _ a =>
    { rd := [a] }
  | .ret _ =>
    { rd := [31#5] }
  | .tfence _ | .halt _ | .drain _ _ | .fence _ _ | .twait _ _ _ =>
    { before := true }
  | .trap _ a | .sbar _ a =>
    { rd := [a], before := true }
  | .mfs _ d imm =>
    { rp := if imm == 0x005#13 then allPreds else [], wr := [d] }
  | .mfsFtrap _ d =>
    { wr := [d], before := true, after := true }
  | .mts _ d imm =>
    { rd := [d], wp := if imm == 0x005#13 then allPreds else [], before := true, after := true }
  | .stsp _ d a _ _ | .stsh _ d a _ _ | .stg _ d a _ _ | .sth _ d a _ _ =>
    { rd := [a, d] }
  | .ldspi _ d a _ _ =>
    { rd := [a], wr := [d, a] }
  | .stspi _ d a _ _ =>
    { rd := [a, d], wr := [a] }
  | .ldacq _ d a _ _ _ =>
    { rd := [a], wr := [d], before := true, after := true }
  | .strel _ d a _ _ _ =>
    { rd := [a, d], before := true, after := true }
  | .amospAdd _ d a b | .amospAnd _ d a b | .amospOr _ d a b | .amospXor _ d a b | .amospMin _ d a b
    | .amospMax _ d a b | .amospSwap _ d a b | .amoshAdd _ d a b | .amoshAnd _ d a b | .amoshOr _ d
    a b | .amoshXor _ d a b | .amoshMin _ d a b | .amoshMax _ d a b | .amoshSwap _ d a b | .amogAdd
    _ d a b | .amogAnd _ d a b | .amogOr _ d a b | .amogXor _ d a b | .amogMin _ d a b | .amogMax _
    d a b | .amogSwap _ d a b | .amohAdd _ d a b | .amohAnd _ d a b | .amohOr _ d a b | .amohXor _ d
    a b | .amohMin _ d a b | .amohMax _ d a b | .amohSwap _ d a b =>
    { rd := [a, b], wr := [d], before := (d != 0#5), after := (d != 0#5) }
  | .amospCas _ d a b | .amoshCas _ d a b | .amogCas _ d a b | .amohCas _ d a b =>
    { rd := [a, b, d], wr := [d], before := (d != 0#5), after := (d != 0#5) }
  | .dbar _ =>
    { before := true, after := true }
  | .wfe _ a =>
    { rd := [a], before := true, after := true }
  | .pmode _ a b | .pbed _ a b | .pbeds _ a b | .pmap _ a b | .phold _ a b | .pflow _ a b | .pdrain
    _ a b | .pzero _ a b | .pspan _ a b | .sdef _ a b | .scnt _ a b | .ssub _ a b | .sgo _ a b |
    .sstop _ a b | .sunf _ a b | .srgp _ a b | .shash _ a b | .cpshape _ a b | .cpy _ a b | .cpyr _
    a b | .cpyf _ a b | .gidx _ a b | .gath _ a b | .scata _ a b | .fload _ a b | .fgo _ a b |
    .fstop _ a b | .fput _ a b | .tjoin _ a b | .treset _ a b | .gstart _ a b | .garm _ a b | .gdone
    _ a b =>
    { rd := [a, b] }
  | .pstat _ d a b | .fget _ d a b | .fstat _ d a b | .tquery _ d a b =>
    { rd := [a, b], wr := [d], before := true, after := true }
  | _ => {}

/-- The fixed-latency producer of a register or predicate stands at a guaranteed distance below its
latency (R52, R54). -/
def Thread.short (th : Thread) (reg : Nat) : Bool :=
  th.producers.any fun q => q.reg == reg && th.distance < q.at_ + q.latency

/-- SETSH reads its d past a SETLO or SETSH of the same d that issued just before it (R65). -/
def Thread.bypassed (th : Thread) (i : Instr) : Bool :=
  match i with
  | .setsh _ d _ => th.lastSet == some d && d != 0#5
  | _ => false

/-- An operand of a word stands short of its producer (R54). -/
def Thread.shortUse (th : Thread) (i : Instr) : Bool :=
  let u := uses i
  (!th.bypassed i && u.rd.any fun r => th.short r.toNat) || u.rp.any fun p => th.short (32 + p.toNat)

/-- A register or predicate that a word reads is poisoned (R350). -/
def Thread.poisonUse (th : Thread) (u : Uses) : Bool :=
  (u.rd.any fun r => r != 0#5 && th.poisonR.getLsbD r.toNat) ||
    u.rp.any fun p => p != 0#4 && th.poisonP.getLsbD p.toNat

/-- Test 1 of R218: the word writes a register or predicate that the read-first mask holds. -/
def Thread.writesRead (th : Thread) (u : Uses) : Bool :=
  (u.wr.any fun r => r != 0#5 && th.readR.getLsbD r.toNat) ||
    u.wp.any fun p => p != 0#4 && th.readP.getLsbD p.toNat

/-- Test 2 of R218 in a region that has written `wroteR` and `wroteP`: the word reads and writes one
register or predicate that no earlier word of the region has written. -/
def selfUpdate (u : Uses) (g : BitVec 4) (wroteR : BitVec 32) (wroteP : BitVec 16) : Bool :=
  (u.wr.any fun r => r != 0#5 && u.rd.contains r && !wroteR.getLsbD r.toNat) ||
    u.wp.any fun p => p != 0#4 && (g :: u.rp).contains p && !wroteP.getLsbD p.toNat

/-- A mask with the numbers of a list set. -/
def setAll32 (m : BitVec 32) (rs : List (BitVec 5)) : BitVec 32 :=
  rs.foldl (fun acc r => if r = 0#5 then acc else acc ||| (1#32 <<< r.toNat)) m

/-- A mask with the numbers of a list set. -/
def setAll16 (m : BitVec 16) (ps : List (BitVec 4)) : BitVec 16 :=
  ps.foldl (fun acc p => if p = 0#4 then acc else acc ||| (1#16 <<< p.toNat)) m

/-- The thread with a word's reads and writes in its region's masks (R218). -/
def Thread.note (th : Thread) (u : Uses) (g : BitVec 4) : Thread :=
  { th with
    readR := th.readR ||| (setAll32 0#32 u.rd &&& ~~~th.wroteR)
    readP := th.readP ||| (setAll16 0#16 (g :: u.rp) &&& ~~~th.wroteP)
    wroteR := setAll32 th.wroteR u.wr
    wroteP := setAll16 th.wroteP u.wp }

/-- Whether a word is a plain store or a non-returning AMO, which the region buffers (R97). -/
def buffersAccess (i : Instr) : Bool :=
  match i with
  | .stsp .. | .stspi .. | .stsh .. | .stg .. | .sth .. => true
  | .amospAdd _ d _ _ | .amospAnd _ d _ _ | .amospOr _ d _ _ | .amospXor _ d _ _ | .amospMin _ d _ _
  | .amospMax _ d _ _ | .amospSwap _ d _ _ | .amoshAdd _ d _ _ | .amoshAnd _ d _ _ | .amoshOr _ d _ _
  | .amoshXor _ d _ _ | .amoshMin _ d _ _ | .amoshMax _ d _ _ | .amoshSwap _ d _ _ | .amogAdd _ d _ _
  | .amogAnd _ d _ _ | .amogOr _ d _ _ | .amogXor _ d _ _ | .amogMin _ d _ _ | .amogMax _ d _ _
  | .amogSwap _ d _ _ | .amohAdd _ d _ _ | .amohAnd _ d _ _ | .amohOr _ d _ _ | .amohXor _ d _ _
  | .amohMin _ d _ _ | .amohMax _ d _ _ | .amohSwap _ d _ _ => d == 0#5
  | _ => false

/-- The engine function of a CX word and its register b, for a word that names a command (R46, R47). -/
def engineWord (i : Instr) : Option (BitVec 7 × BitVec 5) :=
  match i with
  | .pmode _ _ b => some (0x00#7, b)
  | .pbed _ _ b => some (0x01#7, b)
  | .pbeds _ _ b => some (0x02#7, b)
  | .pmap _ _ b => some (0x03#7, b)
  | .phold _ _ b => some (0x04#7, b)
  | .pflow _ _ b => some (0x05#7, b)
  | .pdrain _ _ b => some (0x06#7, b)
  | .pzero _ _ b => some (0x07#7, b)
  | .pspan _ _ b => some (0x08#7, b)
  | .pstat _ _ _ b => some (0x09#7, b)
  | .sdef _ _ b => some (0x10#7, b)
  | .scnt _ _ b => some (0x11#7, b)
  | .ssub _ _ b => some (0x12#7, b)
  | .sgo _ _ b => some (0x13#7, b)
  | .sstop _ _ b => some (0x14#7, b)
  | .sunf _ _ b => some (0x15#7, b)
  | .srgp _ _ b => some (0x16#7, b)
  | .shash _ _ b => some (0x17#7, b)
  | .cpshape _ _ b => some (0x20#7, b)
  | .cpy _ _ b => some (0x21#7, b)
  | .cpyr _ _ b => some (0x22#7, b)
  | .cpyf _ _ b => some (0x23#7, b)
  | .gidx _ _ b => some (0x28#7, b)
  | .gath _ _ b => some (0x29#7, b)
  | .scata _ _ b => some (0x2A#7, b)
  | .fload _ _ b => some (0x30#7, b)
  | .fgo _ _ b => some (0x31#7, b)
  | .fstop _ _ b => some (0x32#7, b)
  | .fput _ _ b => some (0x33#7, b)
  | .fget _ _ _ b => some (0x34#7, b)
  | .fstat _ _ _ b => some (0x35#7, b)
  | .tjoin _ _ b => some (0x38#7, b)
  | .treset _ _ b => some (0x39#7, b)
  | .tquery _ _ _ b => some (0x3A#7, b)
  | .gstart _ _ b => some (0x40#7, b)
  | .garm _ _ b => some (0x41#7, b)
  | .gdone _ _ b => some (0x42#7, b)
  | _ => none

/-- Whether an engine function writes a reply (R46). -/
def hasReply (func : BitVec 7) : Bool :=
  func == 0x09#7 || func == 0x34#7 || func == 0x35#7 || func == 0x3A#7

/-- The register that a SETLO or SETSH leaves for the bypass of R65. -/
def setTarget (i : Instr) : Option (BitVec 5) :=
  match i with
  | .setlo _ d _ | .setsh _ d _ => some d
  | _ => none

/-- The bytes of a memory access: sz of CM (R42). -/
def sizeOf (sz : BitVec 2) : Nat := 2 ^ sz.toNat

/-- `sx(off6, 6) × n`, the offset of a plain load or store (R93). -/
def scaledOffset (off : BitVec 6) (sz : BitVec 2) : Word :=
  BitVec.ofInt 64 (off.toInt * (sizeOf sz : Int))

/-- The effective address of a plain load or store (R93). -/
def plainAddr (base : Word) (off : BitVec 6) (sz : BitVec 2) : Word := base + scaledOffset off sz

end Sys2Proof.Machine
end

