-- ==== Sys2Proof/Machine/Issue.lean ====
section
/-! DEFINITION. The issue of a control word (R39, R40): what stands around the effect of every word, its
guard, its traps before it takes effect, the markers of its region, and the thread's next word. -/

namespace Sys2Proof.Machine

/-- How the effect of a word ends: the next word follows; a branch is taken; the word holds its thread
(R55); it holds its thread after a marker that its memory read puts in front of it (R98, R219); or it traps.
The state is the one the effect leaves, before the pc moves and before that marker. -/
inductive Body where
  | done (s : State)
  | taken (s : State) (target : Word) (gap : Nat)
  | hold (s : State)
  | marked (s : State)
  | trap (s : State) (t : Trap)

/-- Whether a word is ILLEGAL in the state the thread is in (R50, R57). -/
def Thread.illegal (th : Thread) (i : Instr) : Bool :=
  !i.wf ||
    match i with
    | .eret _ => !th.sup
    | .mfs _ _ n => !th.sup && 0x100 ≤ n.toNat
    | .mts _ _ n => !th.sup && ((0x10 ≤ n.toNat && n.toNat ≤ 0x17) || 0x100 ≤ n.toNat)
    | _ => false

/-- The traps that stand before the guard is known: ILLEGAL, STALLCOUNT and POISON on the guard (R54,
R58, R340, R350). -/
def Thread.guardTrap (th : Thread) (i : Instr) (c : Ctl) : Option Trap :=
  if th.illegal i then some { code := 0x01#6, tval := (encodeWord i).map (·.setWidth 64) }
  else if th.sbchk && th.short (32 + c.g.toNat) then some { code := 0x06#6 }
  else if c.g != 0#4 && th.poisonP.getLsbD c.g.toNat then some { code := 0x05#6 }
  else none

/-- The traps on the operands of a word whose guard reads 1 (R54, R350). -/
def Thread.operandTrap (th : Thread) (i : Instr) : Option Trap :=
  if th.sbchk && th.shortUse i then some { code := 0x06#6 }
  else if th.poisonUse (uses i) then some { code := 0x05#6 }
  else none

/-- Whether an implicit marker stands in front of a word whatever R218 finds (R97, R219, R220). -/
def Thread.markerBefore (th : Thread) (i : Instr) : Bool :=
  (uses i).before || th.writesRead (uses i) ||
    (buffersAccess i && decide (32 ≤ th.buffered.length)) ||
    ((engineWord i).isSome && decide (16 ≤ th.held.length + th.departing.length) && !th.held.isEmpty)

/-- Whether a word forms a region of its own (R218, R219). -/
def Thread.ownRegion (th : Thread) (i : Instr) (c : Ctl) : Bool :=
  (uses i).after ||
    (if th.markerBefore i then selfUpdate (uses i) c.g 0#32 0#16
     else selfUpdate (uses i) c.g th.wroteR th.wroteP)

/-- The state in which a word takes effect: the implicit marker in front of it, and its reads and writes
in the masks of its region (R218, R219). -/
def State.enter (s : State) (i : Instr) (c : Ctl) : State :=
  let th := s.cur
  if th.sup then s
  else
    let s1 :=
      if th.markerBefore i || th.ownRegion i c then
        (s.marker s.focus.tile s.focus.slot th.pc).modCur fun x => { x with frontReentry := some th.reentry }
      else s
    s1.modCur fun x => x.note (uses i) c.g

/-- The thread with its next word at `pc`, no earlier than `gap` cycles after this one (R40, R52). -/
def Thread.advance (th : Thread) (now gap dist : Nat) (pc : Word) (setReg : Option (BitVec 5)) : Thread :=
  { th with pc := pc, earliest := now + gap, distance := th.distance + dist, lastSet := setReg,
            frontReentry := none, waiting := false }

/-- The state after a word that traps: the trap is taken and the thread issues again no earlier than the
next cycle (R342). -/
def State.trapNow (s : State) (t : Trap) : State :=
  (s.takeTrap s.focus.tile s.focus.slot t).modCur fun th =>
    { th with earliest := s.now + 1, waiting := false }

/-- The state after a word has moved on to `pc`, with the register `set` that it leaves for the bypass of R65
and the marker that a word of its own region has behind it (R219). -/
def State.moveOn (s : State) (set : Option (BitVec 5)) (c : Ctl) (own : Bool) (gap : Nat) (pc : Word) : State :=
  let s1 := s.modCur fun th => th.advance s.now (c.sc.toNat + gap) (c.sc.toNat + Nat.min gap 2) pc set
  if own && !s1.cur.sup then s1.marker s.focus.tile s.focus.slot pc else s1

/-- The state with a marker in front of the word in focus, whose reads and writes stand in the new region's
masks (R217, R218). -/
def State.markWord (s : State) (i : Instr) (c : Ctl) : State :=
  (s.marker s.focus.tile s.focus.slot s.cur.pc).modCur fun x => x.note (uses i) c.g

/-- The end of a word's effect (R40, R55). A word that its own read has put into a new region is tested
against that region (R218). -/
def Body.finish (b : Body) (i : Instr) (c : Ctl) (own : Bool) : State :=
  match b with
  | .done s => s.moveOn (setTarget i) c own 1 (s.cur.pc + 4#64)
  | .taken s t g => s.moveOn (setTarget i) c own g t
  | .hold s => s.modCur fun th => { th with waiting := true, waitOwn := own }
  | .marked s =>
    (s.markWord i c).modCur fun th =>
      { th with waiting := true, waitOwn := (uses i).after || selfUpdate (uses i) c.g 0#32 0#16 }
  | .trap s t => s.trapNow t

/-- Whether a token lies outside the TOKMASK of the thread's group (R307). -/
def State.outsideMask (s : State) (k : Nat) : Bool :=
  match s.group? s.cur.gid with
  | some g => !g.tokmask.getLsbD k
  | none => true

/-- The tokens that a token word names: the consumed bytes of a nonzero level, and the produced token
where produce is enabled (R48). -/
def namedTokens (b : Word) : List Nat :=
  (match produced b with | some k => [k] | none => []) ++
    ([0, 1, 2].filter fun j => decide ((consumed b j).2 ≠ 0)).map fun j => (consumed b j).1

/-- The trap of a word that names a token outside TOKMASK (R56, R307). -/
def tokMaskTrap (k : Nat) : Trap :=
  { code := 0x09#6, tval := some 0x04#64, taux := Word.ofN (256 * k) }

/-- The trap that names the first token of a list that lies outside TOKMASK: a word that names several names the
one it produces, then those it consumes by byte (R56, R307; DESIGN CHOICE, log entry 74). -/
def State.maskTrap (s : State) (ks : List Nat) : Option Trap :=
  (ks.find? s.outsideMask).map tokMaskTrap

/-- Whether a command held in the thread's buffer will produce a token (R220, R276). -/
def Thread.willProduce (th : Thread) (k : Nat) : Bool :=
  (th.held ++ th.departing).any fun h => produced h.b == some k

/-- The tokens that a word with a false guard must not name (R56). -/
def Thread.guardFalseTokens (th : Thread) (i : Instr) : List Nat :=
  match i with
  | .twait _ k _ => [k.toNat]
  | _ =>
    match engineWord i with
    | some (_, b) => namedTokens (th.reg b)
    | none => []

/-- The state with the produced token of a guard-false command SKIPPED, unless it counts as PENDING
(R56, R275); it is the last command that produces the token (R282). -/
def State.skipToken (s : State) (i : Instr) : State :=
  match engineWord i with
  | none => s
  | some (func, b) =>
    match produced (s.cur.reg b) with
    | none => s
    | some k =>
      let t := s.focus.tile
      if (s.token t k).seen.busy || s.cur.willProduce k then s
      else
        s.modToken t k fun x =>
          { x with state := .skipped, cause := 0#6, func := func, prog := 0, frozen := false, poisoned := false, owner := none }

/-- The state after a word whose guard reads 0 (R56): it counts as issued (R420), reads only its guard, costs its
stall count, and leaves no register for the bypass of R65. -/
def State.guardFalse (s : State) (i : Instr) (c : Ctl) : State :=
  let n := 4 * s.focus.tile + s.focus.slot
  let s0 := (s.count 0 n 0).count 0 n 1
  match s0.maskTrap (s0.cur.guardFalseTokens i) with
  | some t => s0.trapNow t
  | none =>
    let s1 := if s0.cur.sup then s0 else s0.modCur fun x => x.note {} c.g
    (s1.skipToken i).moveOn none c false 1 (s1.cur.pc + 4#64)

/-- The state at the start of the cycle: the fixed-latency results due are in their registers (R52). -/
def State.begin (s : State) : State := s.modCur fun th => th.settle s.now

/-- A control word issues in the cycle `s.now` on the thread in focus, or, where it holds the thread, has
its effect looked at again (R39, R40, R55, R58, R340). `body` is the word's own effect. -/
def issueWord (i : Instr) (c : Ctl) (body : State → Body) (s : State) : Host.Outcome State Fault Refusal :=
  let s0 := s.begin
  let th := s0.cur
  if th.waiting then .next ((body s0).finish i c th.waitOwn)
  else
    match th.guardTrap i c with
    | some t => .next (s0.trapNow t)
    | none =>
      if !th.pred c.g then .next (s0.guardFalse i c)
      else
        match th.operandTrap i with
        | some t => .next (s0.trapNow t)
        | none =>
          .next ((body ((s0.count 0 (4 * s.focus.tile + s.focus.slot) 0).enter i c)).finish i c
            (th.ownRegion i c))

/-- A body that writes a fixed-latency result to d. -/
def resultBody (d : BitVec 5) (lat : Nat) (f : Thread → Word) (s : State) : Body :=
  .done (s.modCur fun th => th.result s.now d (f th) lat)

/-- A body that starts a scoreboarded access, or any other change of the thread. -/
def threadBody (f : Thread → Thread) (s : State) : Body := .done (s.modCur f)

end Sys2Proof.Machine
end

