-- ==== Sys2Proof/Machine/Alu.lean ====
section
/-! DEFINITION. The integer, bit-field, immediate and predicate words of the control core (R60 to R69). -/

namespace Sys2Proof.Machine

/-- The leading zero bits of the low `n` bits of a value. -/
def leadingZeros : Nat → Nat → Nat
  | 0, _ => 0
  | n + 1, v => if v / 2 ^ n % 2 = 1 then 0 else 1 + leadingZeros n v

/-- The one bits among the low `n` bits of a value. -/
def onesIn : Nat → Nat → Nat
  | 0, _ => 0
  | n + 1, v => v % 2 + onesIn n (v / 2)

/-- The width of the bit field that s(b) names, cut at bit 63 (R63). -/
def fieldWidth (b : Word) : Nat := Nat.min (bits b 13 8 + 1) (64 - bits b 5 0)

/-- The bit field of a value that s(b) names (R63). -/
def fieldOf (a b : Word) : Nat := a.toNat / 2 ^ bits b 5 0 % 2 ^ fieldWidth b

/-- The value v with the low bits of `a` in the field that s(b) names (R63). -/
def insertField (v a b : Word) : Word :=
  let m : Word := Word.ofN ((2 ^ fieldWidth b - 1) * 2 ^ bits b 5 0)
  (v &&& ~~~m) ||| ((a <<< bits b 5 0) &&& m)

/-- `s(d)` as a SETSH reads it: the result still on its way from the SETLO or SETSH of the same d that
issued just before, and else the register (R65). -/
def Thread.newest (th : Thread) (d : BitVec 5) : Word :=
  if th.lastSet = some d then
    match (th.pend.filter fun p => p.reg == d.toNat).getLast? with
    | some p => p.value
    | none => th.reg d
  else th.reg d

/-- A body that writes a predicate, and its complement to pd xor 1 where `pair` is 1 (R67). -/
def predBody (pd : BitVec 4) (pair : BitVec 1) (f : Thread → Bool) (s : State) : Body :=
  .done (s.modCur fun th =>
    let th1 := th.predResult s.now pd (f th)
    if pair = 1#1 then th1.predResult s.now (pd ^^^ 1#4) (!f th) else th1)

/-- Whether the divider of the tile in focus serves a division (R62). -/
def State.dividerBusy (s : State) : Bool := (s.tile s.focus.tile).divider.isSome

/-- Quotient, remainder and whether DZ is posted (R61). -/
def divide (signed : Bool) (a b : Word) : Word × Word × Bool :=
  if b = 0#64 then (BitVec.allOnes 64, a, true)
  else if signed then
    if a = 0x8000000000000000#64 && b = BitVec.allOnes 64 then (a, 0#64, false)
    else (BitVec.ofInt 64 (a.toInt.tdiv b.toInt), BitVec.ofInt 64 (a.toInt.tmod b.toInt), false)
  else (Word.ofN (a.toNat / b.toNat), Word.ofN (a.toNat % b.toNat), false)

/-- A division started on the tile's divider, its result scoreboarded in d and written at most 68 cycles
later (R61, R62; DESIGN CHOICE 68, log entry 8). -/
def divideBody (signed quotient : Bool) (d a b : BitVec 5) (s : State) : Body :=
  let th := s.cur
  let (q, r, dz) := divide signed (th.reg a) (th.reg b)
  let v := if quotient then q else r
  let s1 := s.modCur fun x => x.await { id := 0, dst := d, src := .division, due := s.now + 68 }
  .done (s1.modTile s.focus.tile fun t =>
    { t with divider := some ⟨s.focus.slot, s.cur.gid, d, v, dz, s.now + 68⟩ })

/-- ADD (R60): d := s(a) + s(b). -/
def execAdd (c : Ctl) (d a b : BitVec 5) (s : State) : Host.Outcome State Fault Refusal :=
  issueWord (.add c d a b) c
    (resultBody d 2 fun th => th.reg a + th.reg b) s

/-- SUB (R60): d := s(a) − s(b). -/
def execSub (c : Ctl) (d a b : BitVec 5) (s : State) : Host.Outcome State Fault Refusal :=
  issueWord (.sub c d a b) c
    (resultBody d 2 fun th => th.reg a - th.reg b) s

/-- AND (R60): d := s(a) AND s(b). -/
def execAnd (c : Ctl) (d a b : BitVec 5) (s : State) : Host.Outcome State Fault Refusal :=
  issueWord (.and c d a b) c
    (resultBody d 2 fun th => th.reg a &&& th.reg b) s

/-- OR (R60): d := s(a) OR s(b). -/
def execOr (c : Ctl) (d a b : BitVec 5) (s : State) : Host.Outcome State Fault Refusal :=
  issueWord (.or c d a b) c
    (resultBody d 2 fun th => th.reg a ||| th.reg b) s

/-- XOR (R60): d := s(a) XOR s(b). -/
def execXor (c : Ctl) (d a b : BitVec 5) (s : State) : Host.Outcome State Fault Refusal :=
  issueWord (.xor c d a b) c
    (resultBody d 2 fun th => th.reg a ^^^ th.reg b) s

/-- ANDN (R60): d := s(a) AND NOT s(b). -/
def execAndn (c : Ctl) (d a b : BitVec 5) (s : State) : Host.Outcome State Fault Refusal :=
  issueWord (.andn c d a b) c
    (resultBody d 2 fun th => th.reg a &&& ~~~(th.reg b)) s

/-- SHL (R60): zeros shifted in from the right by s(b)[5:0]. -/
def execShl (c : Ctl) (d a b : BitVec 5) (s : State) : Host.Outcome State Fault Refusal :=
  issueWord (.shl c d a b) c
    (resultBody d 2 fun th => th.reg a <<< bits (th.reg b) 5 0) s

/-- SHR (R60): zeros shifted in from the left by s(b)[5:0]. -/
def execShr (c : Ctl) (d a b : BitVec 5) (s : State) : Host.Outcome State Fault Refusal :=
  issueWord (.shr c d a b) c
    (resultBody d 2 fun th => th.reg a >>> bits (th.reg b) 5 0) s

/-- SRA (R60): copies of bit 63 shifted in by s(b)[5:0]. -/
def execSra (c : Ctl) (d a b : BitVec 5) (s : State) : Host.Outcome State Fault Refusal :=
  issueWord (.sra c d a b) c
    (resultBody d 2 fun th => (th.reg a).sshiftRight (bits (th.reg b) 5 0)) s

/-- MIN (R60): the signed minimum. -/
def execMin (c : Ctl) (d a b : BitVec 5) (s : State) : Host.Outcome State Fault Refusal :=
  issueWord (.min c d a b) c
    (resultBody d 2 fun th => if (th.reg b).slt (th.reg a) then th.reg b else th.reg a) s

/-- MAX (R60): the signed maximum. -/
def execMax (c : Ctl) (d a b : BitVec 5) (s : State) : Host.Outcome State Fault Refusal :=
  issueWord (.max c d a b) c
    (resultBody d 2 fun th => if (th.reg a).slt (th.reg b) then th.reg b else th.reg a) s

/-- MINU (R60): the unsigned minimum. -/
def execMinu (c : Ctl) (d a b : BitVec 5) (s : State) : Host.Outcome State Fault Refusal :=
  issueWord (.minu c d a b) c
    (resultBody d 2 fun th => if (th.reg b).ult (th.reg a) then th.reg b else th.reg a) s

/-- MAXU (R60): the unsigned maximum. -/
def execMaxu (c : Ctl) (d a b : BitVec 5) (s : State) : Host.Outcome State Fault Refusal :=
  issueWord (.maxu c d a b) c
    (resultBody d 2 fun th => if (th.reg a).ult (th.reg b) then th.reg b else th.reg a) s

/-- CLZ (R60): the leading zero bits of s(a), 64 for zero. -/
def execClz (c : Ctl) (d a : BitVec 5) (s : State) : Host.Outcome State Fault Refusal :=
  issueWord (.clz c d a) c
    (resultBody d 2 fun th => Word.ofN (leadingZeros 64 (th.reg a).toNat)) s

/-- POPC (R60): the one bits of s(a). -/
def execPopc (c : Ctl) (d a : BitVec 5) (s : State) : Host.Outcome State Fault Refusal :=
  issueWord (.popc c d a) c
    (resultBody d 2 fun th => Word.ofN (onesIn 64 (th.reg a).toNat)) s

/-- SEXT (R60): s(a) sign-extended from bit s(b)[5:0]. -/
def execSext (c : Ctl) (d a b : BitVec 5) (s : State) : Host.Outcome State Fault Refusal :=
  issueWord (.sext c d a b) c
    (resultBody d 2 fun th => sx (th.reg a).toNat (bits (th.reg b) 5 0 + 1)) s

/-- MUL (R61): the low 64 bits of the product, latency 4. -/
def execMul (c : Ctl) (d a b : BitVec 5) (s : State) : Host.Outcome State Fault Refusal :=
  issueWord (.mul c d a b) c
    (resultBody d 4 fun th => th.reg a * th.reg b) s

/-- MULH (R61): the high 64 bits of the signed product, latency 4. -/
def execMulh (c : Ctl) (d a b : BitVec 5) (s : State) : Host.Outcome State Fault Refusal :=
  issueWord (.mulh c d a b) c
    (resultBody d 4 fun th => BitVec.ofInt 64 ((th.reg a).toInt * (th.reg b).toInt / 2 ^ 64)) s

/-- MULHU (R61): the high 64 bits of the unsigned product, latency 4. -/
def execMulhu (c : Ctl) (d a b : BitVec 5) (s : State) : Host.Outcome State Fault Refusal :=
  issueWord (.mulhu c d a b) c
    (resultBody d 4 fun th => Word.ofN ((th.reg a).toNat * (th.reg b).toNat / 2 ^ 64)) s

/-- DIV (R61, R62): the signed quotient, from the tile's one divider; the word does not issue while the divider is busy. -/
def execDiv (c : Ctl) (d a b : BitVec 5) (s : State) : Host.Outcome State Fault Refusal :=
  if s.dividerBusy && s.begin.cur.pred c.g && !s.cur.waiting then .next s
  else issueWord (.div c d a b) c (divideBody true true d a b) s

/-- DIVU (R61, R62): the unsigned quotient, from the tile's one divider; the word does not issue while the divider is busy. -/
def execDivu (c : Ctl) (d a b : BitVec 5) (s : State) : Host.Outcome State Fault Refusal :=
  if s.dividerBusy && s.begin.cur.pred c.g && !s.cur.waiting then .next s
  else issueWord (.divu c d a b) c (divideBody false true d a b) s

/-- REM (R61, R62): the signed remainder, from the tile's one divider; the word does not issue while the divider is busy. -/
def execRem (c : Ctl) (d a b : BitVec 5) (s : State) : Host.Outcome State Fault Refusal :=
  if s.dividerBusy && s.begin.cur.pred c.g && !s.cur.waiting then .next s
  else issueWord (.rem c d a b) c (divideBody true false d a b) s

/-- REMU (R61, R62): the unsigned remainder, from the tile's one divider; the word does not issue while the divider is busy. -/
def execRemu (c : Ctl) (d a b : BitVec 5) (s : State) : Host.Outcome State Fault Refusal :=
  if s.dividerBusy && s.begin.cur.pred c.g && !s.cur.waiting then .next s
  else issueWord (.remu c d a b) c (divideBody false false d a b) s

/-- BFX (R63): a field of s(a), sign-extended. -/
def execBfx (c : Ctl) (d a b : BitVec 5) (s : State) : Host.Outcome State Fault Refusal :=
  issueWord (.bfx c d a b) c
    (resultBody d 2 fun th => sx (fieldOf (th.reg a) (th.reg b)) (fieldWidth (th.reg b))) s

/-- BFXU (R63): a field of s(a), zero-extended. -/
def execBfxu (c : Ctl) (d a b : BitVec 5) (s : State) : Host.Outcome State Fault Refusal :=
  issueWord (.bfxu c d a b) c
    (resultBody d 2 fun th => Word.ofN (fieldOf (th.reg a) (th.reg b))) s

/-- BFI (R63): the low bits of s(a) put into a field of s(d). -/
def execBfi (c : Ctl) (d a b : BitVec 5) (s : State) : Host.Outcome State Fault Refusal :=
  issueWord (.bfi c d a b) c
    (resultBody d 2 fun th => insertField (th.reg d) (th.reg a) (th.reg b)) s

/-- ROTL (R63): s(a) rotated left by s(b)[5:0]. -/
def execRotl (c : Ctl) (d a b : BitVec 5) (s : State) : Host.Outcome State Fault Refusal :=
  issueWord (.rotl c d a b) c
    (resultBody d 2 fun th => (th.reg a).rotateLeft (bits (th.reg b) 5 0)) s

/-- BSWAP (R63): byte i of the result is byte 7 − i of s(a). -/
def execBswap (c : Ctl) (d a : BitVec 5) (s : State) : Host.Outcome State Fault Refusal :=
  issueWord (.bswap c d a) c
    (resultBody d 2 fun th => Word.ofN (leNat (leBytes 8 (th.reg a).toNat).reverse)) s

/-- ADDI (R64): d := s(a) + sx(imm8, 8). -/
def execAddi (c : Ctl) (d a : BitVec 5) (imm : BitVec 8) (s : State) : Host.Outcome State Fault Refusal :=
  issueWord (.addi c d a imm) c
    (resultBody d 2 fun th => th.reg a + imm.signExtend 64) s

/-- ANDI (R64): d := s(a) AND zx(imm8, 8). -/
def execAndi (c : Ctl) (d a : BitVec 5) (imm : BitVec 8) (s : State) : Host.Outcome State Fault Refusal :=
  issueWord (.andi c d a imm) c
    (resultBody d 2 fun th => th.reg a &&& imm.setWidth 64) s

/-- ORI (R64): d := s(a) OR zx(imm8, 8). -/
def execOri (c : Ctl) (d a : BitVec 5) (imm : BitVec 8) (s : State) : Host.Outcome State Fault Refusal :=
  issueWord (.ori c d a imm) c
    (resultBody d 2 fun th => th.reg a ||| imm.setWidth 64) s

/-- XORI (R64): d := s(a) XOR zx(imm8, 8). -/
def execXori (c : Ctl) (d a : BitVec 5) (imm : BitVec 8) (s : State) : Host.Outcome State Fault Refusal :=
  issueWord (.xori c d a imm) c
    (resultBody d 2 fun th => th.reg a ^^^ imm.setWidth 64) s

/-- SHLI (R64): SHL by imm8[5:0]. -/
def execShli (c : Ctl) (d a : BitVec 5) (imm : BitVec 6) (s : State) : Host.Outcome State Fault Refusal :=
  issueWord (.shli c d a imm) c
    (resultBody d 2 fun th => th.reg a <<< imm.toNat) s

/-- SHRI (R64): SHR by imm8[5:0]. -/
def execShri (c : Ctl) (d a : BitVec 5) (imm : BitVec 6) (s : State) : Host.Outcome State Fault Refusal :=
  issueWord (.shri c d a imm) c
    (resultBody d 2 fun th => th.reg a >>> imm.toNat) s

/-- SRAI (R64): SRA by imm8[5:0]. -/
def execSrai (c : Ctl) (d a : BitVec 5) (imm : BitVec 6) (s : State) : Host.Outcome State Fault Refusal :=
  issueWord (.srai c d a imm) c
    (resultBody d 2 fun th => (th.reg a).sshiftRight imm.toNat) s

/-- SETLO (R65): d := zx(imm13, 13). -/
def execSetlo (c : Ctl) (d : BitVec 5) (imm : BitVec 13) (s : State) : Host.Outcome State Fault Refusal :=
  issueWord (.setlo c d imm) c
    (resultBody d 2 fun _ => imm.setWidth 64) s

/-- SETSH (R65): d := (s(d) << 13) OR imm13, with s(d) read past a SETLO or SETSH of the same d that
issued just before. -/
def execSetsh (c : Ctl) (d : BitVec 5) (imm : BitVec 13) (s : State) : Host.Outcome State Fault Refusal :=
  issueWord (.setsh c d imm) c
    (resultBody d 2 fun th => (th.newest d <<< 13) ||| imm.setWidth 64) s

/-- CMP (R67): the condition on s(a) and s(b) to pd, and its complement to pd xor 1 with `pair`. -/
def execCmp (c : Ctl) (pd : BitVec 4) (cond : BitVec 3) (a b : BitVec 5) (pair : BitVec 1) (s : State) : Host.Outcome State Fault Refusal :=
  issueWord (.cmp c pd cond a b pair) c
    (predBody pd pair fun th => condition cond.toNat 64 (th.reg a).toNat (th.reg b).toNat (th.reg b).toNat) s

/-- CMPI (R67): the condition on s(a) and sx(imm5, 5); BITSET and BITCLR test bit sx(imm5, 5) mod 64. -/
def execCmpi (c : Ctl) (pd : BitVec 4) (cond : BitVec 3) (a imm : BitVec 5) (pair : BitVec 1) (s : State) : Host.Outcome State Fault Refusal :=
  issueWord (.cmpi c pd cond a imm pair) c
    (predBody pd pair fun th => condition cond.toNat 64 (th.reg a).toNat (imm.signExtend 64).toNat (2 ^ bits (imm.signExtend 64) 5 0)) s

/-- PAND (R68): pd := pa AND pb. -/
def execPand (c : Ctl) (pd pa pb : BitVec 4) (s : State) : Host.Outcome State Fault Refusal :=
  issueWord (.pand c pd pa pb) c
    (predBody pd 0#1 fun th => predOp 0 (th.pred pa) (th.pred pb)) s

/-- POR (R68): pd := pa OR pb. -/
def execPor (c : Ctl) (pd pa pb : BitVec 4) (s : State) : Host.Outcome State Fault Refusal :=
  issueWord (.por c pd pa pb) c
    (predBody pd 0#1 fun th => predOp 1 (th.pred pa) (th.pred pb)) s

/-- PXOR (R68): pd := pa XOR pb. -/
def execPxor (c : Ctl) (pd pa pb : BitVec 4) (s : State) : Host.Outcome State Fault Refusal :=
  issueWord (.pxor c pd pa pb) c
    (predBody pd 0#1 fun th => predOp 2 (th.pred pa) (th.pred pb)) s

/-- PANDN (R68): pd := pa AND NOT pb. -/
def execPandn (c : Ctl) (pd pa pb : BitVec 4) (s : State) : Host.Outcome State Fault Refusal :=
  issueWord (.pandn c pd pa pb) c
    (predBody pd 0#1 fun th => predOp 3 (th.pred pa) (th.pred pb)) s

/-- PORN (R68): pd := pa OR NOT pb. -/
def execPorn (c : Ctl) (pd pa pb : BitVec 4) (s : State) : Host.Outcome State Fault Refusal :=
  issueWord (.porn c pd pa pb) c
    (predBody pd 0#1 fun th => predOp 4 (th.pred pa) (th.pred pb)) s

/-- PNAND (R68): pd := NOT (pa AND pb). -/
def execPnand (c : Ctl) (pd pa pb : BitVec 4) (s : State) : Host.Outcome State Fault Refusal :=
  issueWord (.pnand c pd pa pb) c
    (predBody pd 0#1 fun th => predOp 5 (th.pred pa) (th.pred pb)) s

/-- PNOR (R68): pd := NOT (pa OR pb). -/
def execPnor (c : Ctl) (pd pa pb : BitVec 4) (s : State) : Host.Outcome State Fault Refusal :=
  issueWord (.pnor c pd pa pb) c
    (predBody pd 0#1 fun th => predOp 6 (th.pred pa) (th.pred pb)) s

end Sys2Proof.Machine
end

