-- ==== Sys2Proof/Machine/Shapes.lean ====
section
/-! DEFINITION. What the descriptors of the copy engine and of the sieve say (R286 to R292, R406 to R408),
and the checks that a command makes on them when it leaves its buffer. -/

namespace Sys2Proof.Machine

/-! ## Copies (R286 to R291) -/

/-- A field of MODE (R286). -/
def Cmd.mode (c : Cmd) (hi lo : Nat) : Nat := bits (vget c.copy 1 0#64) hi lo

/-- The format of a copy's source or destination code (R286). -/
def Cmd.sfmt (c : Cmd) : Fmt := Fmt.ofTag (BitVec.ofNat 3 (c.mode 12 10))
def Cmd.dfmt (c : Cmd) : Fmt := Fmt.ofTag (BitVec.ofNat 3 (c.mode 15 13))

/-- The bytes of an element on the source side: a byte for CPY, SFMT elsewhere (R289 to R291). -/
def Cmd.srcBytes (c : Cmd) : Nat := if c.func = 0x21#7 then 1 else c.sfmt.bits / 8

/-- The bytes of an element on the destination side (R289 to R291). -/
def Cmd.dstBytes (c : Cmd) : Nat :=
  if c.func = 0x21#7 then 1 else if c.func = 0x22#7 then c.sfmt.bits / 8 else c.dfmt.bits / 8

/-- LEN (R287). -/
def Cmd.len (c : Cmd) : Nat := bits (vget c.copy 2 0#64) 31 0

/-- The repetitions of DIM1 (k = 3) or DIM2 (k = 4), and its two strides (R287). -/
def Cmd.reps (c : Cmd) (k : Nat) : Nat := bits (vget c.copy k 0#64) 63 52 + 1
def Cmd.sstride (c : Cmd) (k : Nat) : Word := sx (bits (vget c.copy k 0#64) 51 26) 26
def Cmd.dstride (c : Cmd) (k : Nat) : Word := sx (bits (vget c.copy k 0#64) 25 0) 26

/-- The elements of a run, and of the whole copy (R289). -/
def Cmd.runElems (c : Cmd) : Nat := c.len / c.srcBytes
def Cmd.elems (c : Cmd) : Nat := c.runElems * c.reps 3 * c.reps 4

/-- The address at which the destination begins: DST + OFF (R289). -/
def Cmd.dstBase (c : Cmd) : Word := vget c.copy 0 0#64 + Word.ofN (bits c.b 31 0)

/-- The address of element `e` of a copy on a side (R289, R291). -/
def walkAddr (base : Word) (s1 s2 : Word) (run n1 size e : Nat) : Word :=
  base + Word.ofN (e / (run * n1)) * s2 + Word.ofN (e / run % n1) * s1 + Word.ofN (e % run * size)

/-- The source address of element `e`. -/
def Cmd.srcAddr (c : Cmd) (e : Nat) : Word :=
  walkAddr c.a (c.sstride 3) (c.sstride 4) c.runElems (c.reps 3) c.srcBytes e

/-- The destination address of element `e`. -/
def Cmd.dstAddr (c : Cmd) (e : Nat) : Word :=
  walkAddr c.dstBase (c.dstride 3) (c.dstride 4) c.runElems (c.reps 3) c.dstBytes e

/-- The space of a two-bit code of MODE (R286). -/
def spaceOfCode (n : Nat) : Space :=
  match n with
  | 0 => .sp
  | 1 => .sh
  | 2 => .g
  | _ => .h

/-- The spaces of a copy (R286). -/
def Cmd.sspace (c : Cmd) : Space := spaceOfCode (c.mode 1 0)
def Cmd.dspace (c : Cmd) : Space := spaceOfCode (c.mode 3 2)

/-- Whether the fields of a copy address of a space are as R288 and R90 lay them out. -/
def fieldsOk (space : Space) (a : Word) : Bool :=
  match space with
  | .sp => bits a 63 44 == 0 && bits a 31 21 == 0
  | .sh => bits a 63 27 == 0 && 1 ≤ bits a 26 24 && bits a 26 24 ≤ 4
  | _ => true

/-- Whether every quantity of a side is a multiple of its element's size (R292). -/
def sideOk (n : Nat) (a s1 s2 : Word) : Bool :=
  a.toNat % n == 0 && s1.toNat % n == 0 && s2.toNat % n == 0

/-- The checks that a copy makes when it leaves its buffer (R292). -/
def Cmd.copyOk (c : Cmd) : Bool :=
  let sf := c.mode 12 10
  let rop := c.mode 21 19
  c.len != 0 && fieldsOk c.sspace c.a && fieldsOk c.dspace c.dstBase &&
    (if c.func = 0x21#7 then true
     else
       (if c.func = 0x22#7 then sf != 3 && sf != 4 && sf != 5 && rop < 6 && (rop < 3 || c.sfmt.isInt)
        else sf != 5 && c.mode 15 13 != 5) &&
       c.len % c.srcBytes == 0 && sideOk c.srcBytes c.a (c.sstride 3) (c.sstride 4) &&
       sideOk c.dstBytes c.dstBase (c.dstride 3) (c.dstride 4))

/-! ## Sieve commands (R406 to R409) -/

/-- The fields of RSHAPE (R406). -/
def Cmd.rshape (c : Cmd) (hi lo : Nat) : Nat := bits (vget c.sieve 1 0#64) hi lo
def Cmd.rowBytes (c : Cmd) : Nat := c.rshape 47 32
def Cmd.rowStride (c : Cmd) : Nat := c.rshape 31 0
def Cmd.rowFmt (c : Cmd) : Fmt := Fmt.ofTag (BitVec.ofNat 3 (c.rshape 50 48))

/-- NROWS (R406). -/
def Cmd.rowCount (c : Cmd) : Nat := bits (vget c.sieve 2 0#64) 31 0

/-- COUNT, IDX and DATA of a sieve command, and the tile of its row area (R407). -/
def Cmd.indexCount (c : Cmd) : Nat := bits c.b 12 0
def Cmd.indexAt (c : Cmd) : Nat := bits c.a 20 0
def Cmd.dataAt (c : Cmd) : Nat := bits c.a 41 21
def Cmd.dataTile (c : Cmd) (tile : Nat) : Nat := if bit c.b 24 then bits c.b 23 13 else tile

/-- The checks that a sieve command makes when it leaves its buffer (R408). -/
def Cmd.sieveOk (c : Cmd) : Bool :=
  let rop := c.rshape 53 51
  let ef := c.rshape 50 48
  let n := c.rowFmt.bits / 8
  1 ≤ c.rowBytes && c.rowBytes ≤ 16384 && c.rowBytes ≤ c.rowStride && c.rowCount != 0 &&
    (if c.func = 0x29#7 then true
     else rop < 4 && ef != 3 && ef != 4 && ef != 5 && (vget c.sieve 0 0#64).toNat % n == 0 &&
       c.rowStride % n == 0 && c.rowBytes % n == 0 && c.dataAt % n == 0)

/-- The address of a row (R409). -/
def Cmd.rowAddr (c : Cmd) (u : Nat) : Word := vget c.sieve 0 0#64 + Word.ofN (u * c.rowStride)

/-- The distinct indices below NROWS, in the order of their first positions (R409). -/
def distinctRows (nrows : Nat) : List Nat → List Nat → List Nat
  | [], seen => seen.reverse
  | u :: rest, seen =>
    if nrows ≤ u || seen.contains u then distinctRows nrows rest seen else distinctRows nrows rest (u :: seen)

/-- The positions from `k` upward at which a list satisfies a test. -/
def positionsOf (f : Nat → Bool) : Nat → List Nat → List Nat
  | _, [] => []
  | k, u :: rest => if f u then k :: positionsOf f (k + 1) rest else positionsOf f (k + 1) rest

/-- The checks of a descriptor that a command of the copy engine or the sieve makes when it leaves its
buffer (R292, R408). -/
def Cmd.descriptorOk (c : Cmd) : Bool :=
  if c.func = 0x21#7 || c.func = 0x22#7 || c.func = 0x23#7 then c.copyOk
  else if c.func = 0x29#7 || c.func = 0x2A#7 then c.sieveOk
  else true

end Sys2Proof.Machine
end

