-- ==== Sys2Proof/Machine/ThreadMem.lean ====
section
/-! DEFINITION. The memory words of a control thread (R90 to R107): loads with forwarding from the open
region, buffered stores, acquire and release, atomics, parameter windows, and the replies that end
them. -/

namespace Sys2Proof.Machine

/-! ## Forwarding (R98) -/

/-- Where a load takes a byte from. -/
inductive ByteSource where
  | memory
  | buffered (b : Byte)
  | atomic
  deriving DecidableEq, Repr

/-- The source of the byte at a place, among buffered accesses listed from the youngest (R98). -/
def byteSource (space : Space) (place : Nat) : List Buffered → ByteSource
  | [] => .memory
  | b :: bs =>
    if b.space = space then
      match b.act with
      | .store size data =>
        if b.place ≤ place && place < b.place + size then
          .buffered (BitVec.ofNat 8 (data.toNat / 2 ^ (8 * (place - b.place)) % 256))
        else byteSource space place bs
      | .amo .. => if b.place ≤ place && place < b.place + 8 then .atomic else byteSource space place bs
    else byteSource space place bs

/-- The sources of `n` bytes from a place upward. -/
def byteSources (space : Space) (bufs : List Buffered) (place : Nat) : Nat → List ByteSource
  | 0 => []
  | n + 1 => byteSource space place bufs :: byteSources space bufs (place + 1) n

/-- The bytes that buffered stores give, `none` for those that memory gives. -/
def forwarded (bs : List ByteSource) : List (Option Byte) :=
  bs.map fun b => match b with | .buffered v => some v | _ => none

/-- Bytes read from memory where nothing was forwarded. -/
def mergeBytes : List (Option Byte) → List Byte → List Byte
  | some b :: fs, _ :: ms => b :: mergeBytes fs ms
  | none :: fs, m :: ms => m :: mergeBytes fs ms
  | [], ms => ms
  | fs, [] => fs.map (·.getD 0#8)

/-- The word that the bytes of a load give (R93). -/
def extend (signed : Bool) (bs : List Byte) : Word :=
  if signed then sx (leNat bs) (8 * bs.length) else Word.ofN (leNat bs)

/-- The cycles of an uncontended load (R259): the place's slice level, or the stack of its device
address. A remote package takes 2,100 and the host 1,400, the least that R259 names. -/
def latencyOf (tile : Nat) (space : Space) (place : Nat) : Nat :=
  match space with
  | .sp => 6
  | .sh =>
    match levelOfPlace .sh place with
    | 1 => 20
    | 2 => 34
    | 3 => 52
    | _ => 76
  | .g =>
    if 2 ^ 60 ≤ place then 2100
    else if dieOfPa place = dieOf tile then 330
    else if dieOfPa place / 4 = dieOf tile / 4 then 390
    else 450
  | .h => 1400

/-- The space of a two-bit code (R45, R286). -/
def spaceOf (c : BitVec 2) : Space :=
  match c.toNat with
  | 0 => .sp
  | 1 => .sh
  | 2 => .g
  | _ => .h

/-! ## Streams of a thread (R111) -/

/-- The committed accesses of one space that have not been performed. -/
def Thread.streamOf (th : Thread) (space : Space) : List InFlight := th.inflight.filter fun f => f.buf.space == space

/-- Whether no read of the thread to the spaces of a list still stands behind earlier accesses. -/
def Thread.readsDone (th : Thread) (spaces : List Space) : Bool :=
  th.outstanding.all fun o => o.queued.isNone || !spaces.contains o.space

/-- Whether every earlier access of the thread to the spaces of a list is performed. -/
def Thread.performed (th : Thread) (spaces : List Space) : Bool :=
  (th.inflight.all fun f => !spaces.contains f.buf.space) && th.readsDone spaces

/-- Whether a committed access that is not performed is visible at a scope (R335). -/
def InFlight.visibleAt (f : InFlight) (scope : Nat) : Bool :=
  f.passed && decide (scope ≤ earlyScope f.buf.space)

/-- Whether every earlier access of the thread to the spaces of a list is performed or visible at a scope. -/
def Thread.visible (th : Thread) (scope : Nat) (spaces : List Space) : Bool :=
  (th.inflight.all fun f => !spaces.contains f.buf.space || f.visibleAt scope) && th.readsDone spaces

/-- Whether a read that stands behind earlier accesses goes before the later accesses to a space: one of its stream
(R111), or an acquire (R102). -/
def Outstanding.leads (o : Outstanding) (space : Space) : Bool := o.queued.any fun q => o.space == space || q.acquire

/-- Whether an access to a space has to wait before it is performed: for the thread's earlier accesses of that
stream (R95, R98, R111, R330), at tile scope for every store of its earlier regions (R247), and for an acquire ahead of
it (R102). -/
def Thread.mustWait (th : Thread) (space : Space) : Bool :=
  (th.inflight.any fun f => f.buf.space == space || !f.passed) || th.outstanding.any fun o => o.leads space

/-- The four spaces. -/
def allSpaces : List Space := [.sp, .sh, .g, .h]

/-- Whether all that a release of the thread in focus covers is visible at a scope: its own earlier accesses, and what
it may have read (R106, R314, R335). -/
def State.released (s : State) (scope : Nat) : Bool :=
  s.cur.visible scope allSpaces && s.coverable s.focus.tile scope

/-- The scope that a space implies for an atomic (R90, R106): tile, the slice's level, package or system. -/
def impliedScope (space : Space) (place : Nat) : Nat :=
  match space with
  | .sp => 0
  | .sh => levelOfPlace .sh place
  | .g => 6
  | .h => 7

/-- Whether the granules that a load reads from memory are poisoned. An access lies in one granule
(R100). -/
def State.loadPoisoned (s : State) (tile gid : Nat) (space : Space) (place : Nat)
    (taken : List (Option Byte)) : Bool :=
  taken.any Option.isNone && s.placePoisoned tile gid space place

/-- The trap of a memory word (R92, R99, R341). -/
def memTrap (e : AccessErr) (addr : Word) (detail : BitVec 32) : Trap :=
  { code := e.code, reason := e.reason, detail := detail, tval := some addr, style := .memory }

/-- The state with the gateway's record of a request that it has dropped at the word that made it (R349). -/
def State.notDropped (s : State) (e : AccessErr) (addr : Word) : State :=
  if e = errAccess 10 then s.gatewayRecord s.focus.tile (s.focus.tile / 16) s.focus.slot s.cur.gid addr else s

/-- The trap of a memory word that fails a check. -/
def State.memFault (s : State) (e : AccessErr) (addr : Word) (detail : BitVec 32) : Body :=
  .trap (s.notDropped e addr) (memTrap e addr detail)

/-- The last two checks of a read at a place (R92, R340): poison, then the way to it. -/
def State.readFault (s : State) (tile gid : Nat) (space : Space) (place : Nat) (taken : List (Option Byte)) :
    Option AccessErr :=
  if s.loadPoisoned tile gid space place taken then some errPoison
  else if taken.any Option.isNone then s.linkFault tile space place
  else none

/-! ## Loads -/

/-- The operands of a word as its first look at them read them (R59): a word that waits keeps those. -/
def Thread.operands (th : Thread) (a b d : BitVec 5) : Word × Word × Word :=
  if th.waiting then (th.latchA, th.latchB, th.latchD) else (th.reg a, th.reg b, th.reg d)

/-- The state with the operands of a word that waits kept. -/
def State.latch (s : State) (o : Word × Word × Word) : State :=
  s.modCur fun th => { th with latchA := o.1, latchB := o.2.1, latchD := o.2.2 }

/-- The cycle from which a further access of a thread to SP may be served: behind its loads that wait for a bank
(R262). -/
def Thread.replayEnd (th : Thread) : Nat :=
  ((th.outstanding.filter fun o => o.src == .load && o.space == .sp && o.queued.isNone).map (·.due - 6)).foldl Nat.max 0

/-- The bank of the scratchpad that a read takes, if it reads memory there. -/
def State.readBank (s : State) (space : Space) (place : Nat) (net : Bool) : Option Nat :=
  if net && space == .sp then s.bankOf s.focus.tile s.cur.gid .sp place else none

/-- The state after an access that reads has been performed with a value, which its register awaits, its
request on its way where it leaves the tile; a wait for a bank of the scratchpad adds its length (R53, R95, R252,
R259, R262). -/
def State.awaitRead (s : State) (space : Space) (d : BitVec 5) (place : Nat) (addr : Word) (v : Word)
    (net : Bool) : State :=
  let t := s.focus.tile
  let th := s.cur
  let b := (if net && space == .g then s.noteRead t place 8 else s).takeBank (s.readBank space place net) th.gid th.replayEnd
  let s1 := b.2.modCur fun x => x.await
    { id := 0, dst := d, src := .load, value := some v, space := space, place := place,
      due := s.now + latencyOf t space place + b.1, inNet := net && space != .sp, va := addr }
  if net then s1.send t s.focus.slot space place (.load t s.focus.slot th.nextLoad) else s1

/-- The state after a load whose place is known has been performed (R95, R98, R111). -/
def State.startLoad (s : State) (space : Space) (d : BitVec 5) (place : Nat) (addr : Word) (size : Nat)
    (signed : Bool) (taken : List (Option Byte)) : State :=
  s.awaitRead space d place addr
    (extend signed (mergeBytes taken (s.loadBytes s.focus.tile s.cur.gid space place size)))
    (taken.any Option.isNone)

/-- The state with a read of the thread in focus behind its earlier accesses, the thread going on (R95, R111, R240). -/
def State.queueRead (s : State) (space : Space) (d : BitVec 5) (addr : Word) (q : QueuedRead) : State :=
  s.modCur fun x => x.await
    { id := 0, dst := d, src := .load, space := space, place := q.places.headD 0, va := addr,
      queued := some { q with after := x.nextSid } }

/-- The places of `n` bytes from a place upward. -/
def placesFrom (place n : Nat) : List Nat := (List.range n).map (place + ·)

/-- A load of `size` bytes at `addr` to d (R92, R93, R98), performed at once, or behind the accesses that stand before
it, the thread going on (R240; DEDUCED, log entry 19); `post` is the register that a post-increment form writes, and
`o` the operands that it keeps while a marker in front of it commits its region. -/
def loadBody (space : Space) (d : BitVec 5) (o : Word × Word × Word) (addr : Word) (size : Nat) (signed : Bool)
    (detail : BitVec 32) (post : Thread → Thread) (s : State) : Body :=
  let t := s.focus.tile
  match s.resolve (.tile t) t s.cur.gid space addr size needLoad with
  | .error e => s.memFault e addr detail
  | .ok (place, s1) =>
    let srcs := byteSources space s1.cur.buffered.reverse place size
    let taken := forwarded srcs
    if srcs.contains .atomic then .marked (s1.latch o)
    else
      match s1.readFault t s1.cur.gid space place taken with
      | some e => s1.memFault e addr detail
      | none =>
        if s1.cur.mustWait space then
          .done ((s1.modCur post).queueRead space d addr { places := placesFrom place size, taken := taken, signed := signed })
        else .done ((s1.modCur post).startLoad space d place addr size signed taken)

/-- A plain load (R93). -/
def plainLoad (space : Space) (d a : BitVec 5) (off : BitVec 6) (sz : BitVec 2) (signed : Bool) (s : State) : Body :=
  let o := s.cur.operands a 0#5 0#5
  loadBody space d o (plainAddr o.1 off sz) (sizeOf sz) signed 0#32 id s

/-- The end of a load whose value is known (R53): its register is written. -/
def State.finishLoad (s : State) (tile slot : Nat) (o : Outstanding) (v : Word) : State :=
  s.modThread tile slot fun th =>
    let th' := th.settle s.now
    { th'.setReg o.dst v with outstanding := th'.outstanding.filter fun x => x.id != o.id }

/-- A load's reply (R53, R93): not before its latency has passed and its reply has reached the tile. -/
def State.loadReply (s : State) (tile slot k : Nat) : State :=
  match (s.thread tile slot).outstanding.find? fun o => o.id == k && (o.src == .load || o.src == .value) with
  | none => s
  | some o =>
    if s.now < o.due || o.inNet then s
    else
      match o.value with
      | some v => s.finishLoad tile slot o v
      | none => s

/-! ## Stores -/

/-- The state with one access of the thread in focus committed by itself. -/
def State.commitOne (s : State) (b : Buffered) : State :=
  s.modCur fun x =>
    { x with inflight := x.inflight ++ toInFlight s.now x.regionNo x.netclass x.nextSid [b], nextSid := x.nextSid + 1,
             regionNo := x.regionNo + 1 }

/-- The state with an access buffered in the open region, or, in supervisor state, on its way at once
(R96, R97). -/
def State.buffer (s : State) (b : Buffered) : State :=
  let th := s.cur
  if th.sup then s.commitOne b
  else s.modCur fun x => { x with buffered := x.buffered ++ [b] }

/-- A store of the `size` low bytes of a value (R92, R93, R96, R97). -/
def storeBody (space : Space) (addr : Word) (size : Nat) (data : Word) (post : Thread → Thread)
    (s : State) : Body :=
  let t := s.focus.tile
  match s.resolve (.tile t) t s.cur.gid space addr size needStore with
  | .error e => s.memFault e addr 0#32
  | .ok (place, s1) => .done ((s1.buffer ⟨space, place, addr, .store size data⟩).modCur post)

/-- A plain store (R93). -/
def plainStore (space : Space) (d a : BitVec 5) (off : BitVec 6) (sz : BitVec 2) (s : State) : Body :=
  storeBody space (plainAddr (s.cur.reg a) off sz) (sizeOf sz) (s.cur.reg d) id s

/-- The increment that a post-increment form writes to a, whose value is `base` (R94). -/
def postIncrement (now : Nat) (a : BitVec 5) (base : Word) (off : BitVec 6) (sz : BitVec 2) (th : Thread) : Thread :=
  th.result now a (base + scaledOffset off sz) 2

/-- The thread with one of its committed accesses no longer in flight. -/
def Thread.landed (th : Thread) (sid : Nat) : Thread :=
  { th with inflight := th.inflight.filter fun f => f.sid != sid }

/-- The reads of a thread that stand in front of a committed access (R111). -/
def Thread.readsBefore (th : Thread) (f : InFlight) : List Outstanding :=
  th.outstanding.filter fun o => o.queued.any fun q => decide (q.after ≤ f.sid)

/-- Whether the committed access at the head of its stream may be performed: its request has reached its end,
every access of an earlier region is visible at tile scope (R248, R256), every read of its stream and every acquire
ahead of it is performed (R102, R111), and, of an atomic, every earlier access at the scope that its space implies, for
it is a release (R106). -/
def Thread.mayPerform (th : Thread) (f : InFlight) : Bool :=
  !f.inNet && (th.inflight.all fun x => decide (f.region ≤ x.region) || x.passed) &&
    ((th.readsBefore f).all fun o => !o.leads f.buf.space) &&
    (match f.buf.act with
     | .store .. => true
     | .amo .. =>
       (th.readsBefore f).isEmpty && th.inflight.all fun x =>
         decide (f.sid ≤ x.sid) || x.visibleAt (impliedScope f.buf.space f.buf.place))

/-- Whether a thread's access writes far (R335). -/
def farAway (tile : Nat) (b : Buffered) : Bool := farPlace tile b.space b.place

/-- The state with the acknowledgement of a performed access on its way back to the tile, on channel 2 or, of an
express request, in the express reply queues (R252, R253, R260). It takes room and has no further effect. -/
def State.acknowledge (s : State) (tile slot : Nat) (f : InFlight) : State :=
  if f.buf.space = .sp then s
  else s.replyFrom tile f.express f.buf.space f.buf.place s.now ((s.ownerOf (s.thread tile slot).gid).getD 0) .plain

/-- The cycle from which a committed access of a thread may be served by its bank: one to SP behind the thread's loads
there (R262). -/
def Thread.serveFrom (th : Thread) (f : InFlight) : Nat := if f.buf.space = .sp then th.replayEnd else 0

/-- Whether the bank of a committed access is its own now: the cycle that it has booked has come, or the bank is free
(R262, R265). -/
def State.bankReady (s : State) (tile gid from_ : Nat) (f : InFlight) : Bool :=
  match f.booked with
  | some c => decide (c ≤ s.now)
  | none => (s.bankOf tile gid f.buf.space f.buf.place).all fun k => s.bankCycle k from_ == s.now

/-- The state with the next free cycle of its bank booked for a committed access (R262). -/
def State.bookBank (s : State) (tile slot gid from_ : Nat) (f : InFlight) : State :=
  if f.booked.isSome then s
  else
    let b := s.takeBank (s.bankOf tile gid f.buf.space f.buf.place) gid from_
    b.2.modThread tile slot fun x =>
      { x with inflight := x.inflight.map fun y => if y.sid == f.sid then { y with booked := some (s.now + b.1) } else y }

/-- Whether a committed access may be performed, and covers nothing that is not visible at the scope that an atomic
implies (R106, R314). -/
def State.mayLand (s : State) (tile slot : Nat) (f : InFlight) : Bool :=
  (s.thread tile slot).mayPerform f &&
    (match f.buf.act with
     | .store .. => true
     | .amo .. => s.coverable tile (impliedScope f.buf.space f.buf.place))

/-- Whether a committed access is a store that leaves the die before it is performed: a far one that no gateway
drops and no poison stops (R323, R335, R349). -/
def State.leavesDie (s : State) (tile gid : Nat) (b : Buffered) : Bool :=
  farAway tile b && !s.gatewayDrops ((s.ownerOf gid).getD 0) tile b.space b.place &&
    !s.placePoisoned tile gid b.space b.place &&
    (match b.act with
     | .store .. => true
     | .amo .. => false)

/-- The state with a far store sent on its way out of the die, and its access noted as past that point (R335). -/
def State.sendStore (s : State) (tile slot gid : Nat) (f : InFlight) : State :=
  match f.buf.act with
  | .store size data =>
    (s.sendFar tile gid (.access slot f.sid) f.buf.space f.buf.place f.buf.va false (leBytes size data.toNat)).modThread
      tile slot fun x =>
        { x with inflight := x.inflight.map fun y => if y.sid == f.sid then { y with passed := true } else y }
  | .amo .. => s

/-- The acknowledgement of a thread's oldest committed access to a space (R221, R248, R256, R335), once its bank
is its own (R262, R265): a far store is visible in the die as it leaves it, and ends once it has been performed. -/
def State.storeAck (s : State) (tile slot : Nat) (space : Space) : State :=
  let th := s.thread tile slot
  match th.streamOf space with
  | [] => s
  | f :: _ =>
    let ended (a : State) : State := (a.acknowledge tile slot f).modThread tile slot fun x => x.landed f.sid
    if f.passed then (if s.farAccess tile slot f.sid then s else ended s)
    else if !s.mayLand tile slot f then s
    else if !s.bankReady tile th.gid (th.serveFrom f) f then s.bookBank tile slot th.gid (th.serveFrom f) f
    else
      let s0 := if f.booked.isSome then s else (s.takeBank (s.bankOf tile th.gid f.buf.space f.buf.place) th.gid).2
      if s0.leavesDie tile th.gid f.buf then s0.sendStore tile slot th.gid f
      else ended (s0.perform tile slot th.gid f.buf)

/-! ## The memory interface (R112, R256, R330) -/

/-- Where a place lies for R330: the controller of a stack of the package, or another package. -/
def destinationOf (place : Nat) : Nat :=
  if 2 ^ 60 ≤ place then 16 + (place - 2 ^ 60) / 2 ^ 41 else stackOf place

/-- Whether a committed access may be presented while an earlier one of its stream is not performed: both go to
one destination (R330) and in one class (R112). -/
def InFlight.follows (f x : InFlight) : Bool :=
  x.buf.space != f.buf.space ||
    (x.express == f.express && (f.buf.space != .g || destinationOf x.buf.place == destinationOf f.buf.place))

/-- The committed accesses of a list, those of `earlier` before it, that the memory interface presents now. -/
def toPresent (earlier : List InFlight) : List InFlight → List InFlight
  | [] => []
  | f :: fs => (if !f.sent && earlier.all f.follows then [f] else []) ++ toPresent (earlier ++ [f]) fs

/-- The memory interface presents the committed accesses of a thread, each stream in its order (R256). -/
def State.presentStores (s : State) (tile slot : Nat) : State :=
  let th := s.thread tile slot
  let out := toPresent [] th.inflight
  let s1 := out.foldl (fun a f =>
    a.present tile (a.requestPacket th.gid f.express f.buf.space f.buf.place (.store tile slot f.sid))) s
  s1.modThread tile slot fun x =>
    { x with inflight := x.inflight.map fun f =>
        if out.any fun y => y.sid == f.sid then { f with sent := true, since := s.now } else f }

/-! ## Acquire, release and returning atomics -/

/-- LDACQ (R102, R104): once every earlier access of its stream is performed, it reads, and every later
access follows; the thread goes on (R240). -/
def acquireBody (d a : BitVec 5) (space : Space) (size : Nat) (s : State) : Body :=
  let o := s.cur.operands a 0#5 d
  let t := s.focus.tile
  match s.resolve (.tile t) t s.cur.gid space o.1 size needLoad with
  | .error e => s.memFault e o.1 0#32
  | .ok (place, s1) =>
    match s1.readFault t s1.cur.gid space place (List.replicate size none) with
    | some e => s1.memFault e o.1 0#32
    | none =>
      if s1.cur.mustWait space then
        .done (s1.queueRead space d o.1
          { places := placesFrom place size, taken := List.replicate size none, acquire := true })
      else .done (s1.startLoad space d place o.1 size false (List.replicate size none))

/-- STREL (R102, R104): its store is on its way once every earlier store and atomic of the thread is visible at
the scope, and no discard repeats it from then on; its word ends when the store is performed. The second latch
holds, once the store is on its way, one more than its order in the thread. -/
def releaseBody (d a : BitVec 5) (space : Space) (scope : Nat) (size : Nat) (s : State) : Body :=
  let o := s.cur.operands a 0#5 d
  let t := s.focus.tile
  if o.2.1 ≠ 0#64 then
    (if s.cur.inflight.any fun f => f.sid + 1 == o.2.1.toNat then .hold s else .done s)
  else
    match s.resolve (.tile t) t s.cur.gid space o.1 size needStore with
    | .error e => s.memFault e o.1 0#32
    | .ok (place, s1) =>
      if !s1.released scope then .hold (s1.latch o)
      else
        .hold (((s1.commitOne ⟨space, place, o.1, .store size o.2.2⟩).modCur fun th =>
          { th with resume := th.pc + 4#64 }).latch (o.1, Word.ofN (s1.cur.nextSid + 1), o.2.2))

/-- An atomic of a thread on the 8 bytes at s(a) (R105, R106): without d it is buffered; with d it is performed as one
access, after the thread's earlier accesses, and returns the old value, the thread going on (R240). -/
def atomicBody (space : Space) (op : AmoOp) (d a b : BitVec 5) (s : State) : Body :=
  let o := s.cur.operands a b d
  let t := s.focus.tile
  match s.resolve (.tile t) t s.cur.gid space o.1 8 (if d = 0#5 then needAmo else needAmo.learns) with
  | .error e => s.memFault e o.1 0#32
  | .ok (place, s1) =>
    if d = 0#5 then .done (s1.buffer ⟨space, place, o.1, .amo op o.2.1⟩)
    else
      match s1.readFault t s1.cur.gid space place [none] with
      | some e => s1.memFault e o.1 0#32
      | none =>
        if s1.cur.mustWait space || !s1.released (impliedScope space place) then
          .done (s1.queueRead space d o.1
            { places := placesFrom place 8, taken := List.replicate 8 none, amo := some (op, o.2.1, o.2.2), acquire := true })
        else
        let old := leNat (s1.loadBytes t s1.cur.gid space place 8)
        let new := op.apply 64 old o.2.1.toNat o.2.2.toNat
        .done ((s1.writeOver t s1.cur.gid space place (leBytes 8 new)).awaitRead space d place o.1 (Word.ofN old) true)

/-! ## Reads behind earlier accesses (R95, R111, R240) -/

/-- Whether a read that stands behind earlier accesses of its thread may be performed: those of its stream, every store
of its earlier regions at tile scope, and every acquire ahead of it (R102, R247); an atomic is a release too (R106). -/
def State.readReady (s : State) (tile slot : Nat) (o : Outstanding) (q : QueuedRead) : Bool :=
  let th := s.thread tile slot
  let ahead := th.inflight.filter fun f => decide (f.sid < q.after)
  let reads := th.outstanding.filter fun x => decide (x.id < o.id) && x.queued.isSome
  let scope := impliedScope o.space o.place
  (ahead.all fun f => f.buf.space != o.space && f.passed) && (reads.all fun x => !x.leads o.space) &&
    (q.amo.isNone || ((ahead.all fun f => f.visibleAt scope) && reads.isEmpty && s.coverable tile scope))

/-- The value of a read: of an atomic the old one. -/
def QueuedRead.value (q : QueuedRead) (bs : List Byte) : Word := extend q.signed (mergeBytes q.taken bs)

/-- The state with what a returning atomic writes in its place (R105). -/
def State.writeAmo (s : State) (tile gid : Nat) (o : Outstanding) (q : QueuedRead) (old : Word) : State :=
  match q.amo with
  | none => s
  | some (op, x, y) => s.writeOver tile gid o.space o.place (leBytes 8 (op.apply 64 old.toNat x.toNat y.toNat))

/-- The state with a read performed that has stood behind earlier accesses (R53, R95, R105, R262): its value is fixed,
and its request sets out. A fault that it meets only now traps as a memory fault of the region open at this moment
(DESIGN CHOICE, log entry 90). -/
def State.readNow (s : State) (tile slot : Nat) (o : Outstanding) (q : QueuedRead) : State :=
  let gid := (s.thread tile slot).gid
  let fromMemory := ((q.places.zip q.taken).filter fun x => x.2.isNone).map (·.1)
  match fromMemory.findSome? fun p => s.readFault tile gid o.space p [none] with
  | some e =>
    (s.modThread tile slot fun th =>
      { th with outstanding := th.outstanding.filter fun x => x.id != o.id }).takeTrap tile slot (memTrap e o.va 0#32)
  | none =>
    let v := q.value (q.places.map (s.byteAt tile gid o.space))
    let net := !fromMemory.isEmpty
    let s1 := s.writeAmo tile gid o q v
    let b := (if net && o.space == .g then s1.noteRead tile o.place 8 else s1).takeBank
      (if net && o.space == .sp then s1.bankOf tile gid .sp o.place else none) gid (s1.thread tile slot).replayEnd
    let s2 := b.2.modThread tile slot fun th =>
      { th with outstanding := th.outstanding.map fun x =>
          if x.id == o.id then
            { x with queued := none, value := some v, inNet := net && o.space != .sp,
                     due := s.now + latencyOf tile o.space o.place + b.1 }
          else x }
    if net then s2.send tile slot o.space o.place (.load tile slot o.id) else s2

/-- The reads of a thread that may be performed now, in their order. -/
def State.performReads (s : State) (tile slot : Nat) : State :=
  (s.thread tile slot).outstanding.foldl (fun a x =>
    match (a.thread tile slot).outstanding.find? fun o => o.id == x.id with
    | some o => (match o.queued with
      | some q => if a.readReady tile slot o q then a.readNow tile slot o q else a
      | none => a)
    | none => a) s

/-! ## Parameter windows (R101, R338) -/

/-- The state with PB or PN posted and counted, and the record of a group's first (R338). -/
def State.postParam (s : State) (f : BitVec 8) (win : Nat) (off : Word) : State :=
  let th := s.cur
  let s1 := s.modCur fun x => { x with flags := x.flags ||| f }
  match s.group? th.gid with
  | none => s1
  | some g =>
    let s2 := s1.modGroup g.gid fun x => { x with paramPosts := x.paramPosts + 1 }
    if 0 < g.paramPosts then s2
    else
      s2.log
        { cause := 0x16, src := 0, unit := s.focus.tile, owner := s.ownerOf g.gid, sub := win,
          addr := off.toNat, die := dieOf s.focus.tile }

/-- The zero that LDPRM writes, scoreboarded. -/
def zeroLoad (d : BitVec 5) (s : State) : State :=
  s.modCur fun x => x.await { id := 0, dst := d, src := .value, value := some 0#64, due := s.now + 6 }

/-- The places of `n` bytes of G from an address upward, each with the checks of R92, from the lowest on: the first byte
that fails one gives the fault (R101; DESIGN CHOICE, log entry 93). -/
def State.resolveEach (s : State) (addr : Word) : Nat → Except AccessErr (List Nat × State)
  | 0 => .ok ([], s)
  | n + 1 =>
    match s.resolveEach addr n with
    | .error e => .error e
    | .ok (ps, s1) =>
      (s1.resolve (.tile s.focus.tile) s.focus.tile s.cur.gid .g (addr + Word.ofN n) 1 needLoad).map fun r =>
        (ps ++ [r.1], r.2)

/-- The first fault of a read at the places of a list. -/
def State.readFaults (s : State) (tile gid : Nat) : List Nat → Option AccessErr
  | [] => none
  | p :: ps =>
    match s.readFault tile gid .g p [none] with
    | some e => some e
    | none => s.readFaults tile gid ps

/-- A load of 8 bytes of G at an address that need not be a multiple of 8, for R101 applies steps 3 to 5 of R92
and no alignment: each byte is taken at its own place. -/
def unalignedBody (d : BitVec 5) (o : Word × Word × Word) (addr : Word) (detail : BitVec 32) (s : State) : Body :=
  let t := s.focus.tile
  match s.resolveEach addr 8 with
  | .error e => s.memFault e addr detail
  | .ok (ps, s1) =>
    let srcs := ps.map fun p => byteSource .g p s1.cur.buffered.reverse
    let fromMemory := (ps.zip srcs).filter fun x => x.2 == .memory
    if srcs.contains .atomic then .marked (s1.latch o)
    else
      match s1.readFaults t s1.cur.gid (fromMemory.map (·.1)) with
      | some e => s1.memFault e addr detail
      | none =>
        if s1.cur.mustWait .g then .done (s1.queueRead .g d addr { places := ps, taken := forwarded srcs })
        else .done (s1.awaitRead .g d (ps.headD 0) addr
          (Word.ofN (leNat (mergeBytes (forwarded srcs) (ps.map fun p => s1.seenByte t p)))) (!fromMemory.isEmpty))

/-- LDPRM through window `win` (R101). -/
def paramBody (d a : BitVec 5) (off : BitVec 6) (win : BitVec 2) (s : State) : Body :=
  let th := s.cur
  let l := th.operands a 0#5 0#5
  let o := l.1 + Word.ofN (8 * off.toNat)
  let base := vget th.pwbase win.toNat 0#64
  let lim := vget th.pwlim win.toNat 0#32
  if lim = 0#32 then .done (zeroLoad d (s.postParam flagPN win.toNat o))
  else if o.toNat % 8 ≠ 0 then .trap s (memTrap errAlign (base + o) (win.setWidth 32))
  else if lim.toNat < o.toNat + 8 then .done (zeroLoad d (s.postParam flagPB win.toNat o))
  else if (base + o).toNat % 8 = 0 then loadBody .g d l (base + o) 8 false 0#32 id s
  else unalignedBody d l (base + o) 0#32 s

/-- LDPRM (R101): 8 bytes of G through a bounded parameter window. -/
def execLdprm (c : Ctl) (d a : BitVec 5) (off : BitVec 6) (win : BitVec 2) (s : State) : Host.Outcome State Fault Refusal :=
  issueWord (.ldprm c d a off win) c (paramBody d a off win) s

/-- LDSP (R93): a sign-extended load from the scratchpad. -/
def execLdsp (c : Ctl) (d a : BitVec 5) (off : BitVec 6) (sz : BitVec 2) (s : State) : Host.Outcome State Fault Refusal :=
  issueWord (.ldsp c d a off sz) c (plainLoad .sp d a off sz true) s

/-- LDSPU (R93): a zero-extended load from the scratchpad. -/
def execLdspu (c : Ctl) (d a : BitVec 5) (off : BitVec 6) (sz : BitVec 2) (s : State) : Host.Outcome State Fault Refusal :=
  issueWord (.ldspu c d a off sz) c (plainLoad .sp d a off sz false) s

/-- STSP (R96): a buffered store to the scratchpad. -/
def execStsp (c : Ctl) (d a : BitVec 5) (off : BitVec 6) (sz : BitVec 2) (s : State) : Host.Outcome State Fault Refusal :=
  issueWord (.stsp c d a off sz) c (plainStore .sp d a off sz) s

/-- LDSPI (R94): a load at s(a), which then grows by the offset. -/
def execLdspi (c : Ctl) (d a : BitVec 5) (off : BitVec 6) (sz : BitVec 2) (s : State) : Host.Outcome State Fault Refusal :=
  issueWord (.ldspi c d a off sz) c (fun s =>
      let o := s.cur.operands a 0#5 0#5
      loadBody .sp d o o.1 (sizeOf sz) true 0#32 (postIncrement s.now a o.1 off sz) s) s

/-- STSPI (R94): a buffered store at s(a), which then grows by the offset. -/
def execStspi (c : Ctl) (d a : BitVec 5) (off : BitVec 6) (sz : BitVec 2) (s : State) : Host.Outcome State Fault Refusal :=
  issueWord (.stspi c d a off sz) c (fun s => storeBody .sp (s.cur.reg a) (sizeOf sz) (s.cur.reg d) (postIncrement s.now a (s.cur.reg a) off sz) s) s

/-- LDSH (R93): a sign-extended load from a slice. -/
def execLdsh (c : Ctl) (d a : BitVec 5) (off : BitVec 6) (sz : BitVec 2) (s : State) : Host.Outcome State Fault Refusal :=
  issueWord (.ldsh c d a off sz) c (plainLoad .sh d a off sz true) s

/-- LDSHU (R93): a zero-extended load from a slice. -/
def execLdshu (c : Ctl) (d a : BitVec 5) (off : BitVec 6) (sz : BitVec 2) (s : State) : Host.Outcome State Fault Refusal :=
  issueWord (.ldshu c d a off sz) c (plainLoad .sh d a off sz false) s

/-- STSH (R96): a buffered store to a slice. -/
def execStsh (c : Ctl) (d a : BitVec 5) (off : BitVec 6) (sz : BitVec 2) (s : State) : Host.Outcome State Fault Refusal :=
  issueWord (.stsh c d a off sz) c (plainStore .sh d a off sz) s

/-- LDG (R93): a sign-extended load from device memory. -/
def execLdg (c : Ctl) (d a : BitVec 5) (off : BitVec 6) (sz : BitVec 2) (s : State) : Host.Outcome State Fault Refusal :=
  issueWord (.ldg c d a off sz) c (plainLoad .g d a off sz true) s

/-- LDGU (R93): a zero-extended load from device memory. -/
def execLdgu (c : Ctl) (d a : BitVec 5) (off : BitVec 6) (sz : BitVec 2) (s : State) : Host.Outcome State Fault Refusal :=
  issueWord (.ldgu c d a off sz) c (plainLoad .g d a off sz false) s

/-- STG (R96): a buffered store to device memory. -/
def execStg (c : Ctl) (d a : BitVec 5) (off : BitVec 6) (sz : BitVec 2) (s : State) : Host.Outcome State Fault Refusal :=
  issueWord (.stg c d a off sz) c (plainStore .g d a off sz) s

/-- LDH (R93): a sign-extended load from host memory. -/
def execLdh (c : Ctl) (d a : BitVec 5) (off : BitVec 6) (sz : BitVec 2) (s : State) : Host.Outcome State Fault Refusal :=
  issueWord (.ldh c d a off sz) c (plainLoad .h d a off sz true) s

/-- STH (R96): a buffered store to host memory. -/
def execSth (c : Ctl) (d a : BitVec 5) (off : BitVec 6) (sz : BitVec 2) (s : State) : Host.Outcome State Fault Refusal :=
  issueWord (.sth c d a off sz) c (plainStore .h d a off sz) s

/-- LDACQ (R102 to R104): an acquire, which at every scope is one. -/
def execLdacq (c : Ctl) (d a : BitVec 5) (space : BitVec 2) (scope : BitVec 3) (sz : BitVec 1) (s : State) : Host.Outcome State Fault Refusal :=
  issueWord (.ldacq c d a space scope sz) c (acquireBody d a (spaceOf space) (4 * 2 ^ sz.toNat)) s

/-- STREL (R102 to R104): a release at its scope. -/
def execStrel (c : Ctl) (d a : BitVec 5) (space : BitVec 2) (scope : BitVec 3) (sz : BitVec 1) (s : State) : Host.Outcome State Fault Refusal :=
  issueWord (.strel c d a space scope sz) c (releaseBody d a (spaceOf space) scope.toNat (4 * 2 ^ sz.toNat)) s

/-- AMOSP.ADD (R105 to R107). -/
def execAmospAdd (c : Ctl) (d a b : BitVec 5) (s : State) : Host.Outcome State Fault Refusal :=
  issueWord (.amospAdd c d a b) c (atomicBody .sp .add d a b) s

/-- AMOSP.AND (R105 to R107). -/
def execAmospAnd (c : Ctl) (d a b : BitVec 5) (s : State) : Host.Outcome State Fault Refusal :=
  issueWord (.amospAnd c d a b) c (atomicBody .sp .and d a b) s

/-- AMOSP.OR (R105 to R107). -/
def execAmospOr (c : Ctl) (d a b : BitVec 5) (s : State) : Host.Outcome State Fault Refusal :=
  issueWord (.amospOr c d a b) c (atomicBody .sp .or d a b) s

/-- AMOSP.XOR (R105 to R107). -/
def execAmospXor (c : Ctl) (d a b : BitVec 5) (s : State) : Host.Outcome State Fault Refusal :=
  issueWord (.amospXor c d a b) c (atomicBody .sp .xor d a b) s

/-- AMOSP.MIN (R105 to R107). -/
def execAmospMin (c : Ctl) (d a b : BitVec 5) (s : State) : Host.Outcome State Fault Refusal :=
  issueWord (.amospMin c d a b) c (atomicBody .sp .min d a b) s

/-- AMOSP.MAX (R105 to R107). -/
def execAmospMax (c : Ctl) (d a b : BitVec 5) (s : State) : Host.Outcome State Fault Refusal :=
  issueWord (.amospMax c d a b) c (atomicBody .sp .max d a b) s

/-- AMOSP.SWAP (R105 to R107). -/
def execAmospSwap (c : Ctl) (d a b : BitVec 5) (s : State) : Host.Outcome State Fault Refusal :=
  issueWord (.amospSwap c d a b) c (atomicBody .sp .swap d a b) s

/-- AMOSP.CAS (R105 to R107). -/
def execAmospCas (c : Ctl) (d a b : BitVec 5) (s : State) : Host.Outcome State Fault Refusal :=
  issueWord (.amospCas c d a b) c (atomicBody .sp .cas d a b) s

/-- AMOSH.ADD (R105 to R107). -/
def execAmoshAdd (c : Ctl) (d a b : BitVec 5) (s : State) : Host.Outcome State Fault Refusal :=
  issueWord (.amoshAdd c d a b) c (atomicBody .sh .add d a b) s

/-- AMOSH.AND (R105 to R107). -/
def execAmoshAnd (c : Ctl) (d a b : BitVec 5) (s : State) : Host.Outcome State Fault Refusal :=
  issueWord (.amoshAnd c d a b) c (atomicBody .sh .and d a b) s

/-- AMOSH.OR (R105 to R107). -/
def execAmoshOr (c : Ctl) (d a b : BitVec 5) (s : State) : Host.Outcome State Fault Refusal :=
  issueWord (.amoshOr c d a b) c (atomicBody .sh .or d a b) s

/-- AMOSH.XOR (R105 to R107). -/
def execAmoshXor (c : Ctl) (d a b : BitVec 5) (s : State) : Host.Outcome State Fault Refusal :=
  issueWord (.amoshXor c d a b) c (atomicBody .sh .xor d a b) s

/-- AMOSH.MIN (R105 to R107). -/
def execAmoshMin (c : Ctl) (d a b : BitVec 5) (s : State) : Host.Outcome State Fault Refusal :=
  issueWord (.amoshMin c d a b) c (atomicBody .sh .min d a b) s

/-- AMOSH.MAX (R105 to R107). -/
def execAmoshMax (c : Ctl) (d a b : BitVec 5) (s : State) : Host.Outcome State Fault Refusal :=
  issueWord (.amoshMax c d a b) c (atomicBody .sh .max d a b) s

/-- AMOSH.SWAP (R105 to R107). -/
def execAmoshSwap (c : Ctl) (d a b : BitVec 5) (s : State) : Host.Outcome State Fault Refusal :=
  issueWord (.amoshSwap c d a b) c (atomicBody .sh .swap d a b) s

/-- AMOSH.CAS (R105 to R107). -/
def execAmoshCas (c : Ctl) (d a b : BitVec 5) (s : State) : Host.Outcome State Fault Refusal :=
  issueWord (.amoshCas c d a b) c (atomicBody .sh .cas d a b) s

/-- AMOG.ADD (R105 to R107). -/
def execAmogAdd (c : Ctl) (d a b : BitVec 5) (s : State) : Host.Outcome State Fault Refusal :=
  issueWord (.amogAdd c d a b) c (atomicBody .g .add d a b) s

/-- AMOG.AND (R105 to R107). -/
def execAmogAnd (c : Ctl) (d a b : BitVec 5) (s : State) : Host.Outcome State Fault Refusal :=
  issueWord (.amogAnd c d a b) c (atomicBody .g .and d a b) s

/-- AMOG.OR (R105 to R107). -/
def execAmogOr (c : Ctl) (d a b : BitVec 5) (s : State) : Host.Outcome State Fault Refusal :=
  issueWord (.amogOr c d a b) c (atomicBody .g .or d a b) s

/-- AMOG.XOR (R105 to R107). -/
def execAmogXor (c : Ctl) (d a b : BitVec 5) (s : State) : Host.Outcome State Fault Refusal :=
  issueWord (.amogXor c d a b) c (atomicBody .g .xor d a b) s

/-- AMOG.MIN (R105 to R107). -/
def execAmogMin (c : Ctl) (d a b : BitVec 5) (s : State) : Host.Outcome State Fault Refusal :=
  issueWord (.amogMin c d a b) c (atomicBody .g .min d a b) s

/-- AMOG.MAX (R105 to R107). -/
def execAmogMax (c : Ctl) (d a b : BitVec 5) (s : State) : Host.Outcome State Fault Refusal :=
  issueWord (.amogMax c d a b) c (atomicBody .g .max d a b) s

/-- AMOG.SWAP (R105 to R107). -/
def execAmogSwap (c : Ctl) (d a b : BitVec 5) (s : State) : Host.Outcome State Fault Refusal :=
  issueWord (.amogSwap c d a b) c (atomicBody .g .swap d a b) s

/-- AMOG.CAS (R105 to R107). -/
def execAmogCas (c : Ctl) (d a b : BitVec 5) (s : State) : Host.Outcome State Fault Refusal :=
  issueWord (.amogCas c d a b) c (atomicBody .g .cas d a b) s

/-- AMOH.ADD (R105 to R107). -/
def execAmohAdd (c : Ctl) (d a b : BitVec 5) (s : State) : Host.Outcome State Fault Refusal :=
  issueWord (.amohAdd c d a b) c (atomicBody .h .add d a b) s

/-- AMOH.AND (R105 to R107). -/
def execAmohAnd (c : Ctl) (d a b : BitVec 5) (s : State) : Host.Outcome State Fault Refusal :=
  issueWord (.amohAnd c d a b) c (atomicBody .h .and d a b) s

/-- AMOH.OR (R105 to R107). -/
def execAmohOr (c : Ctl) (d a b : BitVec 5) (s : State) : Host.Outcome State Fault Refusal :=
  issueWord (.amohOr c d a b) c (atomicBody .h .or d a b) s

/-- AMOH.XOR (R105 to R107). -/
def execAmohXor (c : Ctl) (d a b : BitVec 5) (s : State) : Host.Outcome State Fault Refusal :=
  issueWord (.amohXor c d a b) c (atomicBody .h .xor d a b) s

/-- AMOH.MIN (R105 to R107). -/
def execAmohMin (c : Ctl) (d a b : BitVec 5) (s : State) : Host.Outcome State Fault Refusal :=
  issueWord (.amohMin c d a b) c (atomicBody .h .min d a b) s

/-- AMOH.MAX (R105 to R107). -/
def execAmohMax (c : Ctl) (d a b : BitVec 5) (s : State) : Host.Outcome State Fault Refusal :=
  issueWord (.amohMax c d a b) c (atomicBody .h .max d a b) s

/-- AMOH.SWAP (R105 to R107). -/
def execAmohSwap (c : Ctl) (d a b : BitVec 5) (s : State) : Host.Outcome State Fault Refusal :=
  issueWord (.amohSwap c d a b) c (atomicBody .h .swap d a b) s

/-- AMOH.CAS (R105 to R107). -/
def execAmohCas (c : Ctl) (d a b : BitVec 5) (s : State) : Host.Outcome State Fault Refusal :=
  issueWord (.amohCas c d a b) c (atomicBody .h .cas d a b) s

/-- LOAD_REPLY (R53): see `State.loadReply`. -/
def execLoadReply (tile slot k : Nat) (s : State) : Host.Outcome State Fault Refusal :=
  if 2048 ≤ tile || 4 ≤ slot then .fault .noSuchUnit else .next (s.loadReply tile slot k)

/-- STORE_ACKNOWLEDGEMENT (R221, R256): see `State.storeAck`. -/
def execStoreAcknowledgement (tile slot : Nat) (space : BitVec 2) (s : State) :
    Host.Outcome State Fault Refusal :=
  if 2048 ≤ tile || 4 ≤ slot then .fault .noSuchUnit else .next (s.storeAck tile slot (spaceOf space))

end Sys2Proof.Machine
end

