-- ==== Sys2Proof/Machine/Flow.lean ====
section
/-! DEFINITION. The flow of control of a thread (R70 to R75), its text (R305, R342), and the literal load
(R66). -/

namespace Sys2Proof.Machine

/-- Where the bytes of a text address lie in a tile's text store, if `n` bytes from it lie in the group's
text, or, in supervisor state, in the handler page at the top of the store, text addresses 0xF000 to
0xFFFF (R305, R342; DEDUCED, log entry 7). -/
def State.textLoc (s : State) (tile gid : Nat) (sup : Bool) (pc : Word) (n : Nat) : Option Nat :=
  let inGroup :=
    (s.group? gid).bind fun g =>
      (g.texts.find? fun x => x.1 == tile).bind fun x =>
        if pc.toNat + n ≤ x.2.2 then some (locText tile (x.2.1 + pc.toNat)) else none
  match inGroup with
  | some l => some l
  | none =>
    if sup && 0xF000 ≤ pc.toNat && pc.toNat + n ≤ 0x10000 then some (locText tile pc.toNat) else none

/-- The trap of a target or a literal outside the group's text (R66, R70). -/
def textTrap (target : Word) : Trap := { code := 0x04#6, reason := 9#8, tval := some target }

/-- The trap of a taken branch to `target`, if it has one (R70). -/
def State.targetTrap (s : State) (target : Word) : Option Trap :=
  if target.toNat % 4 ≠ 0 then some { code := 0x02#6, tval := some target }
  else if (s.textLoc s.focus.tile s.cur.gid s.cur.sup target 4).isNone then some (textTrap target)
  else none

/-- A taken branch after its checks (R40, R70): the state gains `f` only where it does not trap. -/
def branchTo (target : Word) (gap : Nat) (f : Thread → Thread) (s : State) : Body :=
  match s.targetTrap target with
  | some t => .trap s t
  | none => .taken (s.modCur f) target gap

/-- pc + 4 × a signed offset (R71, R73, R74). -/
def relTarget (pc : Word) (off : Int) : Word := pc + BitVec.ofInt 64 (4 * off)

/-- BR (R71). -/
def execBr (c : Ctl) (off : BitVec 18) (s : State) : Host.Outcome State Fault Refusal :=
  issueWord (.br c off) c (fun s => branchTo (relTarget s.cur.pc off.toInt) 2 id s) s

/-- CALL (R71): s31 := pc + 4. -/
def execCall (c : Ctl) (off : BitVec 18) (s : State) : Host.Outcome State Fault Refusal :=
  issueWord (.call c off) c (fun s =>
    branchTo (relTarget s.cur.pc off.toInt) 2 (fun th => th.result s.now 31#5 (th.pc + 4#64) 2) s) s

/-- JR (R72). -/
def execJr (c : Ctl) (a : BitVec 5) (s : State) : Host.Outcome State Fault Refusal :=
  issueWord (.jr c a) c (fun s => branchTo (s.cur.reg a) 2 id s) s

/-- JALR (R72): s(a) is read before d takes pc + 4. -/
def execJalr (c : Ctl) (d a : BitVec 5) (s : State) : Host.Outcome State Fault Refusal :=
  issueWord (.jalr c d a) c (fun s =>
    branchTo (s.cur.reg a) 2 (fun th => th.result s.now d (th.pc + 4#64) 2) s) s

/-- RET (R72): a jump to s31. -/
def execRet (c : Ctl) (s : State) : Host.Outcome State Fault Refusal :=
  issueWord (.ret c) c (fun s => branchTo (s.cur.reg 31#5) 2 id s) s

/-- LOOP (R73). -/
def execLoop (c : Ctl) (d : BitVec 5) (imm : BitVec 13) (s : State) : Host.Outcome State Fault Refusal :=
  issueWord (.loop c d imm) c (fun s =>
    let v := s.cur.reg d
    let count := fun (th : Thread) => th.result s.now d (v - 1#64) 2
    if v = 0#64 then .done s
    else if v = 1#64 then .done (s.modCur count)
    else branchTo (relTarget s.cur.pc imm.toInt) 2 count s) s

/-! ## BSEL (R74, R75) -/

/-- What one entry of a bucket table, or the search, gives. -/
inductive BucketResult where
  | found (index : Nat) (rem : Word) (padm : Word) (offset : Int)
  | fault (e : AccessErr) (addr : Word)
  | bucket (addr : Word)
  | blocked
  deriving DecidableEq, Repr

/-- The padding mask of a remainder (R74). -/
def padMask (rem : Nat) : Word := if 64 ≤ rem then BitVec.allOnes 64 else Word.ofN (2 ^ rem - 1)

/-- The search of a bucket table from entry `i`, with `n` entries left (R74): the entries are read in order
up to the match. `blocked` where a byte is one that a buffered atomic covers (R98). -/
def State.searchBuckets (s : State) (dim base : Word) (prev : Nat) (i : Nat) : Nat → BucketResult
  | 0 => .bucket (base + Word.ofN (8 * (i - 1)))
  | n + 1 =>
    let t := s.focus.tile
    let addr := base + Word.ofN (8 * i)
    match s.resolve (.tile t) t s.cur.gid .sp addr 8 needLoad with
    | .error e => .fault e addr
    | .ok (place, _) =>
      let srcs := byteSources .sp s.cur.buffered.reverse place 8
      let taken := forwarded srcs
      if srcs.contains .atomic then .blocked
      else if s.loadPoisoned t s.cur.gid .sp place taken then .fault errPoison addr
      else
        let bs := mergeBytes taken (s.loadBytes t s.cur.gid .sp place 8)
        let bucket := leNat (bs.take 4)
        let offset := toInt (leNat (bs.drop 4)) 32
        if bucket = 0xFFFFFFFF then .found i 0#64 0#64 offset
        else if 0 < i && bucket ≤ prev then .bucket addr
        else if dim.toNat ≤ bucket then
          .found i (Word.ofN (bucket - dim.toNat)) (padMask (bucket - dim.toNat)) offset
        else s.searchBuckets dim base bucket (i + 1) n

/-- The banks of the rows that the first lines of a bucket table lie in (R75, R262). -/
def State.bselBanks (s : State) (base : Word) (lines : Nat) : List Nat :=
  (((List.range (8 * lines)).map fun i => (base.toNat + 8 * i) / 64).eraseDups).filterMap fun r =>
    s.bankOf s.focus.tile s.cur.gid .sp (64 * r)

/-- BSEL's effect (R74, R75): its table read follows the thread's earlier accesses to SP, and the target
issues 8 cycles later, one more for each further line of eight entries, and those that its banks make it wait (R262). A poisoned table line traps
POISON precisely at the word. -/
def bselBody (d a b : BitVec 5) (s : State) : Body :=
  let o := s.cur.operands a b d
  let dim := o.1
  let base := o.2.1
  if s.cur.mustWait .sp then .hold (s.latch o)
  else if base.toNat % 8 ≠ 0 then .trap s { code := 0x02#6, tval := some base }
  else
    match s.searchBuckets dim base 0 0 64 with
    | .fault e addr => .trap s { code := e.code, reason := e.reason, tval := some addr }
    | .bucket addr => .trap s { code := 0x0B#6, tval := some addr }
    | .blocked => .marked (s.latch o)
    | .found k rem padm offset =>
      let r := s.takeBanks s.cur.gid 1 0 (s.bselBanks base (k / 8 + 1))
      branchTo (relTarget s.cur.pc offset) (8 + k / 8 + r.1)
        (fun th =>
          { th with padm := padm
                    pend := if d = 0#5 then th.pend else th.pend ++ [⟨d.toNat, rem, s.now + 7 + k / 8 + r.1⟩]
                    producers := th.producers.filter fun q => q.reg != d.toNat }) r.2

/-- BSEL (R74). -/
def execBsel (c : Ctl) (d a b : BitVec 5) (s : State) : Host.Outcome State Fault Refusal :=
  issueWord (.bsel c d a b) c (bselBody d a b) s

/-- LDLIT (R66): the 8-byte literal at (pc AND NOT 7) + 8 × sx(imm13, 13), scoreboarded. -/
def execLdlit (c : Ctl) (d : BitVec 5) (imm : BitVec 13) (s : State) : Host.Outcome State Fault Refusal :=
  issueWord (.ldlit c d imm) c (fun s =>
    let addr := (s.cur.pc &&& ~~~7#64) + BitVec.ofInt 64 (8 * imm.toInt)
    match s.textLoc s.focus.tile s.cur.gid s.cur.sup addr 8 with
    | none => .trap s (textTrap addr)
    | some l =>
      .done (s.modCur fun th => th.await
        { id := 0, dst := d, src := .value, value := some (Word.ofN (s.mem.readLe l 8)), space := .sp,
          due := s.now + 6 })) s

end Sys2Proof.Machine
end

