-- ==== Sys2Proof/Machine/System.lean ====
section
/-! DEFINITION. Special registers (R49 to R51, R76, R77, R152), the SYS group (R78 to R80), the SYNC group
(R108 to R110, R310), TWAIT (R81, R82) and ACCRD (R371). -/

namespace Sys2Proof.Machine

/-! ## Special registers -/

/-- DOMAIN with the group's barrier phase in bit 7 (R309). -/
def State.domainWord (s : State) (th : Thread) : Word :=
  match s.group? th.gid with
  | some g => if g.phase then th.domain ||| 0x80#64 else th.domain
  | none => th.domain

/-- The value that MFS reads, zero-extended (R49, R76). A number that R49 does not allocate reads 0; no
word reaches it (R57). -/
def State.sreg (s : State) (tile slot : Nat) (n : BitVec 13) : Word :=
  let th := s.thread tile slot
  match n.toNat with
  | 0x000 => Word.ofN slot
  | 0x001 => th.role.setWidth 64
  | 0x002 => Word.ofN tile
  | 0x003 => th.group.setWidth 64
  | 0x004 => s.domainWord th
  | 0x005 => th.predsWord.setWidth 64
  | 0x006 => th.evt.setWidth 64
  | 0x007 => th.flags.setWidth 64
  | 0x008 => th.trapen.setWidth 64
  | 0x009 => Word.ofN (b2n th.sbchk)
  | 0x00A => (s.ctx tile).agelim.setWidth 64
  | 0x00B => Word.ofN (b2n th.netclass)
  | 0x00C => th.padm
  | 0x00D => 0x3566#64
  | 0x00E => (if th.sup then th.trapReentry else th.reentry).setWidth 64
  | 0x00F => Word.ofN (s.cycle tile)
  | 0x010 => vget th.pwbase 0 0#64
  | 0x011 => vget th.pwbase 1 0#64
  | 0x012 => vget th.pwbase 2 0#64
  | 0x013 => vget th.pwbase 3 0#64
  | 0x014 => (vget th.pwlim 0 0#32).setWidth 64
  | 0x015 => (vget th.pwlim 1 0#32).setWidth 64
  | 0x016 => (vget th.pwlim 2 0#32).setWidth 64
  | 0x017 => (vget th.pwlim 3 0#32).setWidth 64
  | 0x018 => th.ftrap
  | 0x100 => th.tcause
  | 0x101 => th.tepc
  | 0x102 => th.tval
  | 0x103 => th.taux
  | 0x104 => th.tvec
  | 0x105 => th.tsave0
  | 0x106 => th.tsave1
  | 0x107 => th.tstate
  | 0x108 => th.reentrymax.setWidth 64
  | _ => 0#64

/-- A byte register in which a write of 0 stores 1 (R50, R228). -/
def atLeastOne (v : BitVec 8) : BitVec 8 := if v = 0#8 then 1#8 else v

/-- The thread after MTS of a value to a register of its own (R49, R50, R341): bits at reserved positions
are dropped. -/
def Thread.setSreg (th : Thread) (n : BitVec 13) (v : Word) : Thread :=
  match n.toNat with
  | 0x005 => { th with preds := v.setWidth 16 &&& 0xFFFE#16, poisonP := 0#16 }
  | 0x006 => { th with evt := v.setWidth 16 }
  | 0x007 => { th with flags := v.setWidth 8 }
  | 0x008 => { th with trapen := v.setWidth 8 }
  | 0x009 => { th with sbchk := bit v 0 }
  | 0x00B => { th with netclass := bit v 0 }
  | 0x00C => { th with padm := v }
  | 0x010 => { th with pwbase := vset th.pwbase 0 v }
  | 0x011 => { th with pwbase := vset th.pwbase 1 v }
  | 0x012 => { th with pwbase := vset th.pwbase 2 v }
  | 0x013 => { th with pwbase := vset th.pwbase 3 v }
  | 0x014 => { th with pwlim := vset th.pwlim 0 (v.setWidth 32) }
  | 0x015 => { th with pwlim := vset th.pwlim 1 (v.setWidth 32) }
  | 0x016 => { th with pwlim := vset th.pwlim 2 (v.setWidth 32) }
  | 0x017 => { th with pwlim := vset th.pwlim 3 (v.setWidth 32) }
  | 0x100 => { th with tcause := v &&& 0xFFFFFFFF0000FF3F#64 }
  | 0x101 => { th with tepc := v }
  | 0x102 => { th with tval := v }
  | 0x103 => { th with taux := v &&& 0x3F3F#64 }
  | 0x104 => { th with tvec := v }
  | 0x105 => { th with tsave0 := v }
  | 0x106 => { th with tsave1 := v }
  | 0x107 => { th with tstate := v &&& 0xFF01#64 }
  | 0x108 => { th with reentrymax := atLeastOne (v.setWidth 8) }
  | _ => th

/-- The state after MTS (R50): AGELIM is the tile's, every other register the thread's. -/
def State.setSreg (s : State) (n : BitVec 13) (v : Word) : State :=
  if n = 0x00A#13 then s.modCtx s.focus.tile fun c => { c with agelim := atLeastOne (v.setWidth 8) }
  else s.modCur fun th => th.setSreg n v

/-- Whether an earlier instruction of a thread has still to post a flag: a division (R50, R61, R78). -/
def Thread.flagsPending (th : Thread) : Bool := th.outstanding.any fun o => o.src == .division

/-- MFS (R50, R76): latency 2. MFS FLAGS waits for the flags of earlier instructions. -/
def execMfs (c : Ctl) (d : BitVec 5) (imm : BitVec 13) (s : State) : Host.Outcome State Fault Refusal :=
  issueWord (.mfs c d imm) c (fun s =>
    if imm = 0x007#13 && s.cur.flagsPending then .hold s
    else
      let v := s.sreg s.focus.tile s.focus.slot imm
      .done (s.modCur fun th => th.result s.now d v 2)) s

/-- MFS FTRAP (R152): it clears V and MORE as it reads. -/
def execMfsFtrap (c : Ctl) (d : BitVec 5) (s : State) : Host.Outcome State Fault Refusal :=
  issueWord (.mfsFtrap c d) c (fun s =>
    .done (s.modCur fun th =>
      { th.result s.now d th.ftrap 2 with ftrap := th.ftrap &&& 0x3FFFFFFFFFFFFFFF#64 })) s

/-- MTS (R50, R76, R77): it has taken effect for every later word. MTS FLAGS waits for the flags of
earlier instructions. -/
def execMts (c : Ctl) (d : BitVec 5) (imm : BitVec 13) (s : State) : Host.Outcome State Fault Refusal :=
  issueWord (.mts c d imm) c (fun s =>
    let o := s.cur.operands 0#5 0#5 d
    if imm = 0x007#13 && s.cur.flagsPending then .hold (s.latch o)
    else .done (s.setSreg imm o.2.2)) s

/-! ## The SYS group -/

/-- TFENCE (R78): once every flag is posted, it traps on FLAGS AND TRAPEN. -/
def execTfence (c : Ctl) (s : State) : Host.Outcome State Fault Refusal :=
  issueWord (.tfence c) c (fun s =>
    let f := s.cur.flags &&& s.cur.trapen
    if s.cur.flagsPending then .hold s
    else if f = 0#8 then .done s
    else .trap s { code := 0x0C#6, tval := some (f.setWidth 64), style := .after }) s

/-- TRAP (R78). -/
def execTrap (c : Ctl) (a : BitVec 5) (s : State) : Host.Outcome State Fault Refusal :=
  issueWord (.trap c a) c (fun s =>
    .trap s { code := 0x0D#6, tval := some (s.cur.reg a), style := .after }) s

/-- ERET (R78, R342). -/
def execEret (c : Ctl) (s : State) : Host.Outcome State Fault Refusal :=
  issueWord (.eret c) c (fun s => .taken (s.modCur Thread.eret) s.cur.tepc 2) s

/-- HALT (R12, R78, R79): the thread ends once what it held has left its command buffer. -/
def execHalt (c : Ctl) (s : State) : Host.Outcome State Fault Refusal :=
  issueWord (.halt c) c (fun s =>
    if !s.cur.departing.isEmpty then .hold s
    else .done (s.modCur fun th => { th with status := .halted })) s

/-- YIELD (R78): the issue age falls to 0 and the thread stands back. -/
def execYield (c : Ctl) (s : State) : Host.Outcome State Fault Refusal :=
  issueWord (.yield c) c (fun s =>
    .done (s.modCur fun th => { th with age := 0, yielded := some s.now })) s

/-- RMARK (R80): the open region ends, and the next opens at pc + 4. -/
def execRmark (c : Ctl) (s : State) : Host.Outcome State Fault Refusal :=
  issueWord (.rmark c) c (fun s =>
    if s.cur.sup then .done s
    else .done (s.marker s.focus.tile s.focus.slot (s.cur.pc + 4#64))) s

/-! ## The SYNC group -/

/-- Whether a command is one of the copy engine, into a space (R108, R286). -/
def copiesInto (space : Space) (c : Cmd) : Bool :=
  0x21 ≤ c.func.toNat && c.func.toNat ≤ 0x23 &&
    spaceOf (BitVec.ofNat 2 (bits (vget c.copy 1 0#64) 3 2)) == space

/-- Whether one of the commands of a list that leave a buffer in order will be a copy into a space, from the
descriptor as it stands before the first leaves (R285, R295). -/
def departsCopy (space : Space) : Vector Word 5 → List Cmd → Bool
  | _, [] => false
  | d, c :: cs =>
    copiesInto space { c with copy := d } ||
      departsCopy space (if c.func = 0x20#7 then vset d (bits c.b 2 0) c.a else d) cs

/-- DRAIN (R108, R295, R336): it waits for the copy commands into the space that left a buffer of the tile
before it, or that its own marker released, and until their writes are visible at the space's implied scope. -/
def execDrain (c : Ctl) (space : BitVec 2) (s : State) : Host.Outcome State Fault Refusal :=
  issueWord (.drain c space) c (fun s =>
    let th := s.cur
    let mark := if th.waiting then th.latchA else Word.ofN (s.tile s.focus.tile).nextLeft
    let before := fun (left slot gid : Nat) => decide (left < mark.toNat) || (slot == s.focus.slot && gid == th.gid)
    if departsCopy (spaceOf space) th.copy th.departing ||
        ((s.ctx s.focus.tile).cmds.any fun x => copiesInto (spaceOf space) x && before x.left x.slot x.gid) ||
        s.farCopies s.focus.tile (spaceOf space) before then
      .hold (s.latch (mark, 0#64, 0#64))
    else .done s) s

/-- The spaces that an SBAR mask selects (R108). -/
def maskSpaces (m : Word) : List Space :=
  (if bit m 0 then [Space.sp] else []) ++ (if bit m 1 then [Space.sh] else []) ++
    (if bit m 2 then [Space.g] else []) ++ (if bit m 3 then [Space.h] else [])

/-- The streams that an SBAR mask selects (R108). -/
def maskStreams (m : Word) : List Nat := (List.range 8).filter fun i => bit m (8 + i)

/-- SBAR (R108, R110): it waits for the thread's accesses to the selected spaces, and for the elements that the selected
streams had delivered when it issued: those to another die or the host, for every other is performed as it is delivered.
The second latch holds the number of the next far write at that time. -/
def execSbar (c : Ctl) (a : BitVec 5) (s : State) : Host.Outcome State Fault Refusal :=
  issueWord (.sbar c a) c (fun s =>
    let o := s.cur.operands a 0#5 0#5
    let mark := if s.cur.waiting then o.2.1 else Word.ofN s.free
    if s.cur.performed (maskSpaces o.1) && !s.farElements s.focus.tile (maskStreams o.1) mark.toNat then .done s
    else .hold (s.latch (o.1, mark, 0#64))) s

/-- The state after a thread's arrival has been sent to its group's barrier slot (R310, R421): to the memory
interface, where it arrives in the next cycle, or on channel 4 through the switches where the slot stands in
one. -/
def State.sendArrival (s : State) (g : Group) : State :=
  let t := s.focus.tile
  let s1 := s.modCur fun th => { th with arrived := true, phaseAtWait := g.phase }
  if g.level = 0 then s1.modGroup g.gid fun x => { x with arrivals := x.arrivals ++ [s.now + 1] }
  else
    s1.present t
      { vc := 4, owner := (s.ownerOf g.gid).getD 0, path := pathTo g.level,
        payload := .arrival g.gid t s.focus.slot }

/-- DBAR (R108, R310): a release at the scope of the group's level, an arrival, and the wait for the phase to
change. The arrival of a DBAR that a stop has discarded stands, and the word that runs again only waits. A
thread of no group has no barrier and waits. -/
def execDbar (c : Ctl) (s : State) : Host.Outcome State Fault Refusal :=
  issueWord (.dbar c) c (fun s =>
    let th := s.cur
    match s.group? th.gid with
    | none => .hold s
    | some g =>
      if th.arrived then
        (if g.phase != th.phaseAtWait then .done (s.modCur fun x => { x with arrived := false }) else .hold s)
      else if s.released g.level then .hold (s.sendArrival g)
      else .hold s) s

/-- FENCE (R108, R335): it waits until every earlier access is performed, or, a store, visible at the scope. -/
def execFence (c : Ctl) (scope : BitVec 3) (s : State) : Host.Outcome State Fault Refusal :=
  issueWord (.fence c scope) c (fun s =>
    if s.released scope.toNat then .done s else .hold s) s

/-- WFE (R12, R109): it waits for a selected event bit and clears the bits it matched; where one is set when it
issues, it resumes at once, and one that waits does so only once the thread's commands have left its buffer. -/
def execWfe (c : Ctl) (a : BitVec 5) (s : State) : Host.Outcome State Fault Refusal :=
  issueWord (.wfe c a) c (fun s =>
    let o := s.cur.operands a 0#5 0#5
    let m := s.cur.evt &&& o.1.setWidth 16
    if m = 0#16 || (s.cur.waiting && !s.cur.departing.isEmpty) then .hold (s.latch o)
    else .done (s.modCur fun th => { th with evt := th.evt &&& ~~~m })) s

/-! ## TWAIT and ACCRD -/

/-- TWAIT (R81, R82, R307): the thread's commands have left its buffer before the wait on the token
begins, and the first state of the token that decides the wait stands. -/
def twaitBody (k level : Nat) (s : State) : Body :=
  if s.outsideMask k then .trap s (tokMaskTrap k)
  else if !s.cur.departing.isEmpty then .hold s
  else
    let w := (s.cur.twait.getD ⟨k, level, none⟩).judge (s.token s.focus.tile k)
    let clear := s.modCur fun th => { th with twait := none }
    match w.result with
    | some none => .done clear
    | some (some cause) =>
      .trap clear { code := 0x09#6, tval := some (cause.setWidth 64), taux := Word.ofN (256 * k) }
    | none => .hold (s.modCur fun th => { th with twait := some w })

/-- TWAIT (R81, R82, R307). -/
def execTwait (c : Ctl) (tok : BitVec 6) (level : BitVec 2) (s : State) :
    Host.Outcome State Fault Refusal :=
  issueWord (.twait c tok level) c (twaitBody tok.toNat level.toNat) s

/-- The PFLOW and the PDRAIN of an ownership that have not ended, with the token of each, 0x3F for none (R361). -/
def State.ownerCmds (s : State) (tile : Nat) (o : Owner) : List (Nat × BitVec 6) :=
  (if o.flowEnded then [] else [(o.flow, o.ptok)]) ++
    match o.drain.bind fun d => s.cmd? tile d with
    | some x => [(x.id, (produced x.b).elim 0x3F#6 (BitVec.ofNat 6 ·))]
    | none => []

/-- The token that TAUX names for an owned accumulator tile: 0x3F where an armed section owns it (R384), else
that of the oldest PFLOW or PDRAIN that owns it and has not ended, 0x3F where it produces none (R361). Where every
owning PFLOW has ended and no PDRAIN has left its buffer, so that none is left to name, it is 0x3F (DESIGN CHOICE, log
entry 68). -/
def State.ownerToken (s : State) (tile acct : Nat) : Option (BitVec 6) :=
  let p := (s.ctx tile).pool
  let own := p.owners.filter fun o => o.acct == acct && !o.drainEnded
  let cmds := own.flatMap fun o => s.ownerCmds tile o
  if p.armed.isSome && p.lastFlow.any fun f => bit f.a acct then some 0x3F#6
  else if own.isEmpty then none
  else some (((cmds.find? fun x => cmds.all fun y => decide (x.1 ≤ y.1)).map (·.2)).getD 0x3F#6)

/-- Whether a PFLOW of an accumulator tile that is owned no longer still runs (R361, R371). -/
def State.flowsOn (s : State) (tile acct : Nat) : Bool :=
  (s.ctx tile).pool.owners.any fun o => o.acct == acct && o.drainEnded && !o.flowEnded

/-- The mode word that serves a tile's pool: of a member of a joined pool, its leader's (R375). -/
def State.modeOf (s : State) (tile : Nat) : Word := (s.ctx ((s.ctx tile).pool.memberOf.getD tile)).pool.mode

/-- ACCRD (R371): the accumulator (s(a) + imm8)[10:0] of the tile's own pool, extended as AFMT says (R375), after the
passes of every PFLOW before it: one that still runs though its tile is owned no longer is waited for (DEDUCED, log
entry 68). A poisoned accumulator traps POISON (R350). -/
def execAccrd (c : Ctl) (d a : BitVec 5) (imm : BitVec 8) (s : State) : Host.Outcome State Fault Refusal :=
  issueWord (.accrd c d a imm) c (fun s =>
    let t := s.focus.tile
    let p := (s.ctx t).pool
    let o := s.cur.operands a 0#5 0#5
    let i := (o.1 + imm.setWidth 64).toNat % 2048
    match if s.cur.waiting then none else s.ownerToken t (i / 64) with
    | some k => .trap s { code := 0x07#6, taux := Word.ofN (256 * k.toNat + i / 64) }
    | none =>
      if s.flowsOn t (i / 64) then .hold (s.latch o)
      else if p.accPoison.contains i then .trap s { code := 0x05#6 }
      else
        let v := p.acc.get 0#32 i
        let w := if bits (s.modeOf t) 55 52 = 9 then v.signExtend 64 else v.setWidth 64
        .done (s.modCur fun th => th.await
          { id := 0, dst := d, src := .value, value := some w, space := .sp, due := s.now + 6 })) s

/-! ## Events of the thread's own units -/

/-- DIVIDER_RESULT (R61, R62): the result is written and DZ posted, while its slot holds a thread of its group
(R243). -/
def State.dividerResult (s : State) (tile : Nat) : State :=
  match (s.tile tile).divider with
  | none => s
  | some v =>
    if s.now < v.due then s
    else
      (s.modThread tile v.slot fun th0 =>
        let th := th0.settle s.now
        if th.gid != v.gid then th0
        else { th.setReg v.dst v.value with
          flags := if v.dz then th.flags ||| flagDZ else th.flags
          outstanding := th.outstanding.filter fun o => o.src != .division }).modTile tile fun x =>
        { x with divider := none }

/-- DIVIDER_RESULT (R62): see `State.dividerResult`. -/
def execDividerResult (tile : Nat) (s : State) : Host.Outcome State Fault Refusal :=
  if 2048 ≤ tile then .fault .noSuchUnit else .next (s.dividerResult tile)

/-- The cycles from the last arrival at a barrier slot to the release in every participant (R421). -/
def releaseDelay (level : Nat) : Nat :=
  match level with
  | 0 => 1
  | 1 => 3
  | 2 => 8
  | 3 => 15
  | _ => 24

/-- The group with the first of its arrivals that have reached the slot by a cycle counted; at the last
participant's the count starts again at 0 and the release is sent (R310, R421). -/
def Group.countArrival (g : Group) (now : Nat) : Group :=
  match g.arrivals.find? fun a => decide (a ≤ now) with
  | none => g
  | some a =>
    if g.barrier + 1 = g.slots.length then
      { g with arrivals := g.arrivals.erase a, barrier := 0, release := some (now + releaseDelay g.level) }
    else { g with arrivals := g.arrivals.erase a, barrier := g.barrier + 1 }

/-- BARRIER_ARRIVAL (R310): the slot counts an arrival that has reached it. -/
def State.barrierArrival (s : State) (gid : Nat) : State := s.modGroup gid fun g => g.countArrival s.now

/-- The group with the release that reaches its participants in a cycle: the phase changes (R310, R421). -/
def Group.released (g : Group) (now : Nat) : Group :=
  if g.release = some now then { g with release := none, phase := !g.phase } else g

/-- BARRIER_ARRIVAL (R310): see `State.barrierArrival`. -/
def execBarrierArrival (gid : Nat) (s : State) : Host.Outcome State Fault Refusal :=
  .next (s.barrierArrival gid)

/-- ILLEGAL (R57, R58): a word that is no instruction traps at its issue, whatever its guard, with TVAL the
word. -/
def execIllegal (w : BitVec 32) (s : State) : Host.Outcome State Fault Refusal :=
  .next (s.begin.trapNow { code := 0x01#6, tval := some (w.setWidth 64) })

end Sys2Proof.Machine
end

