-- ==== Sys2Proof/Machine/Commands.lean ====
section
/-! DEFINITION. The engine commands of the CX words (R46 to R48, R83, R220, R276 to R292, R311, R356, R377
to R408): the checks that each makes at its issue, and its way through the thread's command buffer. -/

namespace Sys2Proof.Machine

/-! ## Checks at issue -/

/-- Bits 31:0 of s(b), the command's own second argument (R47). -/
def low (b : Word) : Nat := bits b 31 0

/-- Whether the token word fails a check of R48. -/
def badTokenWord (b : Word) : Bool :=
  bit b 56 ||
    [0, 1, 2].any (fun j => (consumed b j).2 == 0 && (consumed b j).1 != 0) ||
    [0, 1, 2].any (fun j => (consumed b j).2 != 0 && produced b == some (consumed b j).1)

/-- CMDREJECT of a function, with TVAL its code (R337). -/
def rejectTrap (func : BitVec 7) : Trap := { code := 0x0A#6, tval := some (func.setWidth 64) }

/-- Whether a token counts as PENDING for the thread in focus (R276). -/
def State.pendingToken (s : State) (k : Nat) : Bool :=
  (s.token s.focus.tile k).seen.busy || s.cur.willProduce k

/-- TOKREUSE naming a token (R276). -/
def reuseTrap (k : Nat) : Trap := { code := 0x08#6, taux := Word.ofN (256 * k) }

/-- The token checks of R340, in order: R48, TOKMASK (R307), reuse (R276). -/
def State.tokenTrap (s : State) (func : BitVec 7) (b : Word) : Option Trap :=
  if badTokenWord b then some (rejectTrap func)
  else
    match s.maskTrap (namedTokens b) with
    | some t => some t
    | none =>
      match produced b with
      | some k => if s.pendingToken k then some (reuseTrap k) else none
      | none => none

/-- The size of the window of the thread's group on its tile, 0 without one. -/
def State.spSize (s : State) : Nat :=
  match s.window? s.cur.gid s.focus.tile with
  | some w => w.size
  | none => 0

/-- Whether `n` bytes from an SP offset lie in the group's window. -/
def State.inWindow (s : State) (off n : Nat) : Bool := decide (off + n ≤ s.spSize)

/-- A fabric rectangle of a group that serves a tile: the one whose mesh holds the tile (R305). -/
def Group.rectFor (g : Group) (tile : Nat) : Option Rect :=
  g.rects.find? fun r => unitOf r.level tile == unitOf r.level r.unitTile

/-- The rectangle of the thread's group for its tile. -/
def State.rect? (s : State) (gid tile : Nat) : Option Rect := (s.group? gid).bind fun g => g.rectFor tile

/-- The size in bytes of a pool format code (R356, R360). -/
def poolSize (fmt : Nat) : Nat :=
  match fmt with
  | 1 | 2 | 5 | 7 => 2
  | 3 | 4 | 6 => 1
  | _ => 4

/-- The implemented combinations of held, flow and accumulator formats (R364). -/
def modeOk (m : Word) : Bool :=
  let h := bits m 63 60
  let f := bits m 59 56
  let a := bits m 55 52
  (h == 1 && f == 1 && a == 8) || (h == 2 && f == 2 && a == 8) ||
    ((h == 3 || h == 4) && (f == 3 || f == 4) && a == 8) || (h == 5 && (f == 5 || f == 3) && a == 8) ||
    ((h == 6 || h == 7) && f == 6 && a == 9)

/-- Whether a tile is the lowest of the aligned unit of a level (R381). -/
def leadsUnit (level tile : Nat) : Bool := tile % unitTiles level == 0

/-- Whether s(b) neither produces nor consumes a token (R285, R406). -/
def tokenless (b : Word) : Bool := !bit b 57 && bits b 55 32 == 0

/-- The reserved bits of a register of the copy descriptor (R286, R287). -/
def copyReserved (sel : Nat) (a : Word) : Bool :=
  match sel with
  | 1 => bits a 63 22 == 0 && bits a 6 4 == 0
  | 2 => bits a 63 32 == 0
  | _ => true

/-- The reserved bits of a register of the sieve descriptor (R406). -/
def sieveReserved (sel : Nat) (a : Word) : Bool :=
  match sel with
  | 1 => bits a 63 57 == 0
  | 2 => bits a 63 32 == 0
  | _ => true

/-- Whether the arguments of a command pass the checks that its entry makes at issue, after those of R48:
R83, R264, R280 to R285, R311, R356, R375, R379, R381, R383, R389, R390, R397, R403, R406, R407. A GSTART's address
that is no multiple of 128 and a GARM's span level 7 fail them too (DESIGN CHOICE, log entry 28). -/
def State.argsOk (s : State) (func : BitVec 7) (a b : Word) : Bool :=
  let lo := low b
  let tile := s.focus.tile
  let leader := func.toNat ≤ 0x08 → (s.ctx tile).pool.memberOf.isNone
  let image := bits a 63 21 == 0 && bits a 20 0 % 64 == 0 && decide (bits a 20 0 < s.spSize) && bits b 31 16 == 0
  let inRect :=
    match s.rect? s.cur.gid tile with
    | some r => decide (bits a 7 0 < r.width) && decide (bits a 15 8 < r.height)
    | none => false
  decide leader &&
  match func.toNat with
  | 0x00 => bits a 41 0 == 0 && modeOk a && lo == 0
  | 0x01 => lo == 0
  | 0x02 =>
    bits a 63 21 == 0 && bits a 20 0 % 8 == 0 && bits b 31 7 == 0 && 1 ≤ bits b 6 0 && bits b 6 0 ≤ 64 &&
      s.inWindow (bits a 20 0) (8 * bits b 6 0)
  | 0x03 =>
    bits a 63 21 == 0 && bits a 20 0 % 2 == 0 && bits b 15 11 == 0 && bits b 31 28 == 0 &&
      1 ≤ bits b 27 16 && bits b 10 0 + bits b 27 16 ≤ 2048 && s.inWindow (bits a 20 0) (2 * bits b 27 16)
  | 0x04 =>
    bits a 15 11 == 0 && bits a 31 28 == 0 && bits a 63 36 == 0 && 1 ≤ bits a 27 16 &&
      bits a 10 0 + bits a 27 16 ≤ 2048 && bits b 31 3 == 0
  | 0x05 => bits a 31 0 != 0 && bits a 63 32 != 0 && !bit b 10 && bits b 31 14 == 0
  | 0x06 =>
    let fmt := bits b 25 22
    [1, 2, 3, 4, 6, 8, 9].contains fmt && bits a 63 21 == 0 && bits a 20 0 % poolSize fmt == 0 &&
      bits b 31 26 == 0 && bits b 10 0 + bits b 21 11 ≤ 2047 &&
      s.inWindow (bits a 20 0) ((bits b 21 11 + 1) * poolSize fmt)
  | 0x07 => bits a 31 0 != 0 && bits a 63 32 == 0 && lo == 0
  | 0x08 =>
    let level := bits a 2 0
    lo == 0 && bits a 63 15 == 0 && !bit a 3 && level ≤ 6 && (level == 0 || leadsUnit level tile) &&
      decide (bits a 14 4 < unitTiles level)
  | 0x09 => bits a 63 1 == 0 && lo == 0
  | 0x10 =>
    !bit b 3 && bits b 5 4 ≤ 2 && bits b 7 6 == 0 && 1 ≤ bits b 11 8 && bits b 11 8 ≤ 9 && bits b 31 12 == 0
  | 0x11 => bits a 31 0 != 0 && !bit b 3 && bits b 6 4 ≤ 5 && bits b 31 7 == 0
  | 0x12 =>
    bits a 31 0 != 0 && bits a 47 32 != 0 && bits a 63 48 == 0 && !bit b 3 && bits b 8 4 ≤ 23 && bits b 31 9 == 0
  | 0x13 => bits a 63 8 == 0 && a != 0#64 && lo == 0
  | 0x14 => bits a 63 8 == 0 && lo == 0
  | 0x15 =>
    bits a 63 21 == 0 && bits a 20 0 % 32 == 0 && s.inWindow (bits a 20 0) 32 && bits b 31 2 == 0
  | 0x16 => bits a 63 3 == 0 && bits a 1 0 != 3 && bits b 31 2 == 0
  | 0x17 => bits a 63 50 == 0 && lo == 0
  | 0x20 => bits b 2 0 ≤ 4 && bits b 31 3 == 0 && tokenless b && copyReserved (bits b 2 0) a
  | 0x28 => bits b 1 0 ≤ 2 && bits b 31 2 == 0 && tokenless b && sieveReserved (bits b 1 0) a
  | 0x29 | 0x2A =>
    bits a 63 42 == 0 && bits b 31 25 == 0 && 1 ≤ bits b 12 0 && bits b 12 0 ≤ 4096 && bits a 20 0 % 4 == 0 &&
      s.inWindow (bits a 20 0) (4 * bits b 12 0)
  | 0x30 | 0x31 | 0x32 => image
  | 0x33 => bits a 63 29 == 0 && inRect
  | 0x34 => bits a 63 29 == 0 && lo == 0 && inRect
  | 0x38 => a == 0#64 && lo == 0
  | 0x39 => lo == 0 && (match produced b with | some k => !bit a k | none => true)
  | 0x3A => bits a 63 6 == 0 && lo == 0
  | 0x40 => a.toNat % 128 == 0
  | 0x41 => bits a 11 11 == 0 && bits a 63 15 == 0 && bits a 14 12 ≤ 6 && lo != 0
  | 0x42 => bits a 63 10 == 0 && lo == 0
  | _ => true

/-- The lowest token that a TRESET names and that counts as PENDING (R281). -/
def State.resetReuse (s : State) (func : BitVec 7) (a : Word) : Option Trap :=
  if func = 0x39#7 then
    ((List.range 64).find? fun k => bit a k && s.pendingToken k).map reuseTrap
  else none

/-- The trap of a command word at its issue, if it has one (R340, steps 3 and 4). A TRESET that both produces a
PENDING token and names one traps for the one it produces (R276, R281; DESIGN CHOICE, log entry 74). -/
def State.commandTrap (s : State) (func : BitVec 7) (a b : Word) : Option Trap :=
  match s.tokenTrap func b with
  | some t => some t
  | none =>
    match s.resetReuse func a with
    | some t => some t
    | none => if s.argsOk func a b then none else some (rejectTrap func)

/-! ## The command buffer -/

/-- A mask with its set bits listed, from bit `i` upward with `n` left. -/
def setBits (w : Nat) (i : Nat) : Nat → List Nat
  | 0 => []
  | n + 1 => if w / 2 ^ i % 2 = 1 then i :: setBits w (i + 1) n else setBits w (i + 1) n

/-- The owners that a PFLOW takes at its issue (R361). -/
def ownersOf (c : Cmd) : List Owner :=
  if c.func = 0x05#7 then
    (setBits (bits c.a 31 0) 0 32).map fun t =>
      { acct := t, flow := c.id, slot := c.slot, gid := c.gid,
        ptok := (produced c.b).elim 0x3F#6 (BitVec.ofNat 6 ·) }
  else []

/-- The command that a word makes, and the state that has given it its number. -/
def State.newCmd (s : State) (func : BitVec 7) (a b : Word) (reply : Option (BitVec 5)) : Cmd × State :=
  let t := s.focus.tile
  let c : Cmd :=
    { id := (s.tile t).nextCmd, func := func, a := a, b := b, slot := s.focus.slot, gid := s.cur.gid,
      reply := reply }
  (c, s.modTile t fun x => { x with nextCmd := x.nextCmd + 1 })

/-- A command without a reply enters the buffer: held by the open region, or, in supervisor state, already
committed (R220). -/
def State.hold (s : State) (c : Cmd) : State :=
  let s1 := s.modCur fun th =>
    if th.sup then { th with departing := th.departing ++ [c] } else { th with held := th.held ++ [c] }
  s1.modCtx s.focus.tile fun x =>
    { x with pool := { x.pool with owners := x.pool.owners ++ ownersOf c } }

/-- Whether the command buffer has no free entry (R220). -/
def Thread.noRoom (th : Thread) : Bool := decide (16 ≤ th.held.length + th.departing.length)

/-- The body of a command without a reply (R47, R48, R220): the marker in front of one that found the buffer
full has committed what it held, and the word waits for an entry to free. -/
def commandBody (func : BitVec 7) (a b : BitVec 5) (s : State) : Body :=
  let o := s.cur.operands a b 0#5
  match s.commandTrap func o.1 o.2.1 with
  | some t => .trap s t
  | none =>
    if s.cur.noRoom then .hold (s.latch o)
    else .done ((s.newCmd func o.1 o.2.1 none).2.hold (s.newCmd func o.1 o.2.1 none).1)

/-- Whether every entry of the command buffer holds a committed command, so that a CX word does not issue
(R220, R240). -/
def Thread.bufferFull (th : Thread) : Bool := decide (16 ≤ th.departing.length) && th.held.isEmpty

/-- A CX word without a reply: it does not issue while its buffer is full of committed commands. -/
def issueCommand (i : Instr) (c : Ctl) (func : BitVec 7) (a b : BitVec 5) (s : State) :
    Host.Outcome State Fault Refusal :=
  let th := s.begin.cur
  if th.bufferFull && th.pred c.g && !th.waiting then .next s
  else issueWord i c (commandBody func a b) s

/-! ## Leaving the buffer -/

/-- The queue that a command enters when it leaves its buffer, with its room (R284, R377, R378, R405);
`none` where it takes no place in any. -/
inductive QueueId where
  | config | flow | drain | stream | copy | sieve
  deriving DecidableEq, Repr

/-- The queue of a function (R377). -/
def queueOf (func : BitVec 7) : Option QueueId :=
  match func.toNat with
  | 0x00 | 0x01 | 0x02 | 0x03 | 0x08 => some .config
  | 0x04 | 0x05 => some .flow
  | 0x06 | 0x07 => some .drain
  | 0x10 | 0x11 | 0x12 | 0x13 | 0x15 | 0x16 | 0x17 => some .stream
  | 0x21 | 0x22 | 0x23 => some .copy
  | 0x29 | 0x2A => some .sieve
  | _ => none

/-- The entries of a queue (R284, R378, R405). -/
def QueueId.room (q : QueueId) : Nat :=
  match q with
  | .config | .flow | .drain => 16
  | .stream | .copy => 32
  | .sieve => 64

/-- The commands of a tile in a queue, in the order they entered it. A copy or stream command that has
begun has left its queue; a pool command stays at its head until it ends. -/
def Context.queue (c : Context) (q : QueueId) : List Cmd :=
  c.cmds.filter fun x =>
    queueOf x.func == some q &&
      (match q with | .config | .flow | .drain => true | _ => x.stage == .waiting)

/-- The tiles of a plot. -/
def plotTiles (tile : Nat) : List Nat := (List.range 64).map (tile / 64 * 64 + ·)

/-- The commands that threads have in a queue: those of an armed round are not counted (R378, R383, R384). -/
def Context.queued (x : Context) (q : QueueId) : Nat := ((x.queue q).filter fun c => !c.armed).length

/-- The commands that stand in the queue that a command of a tile enters. -/
def State.queueLength (s : State) (tile : Nat) (q : QueueId) : Nat :=
  match q with
  | .sieve => ((plotTiles tile).map fun t => (s.ctx t).queued .sieve).sum
  | _ => (s.ctx tile).queued q

/-- The thread's copy or sieve descriptor with a CPSHAPE or GIDX that leaves the buffer in effect (R285,
R406). -/
def Thread.describe (th : Thread) (c : Cmd) : Thread :=
  if c.func = 0x20#7 then { th with copy := vset th.copy (bits c.b 2 0) c.a }
  else if c.func = 0x28#7 then { th with sieve := vset th.sieve (bits c.b 1 0) c.a }
  else th

/-- Whether a PDRAIN covers an accumulator of a tile (R361). -/
def drainCovers (c : Cmd) (acct : Nat) : Bool :=
  c.func == 0x06#7 && bits c.b 10 0 ≤ 64 * acct + 63 && 64 * acct ≤ bits c.b 10 0 + bits c.b 21 11

/-- The owners once a command has left its buffer: a PFLOW's have left, and a PDRAIN will end those that
it covers (R361). -/
def ownersLeft (c : Cmd) (o : Owner) : Owner :=
  if o.flow = c.id && c.func = 0x05#7 then { o with left := true }
  else if o.left && o.drain.isNone && drainCovers c o.acct then { o with drain := some c.id }
  else o

/-- The state after a command has left its buffer for its engine (R220, R275, R277, R285, R361): its token
becomes PENDING, and its wait on the tokens it consumes begins. A copy or sieve command whose descriptor
fails its checks performs nothing and ends FAULTED (R292, R408). A GDONE notes the stores that its thread has
committed before it (R312). -/
def State.depart (s : State) (tile : Nat) (c0 : Cmd) : State :=
  let th := s.thread tile c0.slot
  let c := { c0 with left := (s.tile tile).nextLeft, since := s.now, copy := th.copy, sieve := th.sieve
                     aux := if c0.func = 0x42#7 then th.nextSid else 0 }
  let s1 := (s.setThread tile c.slot (th.describe c)).modTile tile fun x => { x with nextLeft := x.nextLeft + 1 }
  if tokenlessFunc c.func then s1
  else
    let s2 := match produced c.b with
      | none => s1
      | some k =>
        s1.modToken tile k fun t =>
          { t with state := .pending, cause := 0#6, func := c.func, prog := 0, frozen := false,
                   owner := some c.id, poisoned := false }
    if !c.descriptorOk then s2.endCmd tile c .faulted 0x0A#6
    else s2.modCtx tile fun x =>
      { x with
        cmds := x.cmds ++ [judgeAll x.tokens c]
        pool := { x.pool with owners := x.pool.owners.map (ownersLeft c) } }
where
  /-- CPSHAPE and GIDX are done when they leave (R285, R406). -/
  tokenlessFunc (f : BitVec 7) : Bool := f == 0x20#7 || f == 0x28#7

/-- Whether a command's queue has room for it (R284, R378, R405). -/
def State.hasRoom (s : State) (tile : Nat) (c : Cmd) : Bool :=
  match queueOf c.func with
  | none => true
  | some q => decide (s.queueLength tile q < q.room)

/-- COMMAND_BUFFER_DEPARTURE (R220): the oldest committed command of a thread leaves, if its engine's queue
has room. -/
def State.departure (s : State) (tile slot : Nat) : State :=
  let th := s.thread tile slot
  match th.departing with
  | [] => s
  | c :: rest =>
    if s.hasRoom tile c then (s.setThread tile slot { th with departing := rest }).depart tile c else s

/-- The body of a command with a reply (R47, R219, R220): its checks at its issue; and once every earlier
command of the thread has left the buffer it is sent, its reply outstanding in d. -/
def replyBody (func : BitVec 7) (d a b : BitVec 5) (s : State) : Body :=
  let o := s.cur.operands a b 0#5
  match if s.cur.waiting then none else s.commandTrap func o.1 o.2.1 with
  | some t => .trap s t
  | none =>
    if !s.cur.departing.isEmpty then .hold (s.latch o)
    else
      let c := (s.newCmd func o.1 o.2.1 (some d)).1
      let s1 := (s.newCmd func o.1 o.2.1 (some d)).2
      let s2 := s1.modCur fun th => th.await { id := 0, dst := d, src := .reply c.id }
      .done (s2.depart s.focus.tile c)

/-- COMMAND_BUFFER_DEPARTURE (R220): see `State.departure`. -/
def execCommandBufferDeparture (tile slot : Nat) (s : State) : Host.Outcome State Fault Refusal :=
  if 2048 ≤ tile || 4 ≤ slot then .fault .noSuchUnit else .next (s.departure tile slot)

/-! ## The words -/

/-- PMODE (R354): checked, and held to its region's commit. -/
def execPmode (c : Ctl) (a b : BitVec 5) (s : State) : Host.Outcome State Fault Refusal :=
  issueCommand (.pmode c a b) c 0x00#7 a b s

/-- PBED (R378): checked, and held to its region's commit. -/
def execPbed (c : Ctl) (a b : BitVec 5) (s : State) : Host.Outcome State Fault Refusal :=
  issueCommand (.pbed c a b) c 0x01#7 a b s

/-- PBEDS (R358): checked, and held to its region's commit. -/
def execPbeds (c : Ctl) (a b : BitVec 5) (s : State) : Host.Outcome State Fault Refusal :=
  issueCommand (.pbeds c a b) c 0x02#7 a b s

/-- PMAP (R359): checked, and held to its region's commit. -/
def execPmap (c : Ctl) (a b : BitVec 5) (s : State) : Host.Outcome State Fault Refusal :=
  issueCommand (.pmap c a b) c 0x03#7 a b s

/-- PHOLD (R365): checked, and held to its region's commit. -/
def execPhold (c : Ctl) (a b : BitVec 5) (s : State) : Host.Outcome State Fault Refusal :=
  issueCommand (.phold c a b) c 0x04#7 a b s

/-- PFLOW (R369): checked, and held to its region's commit. -/
def execPflow (c : Ctl) (a b : BitVec 5) (s : State) : Host.Outcome State Fault Refusal :=
  issueCommand (.pflow c a b) c 0x05#7 a b s

/-- PDRAIN (R362): checked, and held to its region's commit. -/
def execPdrain (c : Ctl) (a b : BitVec 5) (s : State) : Host.Outcome State Fault Refusal :=
  issueCommand (.pdrain c a b) c 0x06#7 a b s

/-- PZERO (R379): checked, and held to its region's commit. -/
def execPzero (c : Ctl) (a b : BitVec 5) (s : State) : Host.Outcome State Fault Refusal :=
  issueCommand (.pzero c a b) c 0x07#7 a b s

/-- PSPAN (R381): checked, and held to its region's commit. -/
def execPspan (c : Ctl) (a b : BitVec 5) (s : State) : Host.Outcome State Fault Refusal :=
  issueCommand (.pspan c a b) c 0x08#7 a b s

/-- SDEF (R360): checked, and held to its region's commit. -/
def execSdef (c : Ctl) (a b : BitVec 5) (s : State) : Host.Outcome State Fault Refusal :=
  issueCommand (.sdef c a b) c 0x10#7 a b s

/-- SCNT (R360): checked, and held to its region's commit. -/
def execScnt (c : Ctl) (a b : BitVec 5) (s : State) : Host.Outcome State Fault Refusal :=
  issueCommand (.scnt c a b) c 0x11#7 a b s

/-- SSUB (R360): checked, and held to its region's commit. -/
def execSsub (c : Ctl) (a b : BitVec 5) (s : State) : Host.Outcome State Fault Refusal :=
  issueCommand (.ssub c a b) c 0x12#7 a b s

/-- SGO (R360): checked, and held to its region's commit. -/
def execSgo (c : Ctl) (a b : BitVec 5) (s : State) : Host.Outcome State Fault Refusal :=
  issueCommand (.sgo c a b) c 0x13#7 a b s

/-- SSTOP (R390): checked, and held to its region's commit. -/
def execSstop (c : Ctl) (a b : BitVec 5) (s : State) : Host.Outcome State Fault Refusal :=
  issueCommand (.sstop c a b) c 0x14#7 a b s

/-- SUNF (R397): checked, and held to its region's commit. -/
def execSunf (c : Ctl) (a b : BitVec 5) (s : State) : Host.Outcome State Fault Refusal :=
  issueCommand (.sunf c a b) c 0x15#7 a b s

/-- SRGP (R403): checked, and held to its region's commit. -/
def execSrgp (c : Ctl) (a b : BitVec 5) (s : State) : Host.Outcome State Fault Refusal :=
  issueCommand (.srgp c a b) c 0x16#7 a b s

/-- SHASH (R264): checked, and held to its region's commit. -/
def execShash (c : Ctl) (a b : BitVec 5) (s : State) : Host.Outcome State Fault Refusal :=
  issueCommand (.shash c a b) c 0x17#7 a b s

/-- CPSHAPE (R285): checked, and held to its region's commit. -/
def execCpshape (c : Ctl) (a b : BitVec 5) (s : State) : Host.Outcome State Fault Refusal :=
  issueCommand (.cpshape c a b) c 0x20#7 a b s

/-- CPY (R289): checked, and held to its region's commit. -/
def execCpy (c : Ctl) (a b : BitVec 5) (s : State) : Host.Outcome State Fault Refusal :=
  issueCommand (.cpy c a b) c 0x21#7 a b s

/-- CPYR (R290): checked, and held to its region's commit. -/
def execCpyr (c : Ctl) (a b : BitVec 5) (s : State) : Host.Outcome State Fault Refusal :=
  issueCommand (.cpyr c a b) c 0x22#7 a b s

/-- CPYF (R291): checked, and held to its region's commit. -/
def execCpyf (c : Ctl) (a b : BitVec 5) (s : State) : Host.Outcome State Fault Refusal :=
  issueCommand (.cpyf c a b) c 0x23#7 a b s

/-- GIDX (R406): checked, and held to its region's commit. -/
def execGidx (c : Ctl) (a b : BitVec 5) (s : State) : Host.Outcome State Fault Refusal :=
  issueCommand (.gidx c a b) c 0x28#7 a b s

/-- GATH (R407): checked, and held to its region's commit. -/
def execGath (c : Ctl) (a b : BitVec 5) (s : State) : Host.Outcome State Fault Refusal :=
  issueCommand (.gath c a b) c 0x29#7 a b s

/-- SCATA (R407): checked, and held to its region's commit. -/
def execScata (c : Ctl) (a b : BitVec 5) (s : State) : Host.Outcome State Fault Refusal :=
  issueCommand (.scata c a b) c 0x2A#7 a b s

/-- FLOAD (R83): checked, and held to its region's commit. -/
def execFload (c : Ctl) (a b : BitVec 5) (s : State) : Host.Outcome State Fault Refusal :=
  issueCommand (.fload c a b) c 0x30#7 a b s

/-- FGO (R83): checked, and held to its region's commit. -/
def execFgo (c : Ctl) (a b : BitVec 5) (s : State) : Host.Outcome State Fault Refusal :=
  issueCommand (.fgo c a b) c 0x31#7 a b s

/-- FSTOP (R83): checked, and held to its region's commit. -/
def execFstop (c : Ctl) (a b : BitVec 5) (s : State) : Host.Outcome State Fault Refusal :=
  issueCommand (.fstop c a b) c 0x32#7 a b s

/-- FPUT (R83): checked, and held to its region's commit. -/
def execFput (c : Ctl) (a b : BitVec 5) (s : State) : Host.Outcome State Fault Refusal :=
  issueCommand (.fput c a b) c 0x33#7 a b s

/-- TJOIN (R280): checked, and held to its region's commit. -/
def execTjoin (c : Ctl) (a b : BitVec 5) (s : State) : Host.Outcome State Fault Refusal :=
  issueCommand (.tjoin c a b) c 0x38#7 a b s

/-- TRESET (R281): checked, and held to its region's commit. -/
def execTreset (c : Ctl) (a b : BitVec 5) (s : State) : Host.Outcome State Fault Refusal :=
  issueCommand (.treset c a b) c 0x39#7 a b s

/-- GSTART (R311): checked, and held to its region's commit. -/
def execGstart (c : Ctl) (a b : BitVec 5) (s : State) : Host.Outcome State Fault Refusal :=
  issueCommand (.gstart c a b) c 0x40#7 a b s

/-- GARM (R311): checked, and held to its region's commit. -/
def execGarm (c : Ctl) (a b : BitVec 5) (s : State) : Host.Outcome State Fault Refusal :=
  issueCommand (.garm c a b) c 0x41#7 a b s

/-- GDONE (R311): checked, and held to its region's commit. -/
def execGdone (c : Ctl) (a b : BitVec 5) (s : State) : Host.Outcome State Fault Refusal :=
  issueCommand (.gdone c a b) c 0x42#7 a b s

/-- PSTAT (R383): checked, and sent once the thread's earlier commands have left; its reply is scoreboarded
in d. -/
def execPstat (c : Ctl) (d a b : BitVec 5) (s : State) : Host.Outcome State Fault Refusal :=
  issueWord (.pstat c d a b) c (replyBody 0x09#7 d a b) s

/-- FGET (R89): checked, and sent once the thread's earlier commands have left; its reply is scoreboarded
in d. -/
def execFget (c : Ctl) (d a b : BitVec 5) (s : State) : Host.Outcome State Fault Refusal :=
  issueWord (.fget c d a b) c (replyBody 0x34#7 d a b) s

/-- FSTAT (R89): checked, and sent once the thread's earlier commands have left; its reply is scoreboarded
in d. -/
def execFstat (c : Ctl) (d a b : BitVec 5) (s : State) : Host.Outcome State Fault Refusal :=
  issueWord (.fstat c d a b) c (replyBody 0x35#7 d a b) s

/-- TQUERY (R282): checked, and sent once the thread's earlier commands have left; its reply is scoreboarded
in d. -/
def execTquery (c : Ctl) (d a b : BitVec 5) (s : State) : Host.Outcome State Fault Refusal :=
  issueWord (.tquery c d a b) c (replyBody 0x3A#7 d a b) s

end Sys2Proof.Machine
end

