-- ==== Sys2Proof/Machine/Engine.lean ====
section
/-! DEFINITION. What the engines share: how a command begins, stops at an element, and ends (R277 to R279,
R293, R320), and the elements of the copy engine and the sieve (R288 to R291, R409). -/

namespace Sys2Proof.Machine

/-! ## Ends and stops -/

/-- The SRC of an engine's records, by the command's function (R352). -/
def engineSrc (func : BitVec 7) : Nat :=
  match func.toNat / 16, func.toNat / 8 with
  | 0, _ => 2
  | 1, _ => 3
  | 2, 4 => 4
  | 2, _ => 5
  | 3, 6 => 6
  | 3, _ => 8
  | _, _ => 9

/-- The state with an engine's record of a command in the log (R279, R293, R352). -/
def State.engineLog (s : State) (tile : Nat) (c : Cmd) (code : Nat) (addr : Nat) : State :=
  s.log { cause := code, src := engineSrc c.func, unit := tile, owner := s.ownerOf c.gid, addr := addr,
          aux := (produced c.b).getD 0, die := dieOf tile }

/-- The state with a command as it now stands, and its bytes in PROG while its token is still its own
(R282). -/
def State.saveCmd (s : State) (tile : Nat) (c : Cmd) : State :=
  let s1 := s.modCmd tile c.id fun _ => c
  match produced c.b with
  | none => s1
  | some k =>
    s1.modToken tile k fun t =>
      if t.owner = some c.id && 0x21 ≤ c.func.toNat && c.func.toNat ≤ 0x23 then
        { t with prog := Nat.min c.pos 0xFFFFFFFF }
      else t

/-- The state with a command's token at READ: its source has been read (R275, R295). The flags of the work
done so far reach FLAGS first (R134), and the command keeps those that follow. A command of an armed section
has no token and no thread (R384). -/
def State.sourceRead (s : State) (tile : Nat) (c : Cmd) : State :=
  if c.armed then s.saveCmd tile { c with readDone := true }
  else
    let c' := { c with readDone := true, flags := 0#8 }
    ((s.postFlags tile c.slot c.gid c.flags).saveCmd tile c').moveToken tile c' .read 0#6

/-- The state with a command frozen at an element by a memory fault (R279). -/
def State.freezeCmd (s : State) (tile : Nat) (c : Cmd) (e : AccessErr) (addr : Word) : State :=
  let s1 := s.saveCmd tile { c with stage := .frozen e.code addr }
  let s2 := match produced c.b with
    | none => s1
    | some k => s1.modToken tile k fun t => if t.owner = some c.id then { t with frozen := true } else t
  s2.engineLog tile c e.code.toNat addr.toNat

/-- The state with a command that has done its work ended, or kept until its far writes are visible at its scope
(R295, R317). -/
def State.finishCmd (s : State) (tile : Nat) (c : Cmd) (st : TokState) (cause : BitVec 6) : State :=
  if s.lags tile c.id then s.saveCmd tile { c with stage := .ending st cause } else s.endCmd tile c st cause

/-- The tile whose scratchpad a copy address names (R288). -/
def copyTile (tile : Nat) (space : Space) (a : Word) : Nat :=
  if space = .sp && bit a 43 then bits a 42 32 else tile

/-- The record of a command's dropped request (R293, R329): a gateway's has both identifiers, its own block's or, where
that one let it out, the one of the block whose scratchpad it names (R349). -/
def State.dropLog (s : State) (tile : Nat) (c : Cmd) (e : AccessErr) (addr : Word) : State :=
  if e.reason.toNat = 10 then
    let t := if s.blockDrops ((s.ownerOf c.gid).getD 0) (tile / 16) then tile else copyTile tile .sp addr
    s.gatewayRecord tile (t / 16) 0 c.gid addr
  else s.engineLog tile c 0x14 addr.toNat

/-- Whether a fault at an element ends its command: poison, a lost link, or a request that a gateway or another
package drops. -/
def AccessErr.ends (e : AccessErr) : Bool :=
  e.code == 0x05#6 || e.code == 0x13#6 || (e.code == 0x04#6 && decide (10 ≤ e.reason.toNat))

/-- What a fault at an element does to its command (R279, R293, R320, R329): poison ends it POISON, a lost
link and a dropped request end it FAULTED, once what it has written is visible at its scope (R317), and any other
fault freezes it, or ends the armed section it belongs to (R384). -/
def State.elementFault (s : State) (tile : Nat) (c : Cmd) (e : AccessErr) (addr : Word) : State :=
  if e.code = 0x05#6 then (s.engineLog tile c 0x05 addr.toNat).finishCmd tile c .poison 0x05#6
  else if e.code = 0x13#6 then (s.engineLog tile c 0x13 addr.toNat).finishCmd tile c .faulted 0x13#6
  else if e.code = 0x04#6 && 10 ≤ e.reason.toNat then
    (s.dropLog tile c e addr).finishCmd tile c .faulted 0x14#6
  else if c.armed then (s.engineLog tile c e.code.toNat addr.toNat).finishCmd tile c .faulted e.code
  else s.freezeCmd tile c e addr

/-- Whether the writes of a command may post flags: a conversion's, and those of a reduction of floats (R134). -/
def Cmd.postsFlags (c : Cmd) : Bool :=
  match c.func.toNat with
  | 0x22 => !c.sfmt.isInt
  | 0x23 => true
  | 0x2A => !c.rowFmt.isInt && c.rshape 53 51 != 3
  | _ => false

/-- What a fault does to a command whose last source byte has been read: one that it ends, or that has no flags to
wait for, comes to READ first, with the flags of the work that it has done (R134, R275, R279, R295, R411). -/
def State.faultAfterRead (s : State) (tile : Nat) (c : Cmd) (e : AccessErr) (addr : Word) : State :=
  if (e.ends || !c.postsFlags) && !c.readDone then (s.sourceRead tile c).elementFault tile { c with readDone := true, flags := 0#8 } e addr
  else s.elementFault tile c e addr

/-- A command ended FAULTED on an illegal argument (R278). -/
def State.rejectCmd (s : State) (tile : Nat) (c : Cmd) : State := s.endCmd tile c .faulted 0x0A#6

/-! ## Elements in memory -/

/-- What stopped an engine at an element, with the element's address. -/
structure Stop where
  err : AccessErr
  addr : Word

/-- The checks of R92 for one element of an engine, poison and then the way to it among them (R293, R320). -/
def State.element (s : State) (b : TlbId) (tile gid : Nat) (space : Space) (addr : Word) (size : Nat)
    (need : Need) : Except AccessErr (Nat × State) :=
  match s.resolve b tile gid space addr size need.learns with
  | .error e => .error e
  | .ok (place, s1) =>
    if s1.placePoisoned tile gid space place then .error errPoison
    else match s1.linkFault tile space place with
      | some e => .error e
      | none => .ok (place, s1)

/-- The place of an address, where it translates. -/
def State.placeAt (s : State) (b : TlbId) (tile gid : Nat) (space : Space) (addr : Word) : Option Nat :=
  match s.resolve b tile gid space addr 1 ⟨false, false, true⟩ with
  | .ok (place, _) => some place
  | .error _ => none

/-- An access of an engine of a tile: the buffer that translates it, the tile whose scratchpad it reaches, its space, the
addresses within that of its elements, its bytes, and whether it writes. -/
structure Ask where
  buffer : TlbId
  target : Nat
  space : Space
  addrs : List Word
  bytes : Nat
  write : Bool

/-- One address in each row of 64 bytes of a range of SP. -/
def rowAddrs (off n : Nat) : List Word :=
  if n = 0 then []
  else (List.range ((off + n - 1) / 64 - off / 64 + 1)).map fun r => Word.ofN (Nat.max off (64 * (off / 64 + r)))

/-- The access of an engine to a range of its tile's own SP. -/
def spAsk (tile off n : Nat) (write : Bool) : Ask := ⟨.tile tile, tile, .sp, rowAddrs off n, n, write⟩

/-- The banks of the rows of 64 bytes that an access takes (R262, R265). -/
def State.askBanks (s : State) (gid : Nat) (a : Ask) : List Nat :=
  match a.space with
  | .g | .h => []
  | _ =>
    (((a.addrs.filterMap fun x => s.placeAt a.buffer a.target gid a.space x).map (· / 64)).eraseDups).filterMap fun r =>
      s.bankOf a.target gid a.space (64 * r)

/-- An access that waits for its banks from now on. -/
def State.bookAsk (s : State) (gid : Nat) (a : Ask) : AskStage × State :=
  let r := s.takeBanks gid 0 0 (s.askBanks gid a)
  (.booked (s.now + r.1), r.2)

/-- The next stage of an engine's access (R252, R262, R265, R267): its request is sent, one to the tile's own scratchpad
excepted; where that has reached its end the access takes its banks; one that does not translate meets its fault at
once. -/
def State.askTurn (s : State) (tile gid : Nat) (who : EngineId) (a : Ask) (stage : AskStage) : AskStage × State :=
  match stage with
  | .unsent =>
    match a.addrs.head?.bind fun x => s.placeAt a.buffer a.target gid a.space x with
    | none => (.booked s.now, s)
    | some place =>
      if a.space = .sp && a.target == tile then s.bookAsk gid a
      else (.onWay, s.engineRequest tile a.target gid who a.space place a.bytes a.write)
  | .onWay => (.onWay, s)
  | .arrived => s.bookAsk gid a
  | .booked c => (.booked c, s)

/-- Whether an access may be performed. -/
def AskStage.ready (stage : AskStage) (now : Nat) : Bool :=
  match stage with
  | .booked c => decide (c ≤ now)
  | _ => false

/-- The state with the next access of a command performed by `f`, or a stage nearer to that. -/
def State.ask (s : State) (tile : Nat) (c : Cmd) (a : Ask) (f : State → Cmd → State) : State :=
  let r := s.askTurn tile c.gid (.command c.id) a c.ask
  if r.1.ready s.now then f r.2 { c with ask := .unsent, asked := s.now }
  else if r.1 = c.ask then s
  else r.2.modCmd tile c.id fun _ => { c with ask := r.1, asked := s.now }

/-- The address within its space that a copy address gives (R288). -/
def copyOffset (space : Space) (a : Word) : Word := if space = .sp then Word.ofN (bits a 20 0) else a

/-- The checks of an element at a copy address (R288, R293): a gateway of either block drops what goes to the
scratchpad of a tile of another block under an identifier that is not its own (R349). -/
def State.copyElement (s : State) (tile gid : Nat) (space : Space) (a : Word) (size : Nat) (need : Need) :
    Except AccessErr (Nat × State) :=
  let o := (s.ownerOf gid).getD 0
  let t := copyTile tile space a
  if space = .sp && !fieldsOk .sp a then .error (errAccess 1)
  else if t / 16 != tile / 16 && (s.blockDrops o (t / 16) || s.blockDrops o (tile / 16)) then .error (errAccess 10)
  else s.element (.tile tile) (copyTile tile space a) gid space (copyOffset space a) size need

/-- Whether a far write of a copy's kind is visible at a scope only once it is performed or complete (R335). -/
def lateAt (space : Space) (scope : Nat) : Bool := decide (earlyScope space < scope)

/-- The state with an engine's write on its way behind those of its command that are not yet performed (R294): it is
performed with the last of them. -/
def State.writeBehind (s : State) (tile gid : Nat) (maker : FarMaker) (space : Space) (place : Nat) (va : Word)
    (bs : List Byte) (pos : Nat) : State :=
  let last := ((s.pkg.far.filter fun x => x.tile == tile && x.maker == maker).map (·.due)).foldl Nat.max 0
  s.draw.2.modPkg fun p =>
    { p with far := p.far ++ [
        { id := s.free, tile := tile, gid := gid, maker := maker, space := space, place := place, va := va, pos := pos,
          cells := cellsOf place bs, since := s.now, due := last, wide := true }] }

/-- The state with bytes written by a copy command or a stream at a place, in the order of its elements: on their way to
another die or the host, behind what of it is on its way already, or at once (R294, R295, R335, R387). -/
def State.engineWrite (s : State) (tile gid : Nat) (maker : FarMaker) (space : Space) (scope : Nat) (a : Word)
    (place : Nat) (bs : List Byte) (pos : Nat) : State :=
  if farPlace tile space place then s.sendFar tile gid maker space place a (lateAt space scope) bs pos
  else if space = .g && s.unlanded tile maker .g then s.writeBehind tile gid maker space place a bs pos
  else s.writeOver (copyTile tile space a) gid space place bs

/-- An element's value reduced into another's, with its flags (R290, R409): 0 ADD, 1 MIN, 2 MAX, 3 AND,
4 OR, 5 XOR. -/
def reduceElem (rop : Nat) (f : Fmt) (old v : Nat) : Nat × BitVec 8 :=
  if f.isInt then
    (match rop with
     | 0 => AmoOp.add.apply f.bits old v 0
     | 1 => AmoOp.min.apply f.bits old v 0
     | 2 => AmoOp.max.apply f.bits old v 0
     | 3 => AmoOp.and.apply f.bits old v 0
     | 4 => AmoOp.or.apply f.bits old v 0
     | _ => AmoOp.xor.apply f.bits old v 0, flagNone)
  else
    match rop with
    | 1 => f.minmax false false old v
    | 2 => f.minmax true false old v
    | _ =>
      let r := (f.value false old).add .rne (f.value false v)
      let q := roundTo r.1 f .rne false false
      (q.1, r.2 ||| q.2)

/-- An element of one format converted to another in one step (R124, R291). -/
def convertElem (f g : Fmt) (rm : Rm) (sat : Bool) (v : Nat) : Nat × BitVec 8 :=
  roundTo (f.value false v) g rm sat false

end Sys2Proof.Machine
end

