-- ==== Sys2Proof/Machine/PoolMath.lean ====
section
/-! DEFINITION. What a pool computes (R354, R358, R359, R362, R364 to R369, R376): bed words, the leaves of
the cells, the trees, and the values of a drain. -/

namespace Sys2Proof.Machine

/-! ## The mode word (R118, R354) -/

/-- The format of a pool code; a ternary code has none (R116, R118). -/
def poolFmt (code : Nat) : Fmt :=
  match code with
  | 1 => .fp16
  | 2 => .bf16
  | 3 => .e4m3
  | 4 => .e5m2
  | 5 => .e2m1
  | 6 => .int8
  | 9 => .int32
  | _ => .fp32

def modeH (m : Word) : Nat := bits m 63 60
def modeF (m : Word) : Nat := bits m 59 56
def modeInt (m : Word) : Bool := bits m 55 52 == 9
def modeTrm (m : Word) : Rm := Rm.ofCode (bits m 51 50)
def modeDrm (m : Word) : Rm := Rm.ofCode (bits m 49 48)
def modeFtz (m : Word) : Bool := bit m 43
def modeSat (m : Word) : Bool := bit m 42

/-- The bits of an element of a held or flow format; a ternary code has 2 (R116, R364). -/
def elemBits (code : Nat) : Nat := if code = 7 then 2 else (poolFmt code).bits

/-- The stream elements that fill a lane or a held entry: two of a 1-byte format, one of a 2-byte format
(R365). -/
def perLane (code : Nat) : Nat := if code = 3 || code = 4 || code = 6 then 2 else 1

/-! ## Bed words (R358) -/

def bedFirst (w : Word) : Nat := bits w 63 47
def bedLen (w : Word) : Nat := bits w 46 30 + 1
def bedAcc (w : Word) : Nat := bits w 29 19
def bedAccN (w : Word) : Nat := bits w 18 15 + 1
def bedHold (w : Word) : Nat := bits w 14 11 + 1
def bedScale (w : Word) : Int := toInt (bits w 10 3) 8
def bedNeg (w : Word) : Bool := bit w 2
def bedValid (w : Word) : Bool := bit w 0

/-- Whether a bed word passes the checks of R358 in a pool of `size` cells or strips. -/
def bedOk (size : Nat) (w : Word) : Bool :=
  !bit w 1 && decide (bedFirst w + bedLen w ≤ size) && decide (bedAcc w + bedAccN w ≤ 2048)

/-- Whether two beds share a cell. -/
def bedsMeet (a b : Word) : Bool :=
  decide (bedFirst a < bedFirst b + bedLen b) && decide (bedFirst b < bedFirst a + bedLen a)

/-- A bed put in its place by FIRST. -/
def insertBed (w : Word) : List Word → List Word
  | [] => [w]
  | x :: xs => if bedFirst w < bedFirst x then w :: x :: xs else x :: insertBed w xs

/-- The beds after a bed word takes effect (R358): it removes what it overlaps, and installs itself if it
is valid. -/
def applyBed (beds : List Word) (w : Word) : List Word :=
  let kept := beds.filter fun x => !bedsMeet x w
  if bedValid w then insertBed w kept else kept

/-- The accumulator of a bed in a pass (R358, R369). -/
def bedTarget (w : Word) (p : Nat) : Nat := bedAcc w + p / bedHold w % bedAccN w

/-! ## Leaves (R364 to R366) -/

/-- The signed value of a ternary code, 0 for the reserved code (R116). -/
def ternary (c : Nat) : Int := if c = 1 then 1 else if c = 3 then -1 else 0

/-- The flowing element that a cell takes as its number `i` from its map entry (R359, R365): none is a
hard zero. -/
def flowing (mode : Word) (elems : Array Elem) (lanes : Nat) (entry : BitVec 16) (i : Nat) : Option Nat :=
  let per := 16 / elemBits (modeF mode)
  let l := (entry.toNat % 1024) + i / per
  if !entry.getLsbD 15 || lanes ≤ l || 1023 < l then none
  else
    let n := perLane (modeF mode)
    match elems[l * n + (if n = 2 then i % 2 else 0)]? with
    | none => none
    | some e =>
      if e.hard then none
      else if n = 2 then some (e.bits.toNat % 256)
      else some (e.bits.toNat / 2 ^ (elemBits (modeF mode) * (i % per)) % 2 ^ elemBits (modeF mode))

/-- The held element `i` of an entry (R364). -/
def heldElem (mode : Word) (h : BitVec 16) (i : Nat) : Nat :=
  h.toNat / 2 ^ (elemBits (modeH mode) * i) % 2 ^ elemBits (modeH mode)

/-- The exact sum of the products of a cell from number `i` on, `n` of them, added to `acc` (R366). -/
def sumProducts (mode : Word) (elems : Array Elem) (lanes : Nat) (entry h : BitVec 16) :
    Nat → Nat → Option Num → BitVec 8 → Num × BitVec 8
  | 0, _, acc, fl => (acc.getD (.fin false 0 0), fl)
  | n + 1, i, acc, fl =>
    let (p, f1) := match flowing mode elems lanes entry i with
      | none => (Num.fin false 0 0, flagNone)
      | some v =>
        ((poolFmt (modeH mode)).value (modeFtz mode) (heldElem mode h i)).mul
          ((poolFmt (modeF mode)).value (modeFtz mode) v)
    let (a, f2) := match acc with
      | none => (p, flagNone)
      | some x => x.add (modeTrm mode) p
    sumProducts mode elems lanes entry h n (i + 1) (some a) (fl ||| f1 ||| f2)

/-- The exact integer sum of the products of a cell, and TC for a reserved ternary code used (R116,
R366). -/
def intProducts (mode : Word) (elems : Array Elem) (lanes : Nat) (entry h : BitVec 16) :
    Nat → Nat → Int × BitVec 8
  | 0, _ => (0, flagNone)
  | n + 1, i =>
    let (s, fl) := intProducts mode elems lanes entry h n (i + 1)
    match flowing mode elems lanes entry i with
    | none => (s, fl)
    | some v =>
      let x := heldElem mode h i
      if modeH mode = 7 then (s + ternary x * toInt v 8, fl ||| flagIf (x == 2) flagTC)
      else (s + toInt x 8 * toInt v 8, fl)

/-- A cell's leaf value in a pass, with its flags (R366). -/
def leafValue (mode : Word) (elems : Array Elem) (lanes : Nat) (entry h : BitVec 16) : Nat × BitVec 8 :=
  let n := 16 / elemBits (modeH mode)
  if modeInt mode then
    let (s, fl) := intProducts mode elems lanes entry h n 0
    ((s % 2 ^ 32).toNat, fl)
  else
    let (s, fl) := sumProducts mode elems lanes entry h n 0 none flagNone
    let q := roundTo s .fp32 (modeTrm mode) false (modeFtz mode)
    (q.1, fl ||| q.2)

/-! ## The trees (R368, R369, R376) -/

/-- An addition of the trees, the runners and the accumulators (R368, R369). -/
def treeAdd (mode : Word) (x y : Nat × BitVec 8) : Nat × BitVec 8 :=
  if modeInt mode then ((x.1 + y.1) % 2 ^ 32, x.2 ||| y.2)
  else
    let r := (Fmt.fp32.value (modeFtz mode) x.1).add (modeTrm mode) (Fmt.fp32.value (modeFtz mode) y.1)
    let q := roundTo r.1 .fp32 (modeTrm mode) false (modeFtz mode)
    (q.1, x.2 ||| y.2 ||| r.2 ||| q.2)

/-- The subtree of level `k` over the cells from `a` (R368). -/
def subtree (mode : Word) (leaf : Nat → Nat × BitVec 8) (a : Nat) : Nat → Nat × BitVec 8
  | 0 => leaf a
  | k + 1 => treeAdd mode (subtree mode leaf a k) (subtree mode leaf (a + 2 ^ k) k)

/-- The level of the piece that begins at `a` with `len` cells to cover, at most `k` (R368). -/
def pieceLevel (a len : Nat) : Nat → Nat
  | 0 => 0
  | k + 1 => if a % 2 ^ (k + 1) = 0 && 2 ^ (k + 1) ≤ len then k + 1 else pieceLevel a len k

/-- The pieces of a range, left to right (R368): at most two of each level. -/
def pieces : Nat → Nat → Nat → List (Nat × Nat)
  | 0, _, _ => []
  | n + 1, a, len =>
    if len = 0 then []
    else
      let k := pieceLevel a len 22
      (a, k) :: pieces n (a + 2 ^ k) (len - 2 ^ k)

/-- The sum of a bed's cells: its pieces joined from left to right (R368, R376). -/
def bedSum (mode : Word) (leaf : Nat → Nat × BitVec 8) (first len : Nat) : Nat × BitVec 8 :=
  match pieces 64 first len with
  | [] => (0, flagNone)
  | (a, k) :: rest =>
    rest.foldl (fun s p => treeAdd mode s (subtree mode leaf p.1 p.2)) (subtree mode leaf a k)

/-! ## Drains (R362) -/

/-- The bed whose SCALE and NEG a drain applies to an accumulator: the lowest FIRST of those that step
through it (R362). Beds are listed by FIRST. -/
def scaleBed (beds : List Word) (i : Nat) : Option Word :=
  beds.find? fun w => decide (bedAcc w ≤ i) && decide (i < bedAcc w + bedAccN w)

/-- A value times 2^k. -/
def Num.scale (n : Num) (k : Int) : Num :=
  match n with
  | .fin s m e => .fin s m (e + k)
  | x => x

/-- The element that a drain writes for an accumulator, with its flags: one rounding of the scaled value
(R124, R362). A bed's NEG turns the 0 of an INT32 accumulator into -0 (DESIGN CHOICE, log entry 77). -/
def drainElem (mode : Word) (beds : List Word) (fmt : Nat) (i : Nat) (acc : W32) : Nat × BitVec 8 :=
  let x := (if modeInt mode then Fmt.int32 else Fmt.fp32).value (modeFtz mode) acc.toNat
  let y := match scaleBed beds i with
    | none => x
    | some w => let v := x.scale (bedScale w); if bedNeg w then v.neg else v
  roundTo y (poolFmt fmt) (modeDrm mode) (modeSat mode) (modeFtz mode)

end Sys2Proof.Machine
end

