-- ==== Sys2Proof/Machine/Pool.lean ====
section
/-! DEFINITION. The pool's three queues (R355 to R362, R369 to R383): configuration commands and their
wavefronts, holds, passes, drains, joined pools, and PSTAT. -/

namespace Sys2Proof.Machine

/-- A tile's pool. -/
def State.pool (s : State) (tile : Nat) : Pool := (s.ctx tile).pool

/-- The state with a tile's pool changed. -/
def State.modPool (s : State) (tile : Nat) (f : Pool → Pool) : State :=
  s.modCtx tile fun x => { x with pool := f x.pool }

/-- The command at the head of a queue of a tile. -/
def State.headOf (s : State) (tile : Nat) (q : QueueId) : Option Cmd := ((s.ctx tile).queue q).head?

/-- The running command at the head of a queue of a tile. -/
def State.runningHead (s : State) (tile : Nat) (q : QueueId) : Option Cmd :=
  (s.headOf tile q).filter fun c => c.stage == .running

/-- Whether a tile's joined pool spans dies and the way from its leader's to another of them is lost, so that neither a
pass nor a wavefront reaches all its members (R319, R320, R376; DESIGN CHOICE, log entry 97). -/
def State.spanLost (s : State) (tile level : Nat) : Bool :=
  5 ≤ level && (List.range (unitTiles level / 256)).any fun d => s.pairLost (dieOf tile) (dieOf tile + d)

/-- The key of a held entry of a cell (R364). -/
def heldKey (cell entry : Nat) : Nat := 16 * cell + entry

/-- A pool's cells, or its strips at levels 4 and above (R358, R375). -/
def poolCells (joined : Nat) : Nat := (if joined < 4 then 2048 else 64) * unitTiles joined

/-- The cells of a bed of a pool joined at a level (R375). -/
def bedRange (joined : Nat) (w : Word) : Nat × Nat :=
  if joined < 4 then (bedFirst w, bedLen w) else (32 * bedFirst w, 32 * bedLen w)

/-! ## The configuration queue (R354, R358, R359, R373, R382) -/

/-- The numbers that a PBEDS or PMAP reads from SP, and the bytes of each (R356). -/
def Cmd.configCount (c : Cmd) : Nat := if c.func = 0x02#7 then bits c.b 6 0 else if c.func = 0x03#7 then bits c.b 27 16 else 0
def Cmd.configSize (c : Cmd) : Nat := if c.func = 0x02#7 then 8 else 2

/-- A configuration command begins: a PBEDS or PMAP reads its SP bytes, and a PMAP takes the target in
force (R357, R382). -/
def State.configRead (s : State) (tile : Nat) (c : Cmd) : State :=
  let n := c.configCount
  let size := c.configSize
  let off := bits c.a 20 0
  let bytes := List.range (n * size)
  match bytes.find? fun i => s.placePoisoned tile c.gid .sp (off + i) with
  | some i => s.elementFault tile c errPoison (Word.ofN (off + i))
  | none =>
    let words := (List.range n).map fun i => leNat (s.loadBytes tile c.gid .sp (off + size * i) size)
    let c' := { c with stage := .running, list := words, aux := (s.pool tile).target }
    if n = 0 then s.saveCmd tile c' else s.sourceRead tile c'

/-- A configuration command begins, once the banks of what it reads are its own (R262). -/
def State.configBegin (s : State) (tile : Nat) (c : Cmd) : State :=
  s.ask tile c (spAsk tile (bits c.a 20 0) (c.configCount * c.configSize) false) fun a x => a.configRead tile x

/-- The state with a configuration command in effect, whose wavefront is counted, VISIBLE (R373, R420). -/
def State.wavefront (s : State) (tile : Nat) (c : Cmd) : State := (s.count 2 tile 2).endCmd tile c .visible 0#6

/-- The bed words of a PBED or PBEDS in effect: all are checked before any takes effect (R358). -/
def State.applyBeds (s : State) (tile : Nat) (c : Cmd) (ws : List Word) : State :=
  if ws.all fun w => bedOk (poolCells (s.pool tile).joined) w then
    (s.modPool tile fun p =>
      let gone := p.beds.filter fun b => ws.any fun w => bedsMeet b w
      { p with beds := ws.foldl applyBed p.beds
               bedPoison := p.bedPoison.filter fun f => gone.all fun b => bedFirst b != f }).wavefront tile c
  else s.rejectCmd tile c

/-- Map entries written from cell `k` on. -/
def putEntries (m : Sparse (BitVec 16)) (k : Nat) : List Nat → Sparse (BitVec 16)
  | [] => m
  | e :: es => putEntries (m.set k (BitVec.ofNat 16 e)) (k + 1) es

/-- A PMAP in effect: all entries are checked before any is written (R359). -/
def State.applyMap (s : State) (tile : Nat) (c : Cmd) : State :=
  if c.list.all fun e => e / 1024 % 32 == 0 then
    let k := bits c.b 10 0
    (s.modPool (tile + c.aux) fun p =>
      { p with map := putEntries p.map k c.list
               mapPoison := p.mapPoison.filter fun x => decide (x < k) || decide (k + c.list.length ≤ x)
        }).wavefront tile c
  else s.rejectCmd tile c

/-- A mode word with its SPAN field replaced (R354). -/
def withSpan (m : Word) (level : Nat) : Word :=
  (m &&& ~~~(0xF#64 <<< 44)) ||| (Word.ofN (level % 16) <<< 44)

/-- The other tiles of the unit that a leader joins (R375). -/
def memberTiles (level leader : Nat) : List Nat := (List.range (unitTiles level - 1)).map (leader + 1 + ·)

/-- Whether a tile bars a join (R382): it lies outside the partition, holds a group of another kernel node,
or belongs to another joined pool or armed section. -/
def State.barsJoin (s : State) (gid leader t : Nat) : Bool :=
  let p := s.pool t
  (match s.partOf gid, s.partAt t with
   | some a, some b => a.id != b.id
   | _, _ => true) ||
    (match s.group? gid with
     | none => true
     | some g => s.groups.any fun h =>
         h.members.contains t && !h.ended && (h.plot != g.plot || h.graph != g.graph || h.node != g.node)) ||
    p.memberOf.isSome || p.armed.isSome || (t != leader && p.joined != 0)

/-- Whether the pool queues of a tile are all empty. -/
def State.poolIdle (s : State) (t : Nat) : Bool :=
  (s.headOf t .config).isNone && (s.headOf t .flow).isNone && (s.headOf t .drain).isNone

/-- What a member holds of its own before a join (R382). -/
def Pool.toSave (p : Pool) : SavedPool := ⟨p.map, p.held, p.mapPoison, p.heldPoison⟩

/-- A member's pool after its joined pool has been left: its own map and held entries as they stood (R382). -/
def Pool.restored (p : Pool) : Pool :=
  let x := p.saved.getD p.toSave
  { p with memberOf := none, map := x.map, held := x.held, mapPoison := x.mapPoison, heldPoison := x.heldPoison,
           saved := none }

/-- The state with the pools of a unit joined under a leader (R375, R382). -/
def State.joinPools (s : State) (leader level target : Nat) : State :=
  let s1 := s.modPool leader fun p =>
    { p with beds := [], bedPoison := [], mode := withSpan p.mode level, joined := level, target := target }
  (memberTiles level leader).foldl (fun a t =>
    a.modPool t fun p => { p with memberOf := some leader, saved := some p.toSave }) s1

/-- The state with a leader's pool no longer joined: its members' own words apply again as they stood
(R382). -/
def State.leavePools (s : State) (leader : Nat) : State :=
  let level := (s.pool leader).joined
  let s1 := s.modPool leader fun p =>
    { p with beds := [], bedPoison := [], mode := withSpan p.mode 0, joined := 0, target := 0 }
  (memberTiles level leader).foldl (fun a t => a.modPool t Pool.restored) s1

/-- A PSPAN at the head of its queue (R382). -/
def State.applySpan (s : State) (tile : Nat) (c : Cmd) : State :=
  let level := bits c.a 2 0
  let target := bits c.a 14 4
  let p := s.pool tile
  if p.joined = 0 then
    if level = 0 then s.endCmd tile c .visible 0#6
    else if (tile :: memberTiles level tile).any fun t => s.barsJoin c.gid tile t then s.rejectCmd tile c
    else if (memberTiles level tile).all fun t => s.poolIdle t then
      (s.joinPools tile level target).wavefront tile c
    else s
  else if level = p.joined then (s.modPool tile fun q => { q with target := target }).endCmd tile c .visible 0#6
  else if level = 0 then (s.leavePools tile).wavefront tile c
  else s.rejectCmd tile c

/-- The state once a wavefront of a configuration command has switched every node (R355, R373, R382). -/
def State.switchNodes (s : State) (tile : Nat) (c : Cmd) : State :=
  if c.func = 0x00#7 then
    if bits c.a 47 44 ≠ (s.pool tile).joined then s.rejectCmd tile c
    else (s.modPool tile fun p => { p with mode := c.a }).wavefront tile c
  else if c.func = 0x01#7 then s.applyBeds tile c [c.a]
  else if c.func = 0x02#7 then s.applyBeds tile c (c.list.map Word.ofN)
  else if c.func = 0x03#7 then s.applyMap tile c
  else s.applySpan tile c

/-- CONFIG_WAVEFRONT (R373): the configuration command at the head of its queue, whose SP bytes have been
read, takes effect between two passes, and is VISIBLE. -/
def State.configWavefront (s : State) (tile : Nat) : State :=
  match s.runningHead tile .config with
  | none => s
  | some c =>
    let p := s.pool tile
    if (s.tile tile).stopped || p.armed.isSome then s
    else if s.spanLost tile p.joined || (c.func == 0x08#7 && p.joined == 0 && s.spanLost tile (bits c.a 2 0)) then
      s.elementFault tile c (errLink 2) 0#64
    else s.switchNodes tile c

/-! ## The flow queue (R360, R365, R369) -/

/-- The stream of a PHOLD or PFLOW, and the port it reads (R356). -/
def Cmd.flowStream (c : Cmd) : Nat := if c.func = 0x04#7 then bits c.b 2 0 else bits c.b 13 11
def Cmd.flowPort (c : Cmd) : Nat := if c.func = 0x04#7 then 21 else 20

/-- A PHOLD or PFLOW at the head of its queue begins, unless the mode word is 0 or its stream does not feed
its port in the mode's format (R355, R360, R365). -/
def State.flowBegin (s : State) (tile : Nat) (c : Cmd) : State :=
  let p := s.pool tile
  let st := vget (s.ctx tile).streams c.flowStream {}
  let code := if c.func = 0x04#7 then modeH p.mode else modeF p.mode
  if p.mode = 0#64 || st.fmt ≠ code || !(st.subs.any fun u => u.sub == c.flowPort) then s.rejectCmd tile c
  else (s.modPool tile fun q => { q with flowPort := [] }).saveCmd tile { c with stage := .running, aux := p.target }

/-- The elements that a PHOLD takes for an entry, or a PFLOW for a pass (R365). -/
def Cmd.portNeed (c : Cmd) (mode : Word) : Nat :=
  if c.func = 0x04#7 then perLane (modeH mode) else (bits c.b 9 0 + 1) * perLane (modeF mode)

/-- Whether a pool port takes another element of a stream: the command at the head of the flow queue reads
it (R360). -/
def State.portTakes (s : State) (tile stream port : Nat) : Bool :=
  match s.runningHead tile .flow with
  | none => false
  | some c =>
    c.flowStream == stream && c.flowPort == port &&
      decide ((s.pool tile).flowPort.length < c.portNeed (s.pool tile).mode)

/-- The entry that a PHOLD has the elements for, written: READ and VISIBLE with the last (R357, R365). -/
def State.holdEntry (s : State) (tile : Nat) (c : Cmd) : State :=
  let p := s.pool tile
  if p.flowPort.length < c.portNeed p.mode then s
  else if s.pairLost (dieOf tile) (dieOf (tile + c.aux)) then s.elementFault tile c (errLink 2) 0#64
  else
    let v : BitVec 16 := match p.flowPort with
      | [x] => x.bits.setWidth 16
      | x :: y :: _ => BitVec.ofNat 16 (x.bits.toNat % 256 + 256 * (y.bits.toNat % 256))
      | [] => 0#16
    let k := heldKey (bits c.a 10 0 + c.pos) (bits c.a 35 32)
    let s1 := (s.modPool tile fun q => { q with flowPort := [] }).modPool (tile + c.aux) fun q =>
      { q with held := q.held.set k v, heldPoison := q.heldPoison.filter (· != k) }
    let c' := { c with pos := c.pos + 1 }
    if c'.pos = bits c.a 27 16 then s1.endCmd tile c' .visible 0#6 else s1.saveCmd tile c'

/-- The state with an element of a stream at a pool port (R360, R365). -/
def State.portElem (s : State) (tile : Nat) (st : Stream) (e : Elem) : State :=
  let s1 := s.modPool tile fun q => { q with flowPort := q.flowPort ++ [e], fed := some st }
  match s1.runningHead tile .flow with
  | some c => if c.func = 0x04#7 then s1.holdEntry tile c else s1
  | none => s1

/-! ## Passes (R366 to R369, R375, R376) -/

/-- The leaf of a joint cell in a pass: the map and held entries are its own tile's (R375). -/
def State.cellLeaf (s : State) (leader : Nat) (mode : Word) (elems : Array Elem) (lanes hold cell : Nat) :
    Nat × BitVec 8 :=
  let p := s.pool (leader + cell / 2048)
  leafValue mode elems lanes (p.map.get 0#16 (cell % 2048)) (p.held.get 0#16 (heldKey (cell % 2048) hold))

/-- The beds that take part in a pass (R369). -/
def Cmd.passBeds (c : Cmd) (beds : List Word) : List Word := beds.filter fun w => bit c.a (bedTarget w c.pos / 64)

/-- Whether a pass reads a poisoned entry (R350): a bed word, an accumulator, or a map or held entry of its
cells. -/
def State.passPoisoned (s : State) (tile : Nat) (c : Cmd) : Bool :=
  let p := s.pool tile
  (c.passBeds p.beds).any fun w =>
    let r := bedRange p.joined w
    let hold := c.pos % bedHold w
    let inside (t k : Nat) : Bool :=
      let cell := 2048 * (t - tile) + k
      decide (r.1 ≤ cell) && decide (cell < r.1 + r.2)
    p.bedPoison.contains (bedFirst w) || p.accPoison.contains (bedTarget w c.pos) ||
      (tile :: memberTiles p.joined tile).any fun t =>
        ((s.pool t).mapPoison.any fun k => inside t k) ||
          (s.pool t).heldPoison.any fun k => k % 16 == hold && inside t (k / 16)

/-- The beds of a pass added into their accumulators one by one, in rising FIRST (R369). -/
def State.addBeds (s : State) (tile : Nat) (c : Cmd) (elems : Array Elem) (lanes : Nat) :
    List Word → Sparse W32 → BitVec 8 → Sparse W32 × BitVec 8
  | [], acc, fl => (acc, fl)
  | w :: ws, acc, fl =>
    let p := s.pool tile
    let r := bedRange p.joined w
    let x := bedSum p.mode (s.cellLeaf tile p.mode elems lanes (c.pos % bedHold w)) r.1 r.2
    let j := bedTarget w c.pos
    let v := treeAdd p.mode ((acc.get 0#32 j).toNat, flagNone) x
    s.addBeds tile c elems lanes ws (acc.set j (BitVec.ofNat 32 v.1)) (fl ||| v.2)

/-- The products that a cell forms in a pass, by the format of its held entry (R364). -/
def productsOf (held : Nat) : Nat :=
  match held with
  | 3 | 4 | 6 => 2
  | 5 => 4
  | 7 => 8
  | _ => 1

/-- The products that a pass forms (R369, R420). -/
def Cmd.passProducts (c : Cmd) (p : Pool) : Nat :=
  ((c.passBeds p.beds).map fun w => (bedRange p.joined w).2 * productsOf (modeH p.mode)).sum

/-- The state after the last pass of a PFLOW: VISIBLE, and recorded for R384 with the stream that fed it. -/
def State.flowEnd (s : State) (tile : Nat) (c : Cmd) : State :=
  let s1 := if c.armed then s else s.modPool tile fun p =>
    { p with lastFlow := some c, lastStream := p.fed }
  s1.endCmd tile c .visible 0#6

/-- POOL_PASS (R369): the elements of a pass have reached the flow port; each bed's sum is added into its
accumulator. A throttled die admits none (R418). -/
def State.poolPass (s : State) (tile : Nat) : State :=
  match s.runningHead tile .flow with
  | none => s
  | some c =>
    let p := s.pool tile
    let need := c.portNeed p.mode
    if c.func ≠ 0x05#7 || p.flowPort.length < need || (s.tile tile).stopped || s.throttled (dieOf tile) then s
    else if s.passPoisoned tile c then s.elementFault tile c errPoison 0#64
    else if s.spanLost tile p.joined then s.elementFault tile c (errLink 2) 0#64
    else
      let r := s.addBeds tile c (p.flowPort.take need).toArray (bits c.b 9 0 + 1) (c.passBeds p.beds) p.acc 0#8
      let s1 := ((s.modPool tile fun q => { q with acc := r.1, flowPort := q.flowPort.drop need }).count 2 tile 0
        ).countBy 2 tile 1 (c.passProducts p)
      let c' := { c with pos := c.pos + 1, flags := c.flags ||| r.2 }
      if c'.pos = bits c.a 63 32 then s1.flowEnd tile c' else s1.saveCmd tile c'

/-! ## The drain queue (R362, R372, R379, R380) -/

/-- PZERO (R379). -/
def Pool.zero (p : Pool) (tiles : Word) : Pool :=
  { p with acc := ⟨p.acc.items.filter fun x => !bit tiles (x.1 / 64)⟩
           accPoison := p.accPoison.filter fun i => !bit tiles (i / 64) }

/-- A PDRAIN begins: it reads the mode word and the bed words once (R380). -/
def State.drainBegin (s : State) (tile : Nat) (c : Cmd) : State :=
  let p := s.pool tile
  if c.func = 0x06#7 && !p.bedPoison.isEmpty then s.elementFault tile c errPoison 0#64
  else s.saveCmd tile { c with stage := .running, list := (p.mode :: p.beds).map (·.toNat) }

/-- The mode word and beds that a PDRAIN has read. -/
def Cmd.drainMode (c : Cmd) : Word := Word.ofN (c.list.headD 0)
def Cmd.drainBeds (c : Cmd) : List Word := c.list.tail.map Word.ofN

/-- The accumulators of a PDRAIN, and those that it has not read. -/
def Cmd.drainCount (c : Cmd) : Nat := bits c.b 21 11 + 1

/-- Accumulators read and converted, `n` at most, until one is poisoned (R362, R380). -/
def Cmd.readAccs (p : Pool) : Nat → Cmd → Cmd × Bool
  | 0, c => (c, false)
  | n + 1, c =>
    let i := bits c.b 10 0 + c.aux
    if c.drainCount ≤ c.aux then (c, false)
    else if p.accPoison.contains i then (c, true)
    else
      let r := drainElem c.drainMode c.drainBeds (bits c.b 25 22) i (p.acc.get 0#32 i)
      Cmd.readAccs p n
        { c with aux := c.aux + 1, chunk := c.chunk ++ [BitVec.ofNat 32 r.1], flags := c.flags ||| r.2 }

/-- Elements of a PDRAIN written in rising order, `n` at most, until one falls in a poisoned granule
(R323, R380). -/
def State.writeDrain (s : State) (tile : Nat) : Nat → Cmd → State × Cmd × Option Word
  | 0, c => (s, c, none)
  | n + 1, c =>
    match c.chunk with
    | [] => (s, c, none)
    | v :: vs =>
      let size := poolSize (bits c.b 25 22)
      let off := bits c.a 20 0 + size * c.pos
      if s.placePoisoned tile c.gid .sp off then (s, c, some (Word.ofN off))
      else
        (s.storeBytes tile c.gid .sp off (leBytes size v.toNat)).writeDrain tile n
          { c with pos := c.pos + 1, chunk := vs }

/-- The accumulators of a PDRAIN read, 64 at a time: READ with the last (R357, R380). A poisoned one stops
it: what it read before is written, and it ends POISON. -/
def State.drainRead (s : State) (tile : Nat) (c : Cmd) : State :=
  let (c1, poisoned) := Cmd.readAccs (s.pool tile) 64 c
  if poisoned then
    let (s2, c2, x) := s.writeDrain tile c1.chunk.length c1
    s2.elementFault tile c2 errPoison (x.getD 0#64)
  else if c1.aux = c1.drainCount then s.sourceRead tile c1
  else s.saveCmd tile c1

/-- Elements of a PDRAIN written, 64 at a time: VISIBLE with the last, and recorded for R384. -/
def State.drainWrite (s : State) (tile : Nat) (c : Cmd) : State :=
  let (s1, c1, x) := s.writeDrain tile 64 c
  match x with
  | some a => s1.elementFault tile c1 errPoison a
  | none =>
    if c1.chunk.isEmpty then
      (if c1.armed then s1 else s1.modPool tile fun p => { p with lastDrain := some c1 }).endCmd tile c1 .visible 0#6
    else s1.saveCmd tile c1

/-- The access that writes the next elements of a PDRAIN. -/
def Cmd.drainAsk (c : Cmd) (tile : Nat) : Ask :=
  let size := poolSize (bits c.b 25 22)
  spAsk tile (bits c.a 20 0 + size * c.pos) (size * Nat.min 64 c.chunk.length) true

/-- One step of the command that runs at the head of the drain queue, whose writes wait for their banks (R262). -/
def State.drainStep (s : State) (tile : Nat) (c : Cmd) : State :=
  if c.func = 0x07#7 then (s.modPool tile fun p => p.zero c.a).endCmd tile c .visible 0#6
  else if c.aux < c.drainCount then s.drainRead tile c
  else s.ask tile c (c.drainAsk tile) fun a x => a.drainWrite tile x

/-! ## PSTAT (R383) -/

/-- The accumulator tiles that are owned (R361, R384), as a mask. -/
def State.ownedMask (s : State) (tile : Nat) : Nat → Nat
  | 0 => 0
  | n + 1 => s.ownedMask tile n + (if (s.ownerToken tile n).isSome then 2 ^ n else 0)

/-- The word of PSTAT (R383): SPAN is the level of the joined pool that the tile leads or is a member of. -/
def State.pstatWord (s : State) (tile : Nat) : Word :=
  let p := s.pool tile
  let x := s.ctx tile
  Word.ofN (s.ownedMask tile 32 + 2 ^ 32 * b2n (p.mode != 0#64) + 2 ^ 33 * x.queued .config +
    2 ^ 38 * x.queued .flow + 2 ^ 43 * x.queued .drain +
    2 ^ 48 * (s.pool (p.memberOf.getD tile)).joined +
    2 ^ 51 * b2n p.memberOf.isSome + 2 ^ 52 * b2n p.armed.isSome + 2 ^ 53 * p.aflags.toNat)

/-- PSTAT performed: its word, and then AFLAGS cleared where CLRAF asks for it (R383). -/
def State.pstat (s : State) (tile : Nat) (c : Cmd) : State :=
  let s1 := s.replyTo tile c (s.pstatWord tile)
  (if bit c.a 0 then s1.modPool tile fun p => { p with aflags := 0#6 } else s1).endCmd tile c .visible 0#6

/-! ## The events -/

/-- POOL_PASS (R369): see `State.poolPass`. -/
def execPoolPass (tile : Nat) (s : State) : Host.Outcome State Fault Refusal :=
  if 2048 ≤ tile then .fault .noSuchUnit else .next (s.poolPass tile)

/-- CONFIG_WAVEFRONT (R373): see `State.configWavefront`. -/
def execConfigWavefront (tile : Nat) (s : State) : Host.Outcome State Fault Refusal :=
  if 2048 ≤ tile then .fault .noSuchUnit else .next (s.configWavefront tile)

end Sys2Proof.Machine
end

