-- ==== Sys2Proof/Machine/Copy.lean ====
section
/-! DEFINITION. The copy engine (R284 to R295): it reads a chunk of its source in element order, writes
it in element order, and then reads the next. -/

namespace Sys2Proof.Machine

/-- The elements of the source from `e` upward, `n` at most, read until one stops the command (R293,
R294). -/
def State.readElems (s : State) (tile : Nat) (c : Cmd) : Nat → Nat → List (BitVec 32) × Option Stop × State
  | 0, _ => ([], none, s)
  | n + 1, e =>
    let a := c.srcAddr e
    match s.copyElement tile c.gid c.sspace a c.srcBytes needLoad with
    | .error err => ([], some ⟨err, a⟩, s)
    | .ok (place, s1) =>
      let v := BitVec.ofNat 32 (leNat (s1.loadBytes (copyTile tile c.sspace a) c.gid c.sspace place c.srcBytes))
      let (vs, x, s2) := s1.readElems tile c n (e + 1)
      (v :: vs, x, s2)

/-- The value that an element writes over what its destination holds, with its flags (R289 to R291). -/
def Cmd.newElem (c : Cmd) (old v : Nat) : Nat × BitVec 8 :=
  if c.func = 0x21#7 then (v, flagNone)
  else if c.func = 0x22#7 then reduceElem (c.mode 21 19) c.sfmt old v
  else convertElem c.sfmt c.dfmt (Rm.ofCode (c.mode 17 16)) (c.mode 18 18 == 1) v

/-- The access that an element makes to its destination: CPYR reads and writes it in one step (R290). -/
def Cmd.dstNeed (c : Cmd) : Need := if c.func = 0x22#7 then needAmo else needStore

/-- SCOPE (R286). -/
def Cmd.scope (c : Cmd) : Nat := c.mode 9 7

/-- Who makes the far writes of a copy command. -/
def Cmd.farMaker (c : Cmd) : FarMaker := .command c.id c.left c.slot

/-- The state with an element written (R294, R295). A CPYR's is performed where it lies, with its read (R290). -/
def State.writeElem (s : State) (tile : Nat) (c : Cmd) (a : Word) (place : Nat) (bs : List Byte) : State :=
  if c.func = 0x22#7 then s.writeOver (copyTile tile c.dspace a) c.gid c.dspace place bs
  else s.engineWrite tile c.gid c.farMaker c.dspace c.scope a place bs c.pos

/-- The elements of a chunk written in order until one stops the command (R293, R294). -/
def State.writeElems (s : State) (tile : Nat) (c : Cmd) : List (BitVec 32) → Cmd × Option Stop × State
  | [] => ({ c with chunk := [] }, none, s)
  | v :: vs =>
    let a := c.dstAddr (c.pos / c.srcBytes)
    match s.copyElement tile c.gid c.dspace a c.dstBytes c.dstNeed with
    | .error err => ({ c with chunk := v :: vs }, some ⟨err, a⟩, s)
    | .ok (place, s1) =>
      let t := copyTile tile c.dspace a
      let old := leNat (s1.loadBytes t c.gid c.dspace place c.dstBytes)
      let (new, fl) := c.newElem old v.toNat
      (s1.writeElem tile c a place (leBytes c.dstBytes new)).writeElems tile
        { c with pos := c.pos + c.srcBytes, flags := c.flags ||| fl } vs

/-- Whether every element of a copy has been written. -/
def Cmd.allWritten (c : Cmd) : Bool := c.pos / c.srcBytes == c.elems

/-- A chunk written. With the last a CPYR or CPYF, whose flags are then whole, comes to READ (R134), and VISIBLE
follows in the next step; a CPY is VISIBLE at once; each once its far writes are visible at its scope (R295, R335). -/
def State.copyWrite (s : State) (tile : Nat) (c : Cmd) : State :=
  let (c', x, s0) := s.writeElems tile c c.chunk
  let n := c'.pos - c.pos
  let s2 := (s0.countBy 4 tile 0 (n / c.srcBytes)).countBy 4 tile 1 n
  match x with
  | some p =>
    if c.pos / c.srcBytes + c.chunk.length = c.elems then s2.faultAfterRead tile c' p.err p.addr
    else s2.elementFault tile c' p.err p.addr
  | none =>
    if !c'.allWritten then s2.saveCmd tile c'
    else if !c'.readDone then s2.sourceRead tile c'
    else s2.finishCmd tile c' .visible 0#6

/-- The elements of the next chunk: of 4 KiB, or all that are left (R294; DESIGN CHOICE, log entry 67). -/
def Cmd.chunkSize (c : Cmd) : Nat := Nat.min (4096 / c.srcBytes) (c.elems - c.pos / c.srcBytes)

/-- The access that writes the chunk in hand. -/
def Cmd.writeAsk (c : Cmd) (tile : Nat) : Ask where
  buffer := .tile tile
  target := copyTile tile c.dspace c.dstBase
  space := c.dspace
  addrs := (List.range c.chunk.length).map fun i => copyOffset c.dspace (c.dstAddr (c.pos / c.srcBytes + i))
  bytes := c.chunk.length * c.dstBytes
  write := true

/-- The access that reads the next chunk. -/
def Cmd.readAsk (c : Cmd) (tile : Nat) : Ask where
  buffer := .tile tile
  target := copyTile tile c.sspace c.a
  space := c.sspace
  addrs := (List.range c.chunkSize).map fun i => copyOffset c.sspace (c.srcAddr (c.pos / c.srcBytes + i))
  bytes := c.chunkSize * c.srcBytes
  write := false

/-- The chunk in hand written, once its request has arrived and its banks are its own (R262, R267). -/
def State.copyPut (s : State) (tile : Nat) (c : Cmd) : State := s.ask tile c (c.writeAsk tile) fun a x => a.copyWrite tile x

/-- A chunk of the source read. With the last source byte a copy comes to READ (R295), but one whose flags its last
writes may raise only with those, so that they reach FLAGS before its token satisfies READ (R134). -/
def State.copyRead (s : State) (tile : Nat) (c : Cmd) : State :=
  let e := c.pos / c.srcBytes
  let (vs, x, s1) := s.readElems tile c c.chunkSize e
  match vs, x with
  | [], some p => s1.elementFault tile c p.err p.addr
  | _, _ =>
    let c' := { c with chunk := vs }
    if e + vs.length = c.elems && !c.postsFlags then s1.sourceRead tile c' else s1.saveCmd tile c'

/-- One step of a running copy: what is all written is VISIBLE, the chunk in hand is written, or the next is read
(R294). -/
def State.copyStep (s : State) (tile : Nat) (c : Cmd) : State :=
  if c.allWritten then s.finishCmd tile c .visible 0#6
  else if c.chunk.isEmpty then s.ask tile c (c.readAsk tile) fun a x => a.copyRead tile x
  else s.copyPut tile c

/-- Whether the copy engine of a tile can take a further running command (R284). -/
def Context.copyRoom (x : Context) : Bool :=
  decide ((x.cmds.filter fun c => queueOf c.func == some .copy && c.stage != .waiting).length < 8)

end Sys2Proof.Machine
end

