-- ==== Sys2Proof/Machine/Errors.lean ====
section
/-! DEFINITION. The windows of corrected errors and the retirement of units (R351). -/

namespace Sys2Proof.Machine

/-- The units of R351, by their kind in a `CounterId`: those whose retirement retires a tile, a quad or a
block, and those that keep running and are reported, of which the plots have the places 0 to 31 and the die roots 32 to
39. -/
def unitTE : Nat := 11
def unitSpBank : Nat := 12
def unitStrip : Nat := 13
def unitTileLink : Nat := 14
def unitQuadBank : Nat := 15
def unitQuadLink : Nat := 16
def unitBlockBank : Nat := 17
def unitBlockLink : Nat := 18
def unitUpper : Nat := 19
def unitUcie : Nat := 20
def unitController : Nat := 21

/-- The tiles from `a` upward that the retirement of a unit retires (R351), with their number: a unit's
index counts from 0 within its tile, quad or block, 1,024 places to each. -/
def retiredTiles (u : CounterId) : Nat × Nat :=
  let k := u.index / 1024
  if u.unit = unitTE || u.unit = unitSpBank || u.unit = unitStrip || u.unit = unitTileLink then (k, 1)
  else if u.unit = unitQuadBank || u.unit = unitQuadLink then (4 * k, 4)
  else if u.unit = unitBlockBank || u.unit = unitBlockLink then (16 * k, 16)
  else (0, 0)

/-- The SRC of a unit's record (R352). -/
def unitSrc (u : CounterId) : Nat :=
  if u.unit = unitTE then 1
  else if u.unit = unitStrip then 2
  else if u.unit = unitTileLink || u.unit = unitQuadLink || u.unit = unitBlockLink || u.unit = unitUcie then 12
  else if u.unit = unitController then 11
  else 10

/-- The cause code of a record of a lasting fault: LINK for a link or UCIe module, and a free one of the codes of
R337 for a unit to which R351 gives none (log entry 6). -/
def State.lastingCode (s : State) (u : CounterId) : Nat × State :=
  if unitSrc u = 12 then (0x13, s) else s.drawCode

/-- The die of a counter's unit, where it lies on one (R263, R351, R420). -/
def counterDie (c : CounterId) : Option Nat :=
  let ofUnit (n : Nat) : Nat := n % 4096 * 4 ^ (n / 4096) / 256
  let place := c.index / 1024
  if c.unit = 0 then some (c.index / 1024)
  else if c.unit ≤ 5 then some (c.index / 256)
  else if c.unit = 6 then some (ofUnit c.index)
  else if c.unit = 7 then some (ofUnit (c.index / 6))
  else if c.unit = 8 then
    some (if c.index < 2 ^ 20 then c.index / 64 / 256
      else c.index % 2 ^ 20 / 256 * 4 ^ (c.index / 2 ^ 20) / 256)
  else if c.unit < 11 then none
  else if c.unit ≤ 14 then some (place / 256)
  else if c.unit ≤ 16 then some (place / 64)
  else if c.unit ≤ 18 then some (place / 16)
  else if c.unit = 19 then some (if place < 32 then place / 4 else place - 32)
  else if c.unit = 20 then (if c.index < 128 then some (c.index / 16) else none)
  else if c.unit = 21 then some (c.index / 2)
  else none

/-- The state with a unit found lasting: retired from placement, and recorded with CAUSE bit 6 by the root of its
die; a TE's record names its column and row (R351, R352). -/
def State.retireUnit (s : State) (u : CounterId) : State :=
  let (a, n) := retiredTiles u
  let s1 := (List.range n).foldl (fun x i => x.modTile (a + i) fun t => { t with retired := true }) s
  let s2 := s1.modPkg fun p => { p with retired := if p.retired.contains u then p.retired else u :: p.retired }
  let (code, s3) := s2.lastingCode u
  let owner := if n = 0 then none else (s3.partAt a).map (·.owner)
  let part := u.index % 1024
  let te := u.unit == unitTE
  s3.log { cause := code, lasting := true, src := unitSrc u, unit := if n = 0 then u.index else u.index / 1024,
           owner := owner, col := if te then part / 10 else 0, row := if te then part % 10 else 0,
           aux := if te || n = 0 then 0 else part, die := (counterDie u).getD 0 }

/-- A corrected event counted in its unit's window: four within 2^30 cycles make the fault lasting (R351). -/
def State.correctedEvent (s : State) (u : CounterId) : State :=
  let old := ((s.pkg.corrected.find? fun c => c.unit == u).map (·.cycles)).getD []
  let recent := s.now :: old.filter fun c => decide (s.now < c + 2 ^ 30)
  let s1 := (s.count u.unit u.index (2 * u.counter)).modPkg fun p =>
    { p with corrected := ⟨u, recent.take 4⟩ :: p.corrected.filter fun c => c.unit != u }
  if 4 ≤ recent.length && !s1.pkg.retired.contains u then s1.retireUnit u else s1

end Sys2Proof.Machine
end

