-- ==== Sys2Proof/Machine/Fabric.lean ====
section
/-! DEFINITION. The fabric: the meshes and neighbour links of the triggered elements, their queues and
free-slot counts (R137, R171 to R176, R272), region instances and their discard (R224 to R233), the stop of
an image (R88) and fabric traps (R151). -/

namespace Sys2Proof.Machine

/-! ## TEs by their place -/

/-- A TE by its tile and its column and row in the tile's 20 × 10 fabric. -/
abbrev TeId := Nat × Nat × Nat

/-- The TE at a place. -/
def State.teAt (s : State) (p : TeId) : TE := s.te p.1 p.2.1 p.2.2

/-- The state with one TE changed. -/
def State.modTeAt (s : State) (p : TeId) (f : TE → TE) : State := s.modTe p.1 p.2.1 p.2.2 f

/-- The mesh column of the left edge of a tile's fabric, in the mesh of a level (R272). -/
def meshCol (level tile : Nat) : Nat :=
  20 * ((if 1 ≤ level then tile % 2 else 0) + (if 2 ≤ level then 2 * (tile / 4 % 2) else 0) +
    (if 3 ≤ level then 4 * (tile / 16 % 2) else 0))

/-- The mesh row of the top edge of a tile's fabric (R272). -/
def meshRow (level tile : Nat) : Nat :=
  10 * ((if 1 ≤ level then tile / 2 % 2 else 0) + (if 2 ≤ level then 2 * (tile / 8 % 2) else 0) +
    (if 3 ≤ level then 4 * (tile / 32 % 2) else 0))

/-- The TE at a mesh place of the aligned unit of a level that contains a tile (R272). -/
def meshTe (level unitTile c r : Nat) : TeId :=
  (unitTile / 4 ^ level * 4 ^ level + c / 20 % 2 + 2 * (r / 10 % 2) + 4 * (c / 40 % 2) + 8 * (r / 20 % 2) +
    16 * (c / 80 % 2) + 32 * (r / 40 % 2), c % 20, r % 10)

/-- The mesh column of a TE in a rectangle's mesh. -/
def Rect.meshC (r : Rect) (p : TeId) : Nat := meshCol r.level p.1 + p.2.1

/-- The mesh row of a TE in a rectangle's mesh. -/
def Rect.meshR (r : Rect) (p : TeId) : Nat := meshRow r.level p.1 + p.2.2

/-- Whether a rectangle contains a TE. -/
def Rect.has (r : Rect) (p : TeId) : Bool :=
  unitOf r.level p.1 == unitOf r.level r.unitTile && decide (r.col ≤ r.meshC p) &&
    decide (r.meshC p < r.col + r.width) && decide (r.row ≤ r.meshR p) &&
    decide (r.meshR p < r.row + r.height)

/-- The TE at an offset from a rectangle's origin. -/
def Rect.te (r : Rect) (c w : Nat) : TeId := meshTe r.level r.unitTile (r.col + c) (r.row + w)

/-- The fabric rectangle that contains a TE, of the placed groups whose context is not in shadow storage. -/
def State.rectOfTe (s : State) (p : TeId) : Option Rect :=
  ((s.groups.filter fun g => !g.away).flatMap fun g => g.rects).find? fun r => r.has p

/-- The neighbour of a TE in direction n, e, s or w (0 to 3), inside its group's rectangle (R137, R273). -/
def State.neighbour (s : State) (p : TeId) (d : Nat) : Option TeId :=
  match s.rectOfTe p with
  | none => none
  | some r =>
    let c := r.meshC p
    let w := r.meshR p
    let q : Option (Nat × Nat) :=
      match d with
      | 0 => if r.row < w then some (c, w - 1) else none
      | 1 => if c + 1 < r.col + r.width then some (c + 1, w) else none
      | 2 => if w + 1 < r.row + r.height then some (c, w + 1) else none
      | _ => if r.col < c then some (c - 1, w) else none
    q.map fun x => meshTe r.level r.unitTile x.1 x.2

/-- The opposite direction. -/
def opposite (d : Nat) : Nat := (d + 2) % 4

/-- The route of tokens that arrive at a TE from a direction: 0 into its queue, k to output k − 1
(R174). -/
def TE.route (e : TE) (d : Nat) : Nat := e.router.toNat / 2 ^ (3 * d) % 8

/-- Whether an input queue keeps one slot reserved for CARRY (R174). -/
def TE.keepsSlot (e : TE) (d : Nat) : Bool := e.router.getLsbD (12 + d)

/-- The most links that a route can have: one for each input of every TE of a plot's mesh. -/
def maxHops : Nat := 51200

/-- The queue at the far end of an output, following the routes of R175, and the seams on the way (R173):
`n` links may still be followed. -/
def State.finalOf (s : State) : Nat → TeId → Nat → Nat → Option (TeId × Nat × Nat)
  | 0, _, _, _ => none
  | n + 1, p, d, seams =>
    match s.neighbour p d with
    | none => none
    | some q =>
      let seams' := if q.1 = p.1 then seams else seams + 1
      match (s.teAt q).route (opposite d) with
      | 0 => some (q, opposite d, seams')
      | k + 1 => if k < 4 then s.finalOf n q k seams' else none

/-- The output that a TE's route feeds from an input, if any: the input whose route names it. -/
def TE.routedTo (e : TE) (out : Nat) : Option Nat := [0, 1, 2, 3].find? fun j => e.route j == out + 1

/-- The sender whose free-slot count covers an input queue, following the routes back (R175). -/
def State.originOf (s : State) : Nat → TeId → Nat → Option (TeId × Nat)
  | 0, _, _ => none
  | n + 1, p, d =>
    match s.neighbour p d with
    | none => none
    | some q =>
      match (s.teAt q).routedTo (opposite d) with
      | some j => s.originOf n q j
      | none => some (q, opposite d)

/-! ## Queues and free-slot counts -/

/-- The tokens that an input queue holds. -/
def TE.queue (e : TE) (ch : Nat) : List Token := vget e.queues ch []

/-- The TE with an input queue replaced. -/
def TE.setQueue (e : TE) (ch : Nat) (q : List Token) : TE := { e with queues := vset e.queues ch q }

/-- The depth of an input queue n e s w m f (R136, R137). -/
def depthOf (ch : Nat) : Nat := if ch = 4 then 8 else 4

/-- The slots of an input queue that dequeued live-in tokens still hold (R226). -/
def TE.keptSlots (e : TE) (ch : Nat) : Nat := (e.taken.filter fun t => t.1 == ch).length

/-- The slots of an input queue that tokens hold. -/
def TE.usedSlots (e : TE) (ch : Nat) : Nat := (e.queue ch).length + e.keptSlots ch

/-- The tokens of an input queue that readiness counts: those in the queue's own slots and not in a seam
port (R137, R173). -/
def TE.visible (e : TE) (ch : Nat) : List Token := (e.queue ch).take (depthOf ch - e.keptSlots ch)

/-- The free slots of a final queue and the seams before it (R172, R173, R175). -/
def State.trueFree (s : State) (p : TeId) (d : Nat) : Nat :=
  match s.finalOf maxHops p d 0 with
  | none => 0
  | some (q, ch, seams) => depthOf ch + 2 * seams - (s.teAt q).usedSlots ch

/-- The free slots that an output of a TE counts for a firing: none on an output that leads nowhere or
whose link an audit or a failed parity stops, and one fewer into a queue with RSV set, but for CARRY
(R137, R186, R189, R190). -/
def State.freeOut (s : State) (p : TeId) (d : Nat) (carry : Bool) : Nat :=
  let e := s.teAt p
  match s.finalOf maxHops p d 0 with
  | none => 0
  | some (q, ch, _) =>
    if vget e.creditBad d false || (vget e.auditing d none).isSome then 0
    else if !carry && (s.teAt q).keepsSlot ch then vget e.credit d 0 - 1
    else vget e.credit d 0

/-- The TE with one free-slot count changed. -/
def TE.modCredit (e : TE) (d : Nat) (f : Nat → Nat) : TE :=
  { e with credit := vset e.credit d (f (vget e.credit d 0)) }

/-- The state with one slot of an input queue n, e, s or w returned to its sender (R172). -/
def State.returnSlot (s : State) (p : TeId) (ch : Nat) : State :=
  if 4 ≤ ch then s
  else
    match s.originOf maxHops p ch with
    | none => s
    | some (o, d) => s.modTeAt o fun e => e.modCredit d (· + 1)

/-- The state with several slots of an input queue returned. -/
def State.returnSlots (s : State) (p : TeId) (ch : Nat) : Nat → State
  | 0 => s
  | n + 1 => (s.returnSlot p ch).returnSlots p ch n

/-- The state with a token at the end of a queue. -/
def State.enqueue (s : State) (p : TeId) (ch : Nat) (t : Token) : State :=
  s.modTeAt p fun e => e.setQueue ch (e.queue ch ++ [t])

/-- The unit of the link that a TE sends on, in the error windows: a tile link of the sender's tile, where the link
crosses a seam too (R191, R351; DESIGN CHOICE, log entry 91). -/
def linkUnitOf (p : TeId) (d : Nat) : CounterId := ⟨unitTileLink, 1024 * p.1 + 4 * teKey p.2.1 p.2.2 + d, 0⟩

/-- A token pushed on an output n, e, s or w: it takes a slot of the sender's count and enters the queue
at the far end, or, where a corrupted count let it find no slot there, is dropped, which counts against the link (R171,
R172, R191). -/
def State.push (s : State) (p : TeId) (d : Nat) (t : Token) : State :=
  match s.finalOf maxHops p d 0 with
  | none => s
  | some (q, ch, seams) =>
    let s1 := s.modTeAt p fun e => e.modCredit d (· - 1)
    if (s1.teAt q).usedSlots ch < depthOf ch + 2 * seams then s1.enqueue q ch t
    else
      (s1.modTeAt q fun e => { e with overflowed := vset e.overflowed ch (vget e.overflowed ch 0 + 1) }).correctedEvent
        (linkUnitOf p d)

/-- The state with an output's count replaced by the true free count, as an audit or a takeover leaves it
(R190, R193). -/
def State.resync (s : State) (p : TeId) (d : Nat) : State :=
  let n := s.trueFree p d
  s.modTeAt p fun e =>
    { e with credit := vset e.credit d n, creditBad := vset e.creditBad d false,
             auditing := vset e.auditing d none }

/-- The counts that cover a TE's input queues and its outputs, replaced by the true counts (R172, R193). -/
def State.resyncAround (s : State) (p : TeId) : State :=
  [0, 1, 2, 3].foldl (fun a d =>
    let a1 := match a.originOf maxHops p d with
      | some (o, k) => a.resync o k
      | none => a
    a1.resync p d) s

/-- Whether a stream of a tile subscribes the in.m of a TE: TE (c, 0) takes the streams of column c
(R386). -/
def State.subscribed (s : State) (p : TeId) : Bool :=
  p.2.2 == 0 && (s.ctx p.1).streams.toList.any fun x => x.subs.any fun u => u.sub == p.2.1

/-- The unreserved slots of in.m: with a stream subscribed, its tokens have 4 slots and the TE's requests
the other 4 (R143, R386). -/
def State.freeM (s : State) (p : TeId) : Nat :=
  let e := s.teAt p
  if s.subscribed p then
    let own := ((e.queue 4).filter fun t => !t.stream).length +
      (e.taken.filter fun t => t.1 == 4 && !t.2.stream).length
    4 - own - e.reservedM
  else 8 - e.usedSlots 4 - e.reservedM

/-- The unreserved slots of in.f (R143). -/
def State.freeF (s : State) (p : TeId) : Nat := 4 - (s.teAt p).usedSlots 5 - (s.teAt p).reservedF

/-! ## Images and their instances -/

/-- The image that a TE holds. -/
def State.imageOf (s : State) (p : TeId) : Option Image := (s.teAt p).image.bind s.image?

/-- Whether an image has an instance that is open or closed. -/
def Image.active (m : Image) : Bool := m.state == .opened || m.state == .closed

/-- Whether a cause of R231 still discards the instance of an image: its commit has not begun (R208). -/
def Image.discards (m : Image) : Bool := m.active && !m.committing

/-- Whether a cause in a cycle meets an instance of an image, or joins the discard of that cycle (R232). -/
def Image.metBy (m : Image) (now : Nat) : Bool := m.discards || m.discarded == some now

/-- The image whose instance the firings of a TE belong to (R225). -/
def State.instanceOf (s : State) (p : TeId) : Option Nat :=
  match s.imageOf p with
  | some m => if m.active then some m.id else none
  | none => none

/-- Where the home of an image stands: its level and unit (R197). -/
def Image.homeUnit (m : Image) : Nat := unitOf m.home m.leader

/-- The state with the home of an image changed. -/
def State.modHomeOf (s : State) (m : Image) (f : Home → Home) : State := s.modHome m.home m.homeUnit f

/-- The home of an image. -/
def State.homeOf (s : State) (m : Image) : Home := s.homeAt m.home m.homeUnit

/-- Whether a thread slot still holds a thread of a group that has not halted (R15, R177). -/
def State.threadLives (s : State) (tile slot gid : Nat) : Bool :=
  let th := s.thread tile slot
  th.gid == gid && (th.status == .running || th.status == .stopped)

/-- The thread that issued the FGO of an image, while it has not halted (R151). -/
def State.ownerThread (s : State) (m : Image) : Option (Nat × Nat) :=
  match m.thread with
  | none => none
  | some (t, k) => if s.threadLives t k m.gid then some (t, k) else none

/-- A record of a TE for the log (R352). -/
def State.logTe (s : State) (p : TeId) (cause src slot : Nat) (addr aux : Nat) : State :=
  let owner := (s.imageOf p).bind fun m => s.ownerOf m.gid
  s.log { cause := cause, src := src, unit := p.1, owner := owner, sub := slot, col := p.2.1, row := p.2.2,
          addr := addr, aux := aux, die := dieOf p.1 }

/-- The state with every TE of an image stopped, as FSTOP leaves it (R88): firings are whole steps, so none
is in progress. -/
def State.stopTes (s : State) (m : Image) : State :=
  (m.tes.foldl (fun a p => a.modTeAt p fun e => { e with started := false, holding := none }) s).modImage m.id
    fun x => { x with started := false }

/-! ## Snapshots and discards -/

/-- What ROPEN records of a TE (R136, R225). -/
def TE.snapshot (e : TE) : Snapshot := ⟨e.p, e.x, e.lap⟩

/-- The tokens of an instance dropped from the queues of a TE, and from those that another image's open instance
took, their slots returned to the senders (R170). -/
def State.dropTokens (s : State) (p : TeId) (img : Nat) : State :=
  [0, 1, 2, 3, 4, 5].foldl (fun a ch =>
    let gone (t : Token) : Bool := t.region == some img
    let e := a.teAt p
    let n := ((e.queue ch).filter gone).length + (e.taken.filter fun t => t.1 == ch && gone t.2).length
    (a.modTeAt p fun x =>
      { x.setQueue ch ((x.queue ch).filter fun t => !gone t) with
        taken := x.taken.filter fun t => !(t.1 == ch && gone t.2) }).returnSlots p ch n) s

/-- A TE with the live-in tokens that an instance took put back in front of its queues, in their order
(R226). -/
def TE.putBack (e : TE) : TE :=
  let e1 := [0, 1, 2, 3, 4, 5].foldl (fun a ch =>
    a.setQueue ch ((e.taken.filter fun t => t.1 == ch).map (·.2) ++ a.queue ch)) e
  { e1 with taken := [] }

/-- Whether a request at a TE's out.m is dropped by a discard of an instance: not one that waits there after the
instance has closed, which escapes the discard (R230). -/
def dropsRequest (m : Image) (r : ChainReq) : Bool := r.inRegion && m.state != .closed

/-- The packets that stand in a switch. -/
def Switch.packets (w : Switch) : List Packet :=
  (w.queues.toList.flatMap fun q => q.toList.flatten) ++ w.waiting.map (·.2)

/-- The switch with every packet changed. -/
def Switch.mapPackets (w : Switch) (f : Packet → Packet) : Switch :=
  { w with queues := w.queues.map fun q => q.map fun l => l.map f
           waiting := w.waiting.map fun x => (x.1, f x.2) }

/-- Whether a packet is the reply to a chain access of an image, of its instance where that is asked. -/
def Packet.replies (x : Packet) (img : Nat) (instance_ : Bool) : Bool :=
  match x.payload with
  | .chainReply i _ _ t => i == img && (!instance_ || t.region == some img)
  | _ => false

/-- The TE that a chain reply goes to. -/
def Packet.repliesTo (x : Packet) (p : TeId) : Bool :=
  match x.payload with
  | .chainReply _ col row _ => (x.tile, col, row) == p
  | _ => false

/-- The replies on their way to a TE of an image (R252). -/
def State.repliesFor (s : State) (img : Nat) (instance_ : Bool) (p : TeId) : Nat :=
  (s.switches.items.map fun w => (w.2.packets.filter fun x => x.replies img instance_ && x.repliesTo p).length).sum

/-- The state with the replies on their way to an image, of its instance where that is asked, changed. -/
def State.mapReplies (s : State) (img : Nat) (instance_ : Bool) (f : Payload → Payload) : State :=
  let g (x : Packet) : Packet := if x.replies img instance_ then { x with payload := f x.payload } else x
  { s with switches := ⟨s.switches.items.map fun w => (w.1, w.2.mapPackets g)⟩ }

/-- The reserved slots of in.m whose requests belong to the open instance of a TE's image: those still at
out.m, those the home has not yet answered, and those whose answer is on its way (R170). -/
def State.instanceReservedM (s : State) (m : Image) (p : TeId) : Nat :=
  ((s.teAt p).outM.filter (dropsRequest m)).length +
    ((s.homeOf m).entries.filter fun x => x.img == m.id && x.req.inRegion && x.te == p && !x.replied).length +
    s.repliesFor m.id true p

/-- The requests of an instance that wait at a TE's column unit (R149). -/
def State.instanceReservedF (s : State) (m : Image) (p : TeId) : Nat :=
  ((vget (s.ctx p.1).colReqs p.2.1 []).filter fun r => r.row == p.2.2 && r.img == m.id && r.inRegion).length

/-- A TE restored to its snapshot (R136, R170). -/
def TE.restore (e : TE) (sn : Snapshot) : TE := { e with p := sn.p, x := sn.x, lap := sn.lap }

/-- The state with one TE of a discarded instance restored (R170, R231). -/
def State.restoreTe (s : State) (m : Image) (p : TeId) : State :=
  let rm := s.instanceReservedM m p
  let rf := s.instanceReservedF m p
  let s1 := s.dropTokens p m.id
  let s2 := s1.modTeAt p fun e =>
    let e1 := { e.putBack with
      holding := none
      outM := (e.outM.filter fun r => !dropsRequest m r).map fun r => { r with inRegion := false }
      reservedM := e.reservedM - rm
      reservedF := e.reservedF - rf }
    match m.snapshots.find? fun x => x.1 == p with
    | some (_, sn) => e1.restore sn
    | none => e1
  s2.modCtx p.1 fun c =>
    { c with
      colReqs := vset c.colReqs p.2.1
        ((vget c.colReqs p.2.1 []).filter fun r => !(r.row == p.2.2 && r.img == m.id && r.inRegion)) }

/-- The TEs of a tile as places. -/
def State.tesOf (s : State) (tile : Nat) : List TeId :=
  (s.ctx tile).tes.keys.map fun k => (tile, k / 10, k % 10)

/-- The tokens of an instance dropped from every other TE's queues (R170). -/
def State.dropElsewhere (s : State) (m : Image) : State :=
  (s.tiles.keys.flatMap fun t => s.tesOf t).foldl (fun a p => a.dropTokens p m.id) s

/-- The control tokens that an instance holds dropped: their slots returned, their flags ORed back into
the TEs that pushed them (R15, R165, R231). -/
def State.dropControl (s : State) (m : Image) : State :=
  m.heldTokens.foldl (fun a x =>
    a.modTe x.1 x.2.col x.2.row fun e =>
      { e with ctlTokens := e.ctlTokens - 1, flags := e.flags ||| x.2.flags }) s

/-- The chain contexts and entries of a discarded instance at its home (R200, R201). -/
def Home.dropInstance (h : Home) (img : Nat) : Home :=
  { h with
    entries := h.entries.filter fun x => !(x.img == img && x.req.inRegion)
    ctxs := h.ctxs.map fun k =>
      if k.img == img then { k with lap := k.savedLap, pos := k.savedPos, closed := false } else k }

/-- How a discard ends (R231): the cause code of R337, where the cause has one; whether it counts; whether
the instance re-enters in ordered mode; and whether the image stops. -/
structure Discard where
  cause : Option Nat
  counted : Bool := true
  ordered : Bool := false
  stops : Bool := false
  deriving DecidableEq, Repr

/-- The cause code of a discard for a record: a free one of R337's codes where it gives the cause none (RABORT
and FSTOP). -/
def State.discardCode (s : State) (d : Discard) : Nat × State :=
  match d.cause with
  | some c => (c, s)
  | none => s.drawCode

/-- The open or closed instance of an image undone: everything of R170 and R231 but the counter and what
follows. A reply on its way loses its value (R200). A chain overflow that is due in this cycle stays due (R232). -/
def State.undo (s : State) (m : Image) : State :=
  let s1 := m.tes.foldl (fun a p => a.restoreTe m p) s
  let s2 := ((s1.dropElsewhere m).dropControl m).mapReplies m.id true fun _ => .plain
  (s2.modHomeOf m fun h => h.dropInstance m.id).modImage m.id fun x =>
    { x with snapshots := [], heldTokens := [], columnOut := 0, discarded := some s.now,
             blockedSince := m.blockedSince.filter fun c => decide (c + 512 ≤ s.now) }

/-- A further cause of the cycle in which an instance has been discarded: it counts no more, and adds its mode and
its stop (R232). -/
def State.combineDiscard (s : State) (m : Image) (d : Discard) : State :=
  let s1 := s.modImage m.id fun x =>
    { x with ordered := x.ordered || d.ordered, state := if d.stops then .stopped else x.state }
  if d.stops then s1.stopTes m else s1

/-- The stop of an image whose snapshot held an uncorrectable error where the discard restored it (R234, R350):
one POISON record for each TE. R350 has no row for a snapshot, and a commit forgets the error (DESIGN CHOICE, log
entry 38). -/
def State.snapshotStop (s : State) (m : Image) : State :=
  if m.snapPoison.isEmpty then s
  else
    let s1 := m.snapPoison.foldl (fun a p => a.logTe p 0x05 1 0 0 0) (s.stopTes m)
    s1.modImage m.id fun x => { x with state := .stopped, snapPoison := [] }

/-- What a cause leaves of an image that has no instance to discard: it joins the discard of the same cycle (R232),
and a stop stops the image, during a commit once that is complete (R233). -/
def State.stopOnly (s : State) (m : Image) (d : Discard) : State :=
  if m.committing then (if d.stops then s.modImage m.id fun x => { x with stopAfter := true } else s)
  else if m.discarded = some s.now then s.combineDiscard m d
  else if d.stops then s.stopTes m
  else s

/-- A DISCARD of the instance of an image, if it has one (R170, R228, R231 to R233). -/
def State.discardInstance (s : State) (img : Nat) (d : Discard) : State :=
  match s.image? img with
  | none => s
  | some m =>
    if !m.discards then s.stopOnly m d
    else
      let s1 := s.undo m
      let n := if d.counted then m.reentry + 1#8 else m.reentry
      let limit := d.counted && (decide (m.reentrymax.toNat ≤ n.toNat) || n == 0#8)
      let stops := d.stops || limit
      let s2 := s1.modImage img fun x =>
        { x with reentry := n, ordered := x.ordered || d.ordered,
                 state := if stops then .stopped else .idle }
      let s3 := (if stops then s2.stopTes m else s2).snapshotStop m
      if limit then
        let (code, s4) := s3.discardCode d
        s4.log { cause := 0x11, src := 6, unit := m.leader, owner := s4.ownerOf m.gid, aux := code,
                 die := dieOf m.leader }
      else s3

/-- The stop of an image as for FSTOP (R88, R212). -/
def State.stopImage (s : State) (m : Image) : State := s.discardInstance m.id { cause := none, stops := true }

/-- Whether a cause that a slot of an image meets takes no effect in this cycle: while a commit is under way it waits
for IDLE, and the slot, which does not fire, meets it again (R233; DEDUCED, log entry 87); and in the cycle in which a
takeover ended the domain nothing else applies (R232). -/
def Image.defers (m : Image) (now : Nat) : Bool := m.committing || m.endedAt == some now

/-! ## Fabric traps (R151, R152) -/

/-- The FTRAP word of a trap (R152): the channel and tags, the address or the number in DETAIL, the slot, and
the place relative to the group's rectangle. -/
def ftrapWord (cause detail slot row col : Nat) : Word :=
  Word.ofN (2 ^ 63 + detail % 2 ^ 16 * 2 ^ 32 + slot % 32 * 2 ^ 24 + row % 256 * 2 ^ 16 + col % 256 * 2 ^ 8 +
    cause % 64)

/-- A thread that receives a fabric trap: FTRAP holds the first, MORE says that another came (R151,
R152). -/
def Thread.fabricTrap (th : Thread) (w : Word) : Thread :=
  { th with ftrap := if bit th.ftrap 63 then th.ftrap ||| (1#64 <<< 62) else w,
            evt := th.evt ||| (1#16 <<< 15) }

/-- A FABRIC TRAP of a slot (R151): the slot does not fire, the image stops, its instance is discarded, and
the FGO thread, or the log once that thread has halted, receives the trap. The record comes from the tile of the
rectangle's top-left TE, and names the faulting TE in the rectangle as FTRAP does (R272; DESIGN CHOICE, log
entry 85). -/
def State.fabricTrap (s : State) (p : TeId) (slot cause detail : Nat) : State :=
  match (s.imageOf p).filter fun m => !m.defers s.now with
  | none => s
  | some m =>
    let (col, row) := match s.rectOfTe p with
      | some r => (r.meshC p - r.col, r.meshR p - r.row)
      | none => (p.2.1, p.2.2)
    let s1 := s.discardInstance m.id { cause := some cause, stops := true }
    match s1.ownerThread m with
    | some (t, k) => s1.modThread t k fun th => th.fabricTrap (ftrapWord cause detail slot row col)
    | none =>
      s1.log { cause := cause, src := 1, unit := m.leader, owner := s1.ownerOf m.gid, sub := slot, col := col, row := row,
               aux := (ftrapWord cause detail slot row col).toNat, die := dieOf m.leader }

/-- The stop of an image for an uncorrectable error that a slot meets (R350): POISON, named with the TE,
the slot and the word. -/
def State.poisonStop (s : State) (p : TeId) (slot addr : Nat) : State :=
  match (s.imageOf p).filter fun m => !m.defers s.now with
  | none => s
  | some m =>
    (s.discardInstance m.id { cause := some 0x05, stops := true }).logTe p 0x05 1 slot addr 0

end Sys2Proof.Machine
end

