-- ==== Sys2Proof/Machine/Streams.lean ====
section
/-! DEFINITION. The stream engine and its prism (R264, R360, R385 to R404, R422): the commands of the stream
queue, the fetch of elements, and their delivery to subscribers. -/

namespace Sys2Proof.Machine

/-- A stream of a tile. -/
def State.stream (s : State) (tile i : Nat) : Stream := vget (s.ctx tile).streams i {}

/-- The state with a stream of a tile changed. -/
def State.modStream (s : State) (tile i : Nat) (f : Stream → Stream) : State :=
  s.modCtx tile fun x => { x with streams := vset x.streams i (f (vget x.streams i {})) }

/-! ## The sequence of elements (R360, R396 to R404) -/

/-- The factor of a regrouping (R403). -/
def Stream.factor (st : Stream) : Nat := if st.regroupFact = 1#2 then 2 else if st.regroupFact = 2#2 then 4 else 1

/-- The elements of a row of an unfolding (R399). -/
def Unfold.row (u : Unfold) : Nat := u.c * u.kh * u.kw

/-- The elements of a pass over a stream (R360, R399). -/
def Stream.total (st : Stream) : Nat :=
  match st.unfold with
  | some u => u.oh * u.ow * u.row
  | none => st.counts.toList.foldl (· * ·) 1

/-- Σ ki × STRIDEi for element `k`, counter 0 running fastest (R360). -/
def counterOffset : List (Nat × Int) → Nat → Int
  | [], _ => 0
  | (n, d) :: rest, k => (k % n : Nat) * d + counterOffset rest (k / n)

/-- The offset in elements of an element of the stored tensor (R396, R404). -/
def Stream.tapOffset (st : Stream) (u : Unfold) (c iy ix : Nat) : Nat :=
  let f := st.factor
  if f = 1 then c * u.cstride + iy * u.w + ix
  else if st.regroupDir then
    (c * f * f + iy % f * f + ix % f) * u.cstride + iy / f * (u.w / f) + ix / f
  else
    c / (f * f) * u.cstride + (iy * f + c % (f * f) / f) * (u.w * f) + (ix * f + c % f)

/-- The offset in elements of element `n` of an unfolding, none for a padding tap (R399). -/
def Stream.unfolded (st : Stream) (u : Unfold) (n : Nat) : Option Nat :=
  let q := n / u.row
  let j := n % u.row
  let ky := j % (u.kh * u.kw) / u.kw
  let kx := j % u.kw
  let iy : Int := (q / u.ow * u.sy + ky * u.dy : Nat) - (u.pt : Int)
  let ix : Int := (q % u.ow * u.sx + kx * u.dx : Nat) - (u.pl : Int)
  if iy < 0 || (u.h : Int) ≤ iy || ix < 0 || (u.w : Int) ≤ ix then none
  else some (st.tapOffset u (j / (u.kh * u.kw)) iy.toNat ix.toNat)

/-- The address of element `k`, none for a padding tap (R360, R396, R399). -/
def Stream.addr (st : Stream) (k : Nat) : Option Word :=
  match st.unfold with
  | some u => (st.unfolded u k).map fun o => st.base + Word.ofN (poolSize st.fmt * o)
  | none =>
    some (st.base + BitVec.ofInt 64
      ((poolSize st.fmt : Int) * counterOffset (st.counts.toList.zip st.strides.toList) k))

/-- The space of a stream (R356). -/
def Stream.spaceOf (st : Stream) : Space := spaceOfCode st.space.toNat

/-! ## Definitions (R360, R397, R398, R403) -/

/-- A stream with a counter set (R360). -/
def Stream.setCount (st : Stream) (x : Nat × Nat × Int) : Stream :=
  { st with counts := vset st.counts x.1 x.2.1, strides := vset st.strides x.1 x.2.2 }

/-- SDEF (R356, R360): a stream afresh, with the counters that were recorded while the old one unfolded (R399;
DEDUCED, log entry 69). -/
def sdefOf (c : Cmd) (old : Stream) : Stream :=
  old.nextCounts.foldl Stream.setCount
    { base := c.a, space := BitVec.ofNat 2 (bits c.b 5 4), fmt := bits c.b 11 8, gid := c.gid }

/-- SCNT (R360): recorded for the next SDEF while the stream unfolds (R399). -/
def Stream.scnt (st : Stream) (x : Nat × Nat × Int) : Stream :=
  if st.unfold.isSome then { st with nextCounts := st.nextCounts ++ [x] } else st.setCount x

/-- SSUB (R356, R387): a subscriber with the copy descriptor's DST and MODE. -/
def ssubOf (c : Cmd) : Sub :=
  { sub := bits c.b 8 4, win := bits c.a 31 0, rep := bits c.a 47 32,
    dst := vget c.copy 0 0#64, mode := vget c.copy 1 0#64 }

/-- The unfolding descriptor in 32 bytes, if every field is in its range (R398). -/
def unfoldOf (b : List Byte) : Option Unfold :=
  let f (at_ n : Nat) : Nat := leNat ((b.drop at_).take n)
  let u : Unfold :=
    { c := f 0 2, h := f 2 2, w := f 4 2, oh := f 6 2, ow := f 8 2, kh := f 10 1, kw := f 11 1, sy := f 12 1,
      sx := f 13 1, dy := f 14 1, dx := f 15 1, pt := f 16 2, pl := f 18 2, cstride := f 20 4 }
  let inR (v hi : Nat) : Bool := decide (1 ≤ v) && decide (v ≤ hi)
  if inR u.c 2048 && inR u.h 4096 && inR u.w 4096 && inR u.oh 4096 && inR u.ow 4096 && inR u.kh 15 && inR u.kw 15 &&
      inR u.sy 8 && inR u.sx 8 && inR u.dy 255 && inR u.dx 255 && decide (u.pt ≤ 4095) && decide (u.pl ≤ 4095) &&
      inR u.cstride (2 ^ 21) && f 24 8 == 0
  then some u else none

/-- Whether a stream may be started (R389, R401, R404). -/
def Stream.mayStart (st : Stream) : Bool :=
  !st.running && !st.subs.isEmpty &&
    match st.unfold with
    | none => st.regroupFact == 0#2
    | some u =>
      let f := st.factor
      let plane := if f = 1 then u.h * u.w else if st.regroupDir then u.h * u.w / (f * f) else u.h * u.w * (f * f)
      st.space == 0#2 && [1, 2, 3, 4, 6].contains st.fmt && (st.subs.all fun x => x.sub == 20 || x.sub == 23) &&
        decide (plane ≤ u.cstride) &&
        (f == 1 || (if st.regroupDir then u.h % f == 0 && u.w % f == 0 else u.c % (f * f) == 0))

/-- A stream started from its base by a command, the `n`-th that its tile has begun (R389, R390, R422). -/
def Stream.start (st : Stream) (c : Cmd) (n : Nat) : Stream :=
  { st with running := true, starter := c.id, began := n, gid := c.gid, asked := 0, onWay := [], ask := .unsent,
            fetched := 0, buffer := [], bufferBase := 0, frozen := none,
            subs := st.subs.map fun u => { u with taken := 0, written := 0, ask := .unsent } }

/-- The state with a stream started as a definition says. -/
def State.startStream (s : State) (tile i : Nat) (st : Stream) (c : Cmd) : State :=
  (s.modStream tile i fun _ => st.start c (s.tile tile).nextBegan).modTile tile fun x =>
    { x with nextBegan := x.nextBegan + 1 }

/-! ## Ends (R360, R389 to R391) -/

/-- How an SGO that met trouble ends, as the `aux` of its command: 0 for none, the cause, and 64 more for
POISON. -/
def badPoison : Nat := 64 + 0x05

/-- The streams that an SGO names (R356). -/
def Cmd.streamMask (c : Cmd) : List Nat := (List.range 8).filter fun i => bit c.a i

/-- An SGO whose streams have all ended, ended, once what the copy engine has written for them is visible at its
SCOPE (R360, R387, R390, R391). -/
def State.sgoCheck (s : State) (tile id : Nat) : State :=
  match s.cmd? tile id with
  | none => s
  | some c =>
    if (s.ctx tile).streams.toList.any fun st => st.running && st.starter == id then s
    else if c.aux = 0 then s.finishCmd tile c .visible 0#6
    else if c.aux = badPoison then s.finishCmd tile c .poison 0x05#6
    else s.finishCmd tile c .faulted (BitVec.ofNat 6 c.aux)

/-- The state with a stream ended, in the way `bad` says. -/
def State.endStream (s : State) (tile i bad : Nat) : State :=
  let st := s.stream tile i
  ((s.modStream tile i fun x => { x with running := false, buffer := [], onWay := [], ask := .unsent, frozen := none }).modCmd tile st.starter
    fun c => if c.aux = 0 then { c with aux := bad } else c).sgoCheck tile st.starter

/-- The pool command that takes a stream's elements (R390, R391). -/
def State.takingCmd (s : State) (tile i : Nat) : Option Cmd :=
  (s.runningHead tile .flow).filter fun c =>
    c.flowStream == i && (s.stream tile i).subs.any fun u => u.sub == c.flowPort

/-- The state with a stream stopped, and the pool command that took its elements ended with it (R390,
R391). -/
def State.haltStream (s : State) (tile i bad : Nat) : State :=
  if !(s.stream tile i).running then s
  else
    let s1 := match s.takingCmd tile i with
      | none => s
      | some c =>
        if bad = badPoison then s.endCmd tile c .poison 0x05#6 else s.endCmd tile c .faulted 0x0A#6
    s1.endStream tile i bad

/-- What a fault at an element does to its stream (R279, R391): poison and a request that found no way or
was refused end it, and any other fault freezes it. -/
def State.streamFault (s : State) (tile i : Nat) (x : Stop) : State :=
  let st := s.stream tile i
  match s.cmd? tile st.starter with
  | none => s.endStream tile i 0
  | some c =>
    if x.err.code = 0x05#6 then (s.engineLog tile c 0x05 x.addr.toNat).haltStream tile i badPoison
    else if x.err.code = 0x13#6 then (s.engineLog tile c 0x13 x.addr.toNat).haltStream tile i 0x13
    else if x.err.code = 0x04#6 && 10 ≤ x.err.reason.toNat then
      (s.dropLog tile c x.err x.addr).haltStream tile i 0x14
    else if c.armed then
      (s.engineLog tile c x.err.code.toNat x.addr.toNat).haltStream tile i x.err.code.toNat
    else
      (s.modStream tile i fun y => { y with frozen := some (x.err.code, x.addr) }).freezeCmd tile c x.err x.addr

/-! ## Windows and replays (R360) -/

/-- The start and size of the window that a subscriber stands in, and the elements of it that it has taken,
replays counted; none past the end (R360). -/
def Sub.place (u : Sub) (total : Nat) : Option (Nat × Nat × Nat) :=
  let start := u.taken / (u.win * u.rep) * u.win
  let size := Nat.min u.win (total - start)
  let o := u.taken % (u.win * u.rep)
  if total ≤ start || size * u.rep ≤ o then none else some (start, size, o)

/-- The element that a subscriber takes next. -/
def Sub.next (u : Sub) (total : Nat) : Option Nat :=
  (u.place total).map fun p => p.1 + p.2.2 % p.2.1

/-- The format tag of a stream's tokens, and the elements of one (R386). -/
def tokenShape (fmt : Nat) : BitVec 3 × Nat :=
  match fmt with
  | 1 => (1#3, 2)
  | 2 => (2#3, 2)
  | 3 => (3#3, 4)
  | 4 => (4#3, 4)
  | 6 => (6#3, 4)
  | 5 => (5#3, 2)
  | 7 => (7#3, 2)
  | 9 => (7#3, 1)
  | _ => (0#3, 1)

/-- The elements of a column token: those of its format, and of a window's end what is left of it (R386). -/
def Sub.tokenElems (n size o : Nat) : Nat := Nat.min n (size - o % size)

/-- Whether a subscriber cannot go on without an element: it takes that next, or, a column, it is among those of its
next token (R385, R386). -/
def Sub.awaits (u : Sub) (fmt total k : Nat) : Bool :=
  match u.place total with
  | none => false
  | some (start, size, o) =>
    let first := start + o % size
    decide (first ≤ k) && decide (k < first + if u.sub < 20 then Sub.tokenElems (tokenShape fmt).2 size o else 1)

/-- The lowest element that a subscriber will still take. -/
def Sub.lowest (u : Sub) (total : Nat) : Nat :=
  match u.place total with
  | none => total
  | some (start, size, o) => if o / size + 1 = u.rep then start + o % size else start

/-! ## Fetching (R385, R391, R400, R422) -/

/-- The element of a number, fetched (R385, R400). -/
def State.fetchElem (s : State) (tile : Nat) (st : Stream) (k : Nat) : Except Stop (Elem × State) :=
  match st.addr k with
  | none => .ok (⟨0#32, true⟩, s)
  | some a =>
    let n := poolSize st.fmt
    match s.element (.tile tile) tile st.gid st.spaceOf a n needLoad with
    | .error e => .error ⟨e, a⟩
    | .ok (place, s1) => .ok (⟨BitVec.ofNat 32 (leNat (s1.loadBytes tile st.gid st.spaceOf place n)), false⟩, s1)

/-- The bytes that the streams of a tile hold fetched (R422). -/
def State.aheadBytes (s : State) (tile : Nat) : Nat :=
  ((s.ctx tile).streams.toList.map fun st => poolSize st.fmt * st.buffer.length).sum

/-- An SGO's token at READ once every element of its streams has been read (R389): those of its streams that have
ended have been read. -/
def State.sgoRead (s : State) (tile id : Nat) : State :=
  match s.cmd? tile id with
  | none => s
  | some c =>
    if !c.readDone && c.aux == 0 && c.streamMask.all fun i =>
        let st := s.stream tile i
        !(st.running && st.starter == id) || decide (st.total ≤ st.fetched) then
      s.sourceRead tile c
    else s

/-- The state with an element of a stream counted (R420), and the time of the SGO's last request noted (R331). -/
def State.fetchCounted (s : State) (tile : Nat) (st : Stream) : State :=
  ((s.count 3 tile 0).countBy 3 tile 1 (poolSize st.fmt)).modCmd tile st.starter fun c => { c with asked := s.now }

/-- Whether every subscriber of a stream that has not its last element waits for the next that is to be fetched, so
that the stream holds back nobody (R385). -/
def Stream.wanted (st : Stream) : Bool :=
  st.subs.all fun u => (u.next st.total).isNone || u.awaits st.fmt st.total st.fetched

/-- The access that reads an element of a stream; none for a padding tap. -/
def Stream.askOf (st : Stream) (tile k : Nat) : Option Ask :=
  (st.addr k).map fun a => ⟨.tile tile, tile, st.spaceOf, [a], poolSize st.fmt, false⟩

/-- Whether the buffer of a tile has room for a further element of a stream, those whose requests are made counted
(R422). -/
def State.aheadRoom (s : State) (tile : Nat) (st : Stream) : Bool :=
  decide (s.aheadBytes tile + poolSize st.fmt * (st.asked - st.fetched + 1) ≤ 16384)

/-- The next request of a stream to SH or G made: ahead of the subscribers where the buffer has room for the element, and
else where even the slowest waits for it (R252, R385, R422). One that does not translate makes none. -/
def State.requestNext (s : State) (tile i : Nat) : State :=
  let st := s.stream tile i
  if st.space = 0#2 || st.total ≤ st.asked || !(s.aheadRoom tile st || (st.wanted && st.asked == st.fetched)) then s
  else
    match (st.askOf tile st.asked).bind fun a =>
        (a.addrs.head?.bind fun x => s.placeAt a.buffer tile st.gid a.space x).map fun p => (a, p) with
    | none => s.modStream tile i fun x => { x with asked := x.asked + 1 }
    | some (a, p) =>
      ((s.engineRequest tile tile st.gid (.element i st.began st.asked) a.space p a.bytes false).modStream tile i fun x =>
        { x with asked := x.asked + 1, onWay := x.onWay ++ [st.asked] }).modCmd tile st.starter fun c => { c with asked := s.now }

/-- How far the access to the next element of a stream has got, whose request has arrived or needs none. -/
def State.elementTurn (s : State) (tile : Nat) (st : Stream) : AskStage × State :=
  match st.ask, st.askOf tile st.fetched with
  | .booked c, _ => (.booked c, s)
  | _, some a => s.bookAsk st.gid a
  | _, none => (.booked s.now, s)

/-- The next element of a stream fetched: from SP as its request would be made, elsewhere once that has arrived (R262,
R385, R422). A fault counts once every earlier element has been delivered (R391). -/
def State.fetchNext (s0 : State) (tile i : Nat) : State :=
  let s := s0.requestNext tile i
  let st := s.stream tile i
  if st.total ≤ st.fetched || (if st.space = 0#2 then !(st.wanted || s.aheadRoom tile st)
      else decide (st.asked ≤ st.fetched) || st.onWay.contains st.fetched) then s
  else
    let r := s.elementTurn tile st
    if !r.1.ready s.now then r.2.modStream tile i fun x => { x with ask := r.1 }
    else
      match r.2.fetchElem tile st st.fetched with
      | .ok (e, s1) =>
        ((s1.fetchCounted tile st).modStream tile i fun x =>
          { x with buffer := x.buffer ++ [e], fetched := x.fetched + 1, ask := .unsent }).sgoRead tile st.starter
      | .error x => if st.wanted then (r.2.modStream tile i fun x => { x with ask := .unsent }).streamFault tile i x else s

/-! ## Delivery (R385 to R388) -/

/-- The state with a subscriber of a stream changed. -/
def State.modSub (s : State) (tile i sub : Nat) (f : Sub → Sub) : State :=
  s.modStream tile i fun x => { x with subs := x.subs.map fun u => if u.sub == sub then f u else u }

/-- The fetched element of a number. -/
def Stream.elem? (st : Stream) (k : Nat) : Option Elem :=
  if k < st.bufferBase then none else st.buffer[k - st.bufferBase]?

/-- Elements packed into lanes from lane 0 (R386). -/
def packElems (size : Nat) : List Elem → Nat
  | [] => 0
  | e :: es => e.bits.toNat % 256 ^ size + 256 ^ size * packElems size es

/-- The stream tokens that an in.m holds (R386). -/
def TE.streamTokens (e : TE) : Nat :=
  ((e.queue 4).filter fun t => t.stream).length + (e.taken.filter fun t => t.1 == 4 && t.2.stream).length

/-- A token of a stream delivered to a column, if its elements are fetched and one of the 4 slots is free
(R386). -/
def State.offerColumn (s : State) (tile i : Nat) (st : Stream) (u : Sub) : State :=
  match u.place st.total with
  | none => s
  | some (start, size, o) =>
    let (tag, n) := tokenShape st.fmt
    let m := Sub.tokenElems n size o
    let k := start + o % size
    let es := (List.range m).filterMap fun j => st.elem? (k + j)
    let p : TeId := (tile, u.sub, 0)
    let e := s.teAt p
    if es.length < m || 4 ≤ e.streamTokens || 8 ≤ e.usedSlots 4 then s
    else
      (s.modSub tile i u.sub fun x => { x with taken := x.taken + m }).enqueue p 4
        { data := BitVec.ofNat 32 (packElems (poolSize st.fmt) es), fmt := tag, utag := 2#2, stream := true }

/-- The checks of the bytes that the copy engine writes for a stream (R387). -/
def State.copyPlaces (s : State) (tile gid : Nat) (space : Space) (a : Word) :
    Nat → Except Stop (List Nat × State)
  | 0 => .ok ([], s)
  | n + 1 =>
    match s.copyElement tile gid space a 1 needStore with
    | .error e => .error ⟨e, a⟩
    | .ok (p, s1) =>
      match s1.copyPlaces tile gid space (a + 1#64) n with
      | .error x => .error x
      | .ok (ps, s2) => .ok (p :: ps, s2)

/-- The state with the bytes of an element that the copy engine writes for a stream at each of a list of places, from an
address upward (R335, R387). -/
def State.writePlaces (s : State) (tile gid : Nat) (maker : FarMaker) (space : Space) (scope : Nat) (a : Word) (pos : Nat) :
    List Nat → List Byte → State
  | p :: ps, b :: bs =>
    (s.engineWrite tile gid maker space scope a p [b] pos).writePlaces tile gid maker space scope (a + 1#64) pos ps bs
  | _, _ => s

/-- An element delivered to the copy engine, which counts it: its bytes follow those written before (R387, R420). -/
def State.offerCopy (s : State) (tile i : Nat) (st : Stream) (u : Sub) (e : Elem) : State :=
  let n := poolSize st.fmt
  let space := spaceOfCode (bits u.mode 3 2)
  let a := u.dst + Word.ofN u.written
  match s.copyPlaces tile st.gid space a n with
  | .error x => (s.modSub tile i u.sub fun y => { y with ask := .unsent }).streamFault tile i x
  | .ok (ps, s1) =>
    let s2 := (s1.count 4 tile 0).countBy 4 tile 1 n
    (s2.writePlaces tile st.gid (.stream st.starter i) space (bits u.mode 9 7) a u.written ps
      (leBytes n e.bits.toNat)).modSub tile i u.sub
      fun x => { x with taken := x.taken + 1, written := x.written + n, ask := .unsent }

/-- The access that writes the next element for a subscriber of a stream. -/
def Sub.writeAsk (u : Sub) (tile n : Nat) : Ask :=
  let space := spaceOfCode (bits u.mode 3 2)
  let a := u.dst + Word.ofN u.written
  ⟨.tile tile, copyTile tile space a, space, (List.range n).map fun k => copyOffset space (a + Word.ofN k), n, true⟩

/-- An element offered to the copy engine, which writes it once its request has arrived and its banks are its own (R252,
R262, R267, R387). -/
def State.copyTurn (s : State) (tile i : Nat) (st : Stream) (u : Sub) (e : Elem) : State :=
  let r := s.askTurn tile st.gid (.sub i st.began u.sub) (u.writeAsk tile (poolSize st.fmt)) u.ask
  if r.1.ready s.now then r.2.offerCopy tile i st u e
  else if r.1 = u.ask then s
  else r.2.modSub tile i u.sub fun x => { x with ask := r.1 }

/-- The next element of a stream offered to one of its subscribers (R385); on a throttled die the copy engine takes
none (R418). -/
def State.offer (s : State) (tile i sub : Nat) : State :=
  let st := s.stream tile i
  match st.subs.find? fun u => u.sub == sub with
  | none => s
  | some u =>
    if !st.running || st.frozen.isSome then s
    else if u.sub < 20 then s.offerColumn tile i st u
    else
      match (u.next st.total).bind st.elem? with
      | none => s
      | some e =>
        let took := s.modSub tile i u.sub fun x => { x with taken := x.taken + 1 }
        if u.sub = 22 then (if s.throttled (dieOf tile) then s else s.copyTurn tile i st u e)
        else if u.sub = 23 then took
        else if s.portTakes tile i u.sub then took.portElem tile st e
        else s

/-- The elements that no subscriber will take again dropped from the buffer, and the stream ended once
every subscriber has its last (R360, R389). -/
def State.settleStream (s : State) (tile i : Nat) : State :=
  let st := s.stream tile i
  if !st.running then s
  else
    let total := st.total
    if st.subs.all fun u => (u.next total).isNone then s.endStream tile i 0
    else
      let low := Nat.min st.fetched ((st.subs.map fun u => u.lowest total).foldl Nat.min total)
      s.modStream tile i fun x =>
        { x with buffer := x.buffer.drop (low - x.bufferBase), bufferBase := Nat.max low x.bufferBase }

/-- STREAM_ELEMENT_DELIVERY (R385): a running stream fetches its next element, and each subscriber that
accepts takes its next. -/
def State.streamDeliver (s : State) (tile i : Nat) : State :=
  let st := s.stream tile i
  if !st.running || st.frozen.isSome || (s.tile tile).stopped then s
  else ((st.subs.map (·.sub)).foldl (fun a sub => a.offer tile i sub) (s.fetchNext tile i)).settleStream tile i

/-! ## The stream queue (R378, R389, R390) -/

/-- Whether an access to a group's window on a tile waits for its bank (R262). -/
def State.replayed (s : State) (tile gid : Nat) : Bool := 0 < s.replays tile (some gid)

/-- Whether the command at the head of the stream queue may begin (R264, R389): one that configures a running
stream waits, and a SHASH for the accesses of its window that wait for a bank. -/
def State.streamFree (s : State) (tile : Nat) (c : Cmd) : Bool :=
  if c.func = 0x13#7 then true
  else if c.func = 0x17#7 then !s.replayed tile c.gid
  else !(s.stream tile (bits c.b 2 0)).running

/-- An SGO begins (R360, R389, R401). -/
def State.sgoBegin (s : State) (tile : Nat) (c : Cmd) : State :=
  if c.streamMask.all fun i => (s.stream tile i).mayStart then
    c.streamMask.foldl (fun a i => a.startStream tile i (a.stream tile i) c)
      (s.saveCmd tile { c with stage := .running, aux := 0 })
  else s.rejectCmd tile c

/-- A SUNF performed: the descriptor is read, which brings its token to READ, and checked (R397, R398). -/
def State.sunfRead (s : State) (tile : Nat) (c : Cmd) : State :=
  let off := bits c.a 20 0
  match (List.range 32).find? fun k => s.placePoisoned tile c.gid .sp (off + k) with
  | some k => s.elementFault tile c errPoison (Word.ofN (off + k))
  | none =>
    let s1 := s.sourceRead tile c
    let c1 := { c with readDone := true, flags := 0#8 }
    match unfoldOf (s.loadBytes tile c.gid .sp off 32) with
    | none => s1.rejectCmd tile c1
    | some u => (s1.modStream tile (bits c.b 1 0) fun st => { st with unfold := some u }).endCmd tile c1 .visible 0#6

/-- A SUNF once the banks of its descriptor are its own (R262). -/
def State.sunf (s : State) (tile : Nat) (c : Cmd) : State :=
  s.ask tile c (spAsk tile (bits c.a 20 0) 32 false) fun a x => a.sunfRead tile x

/-- SHASH (R264): the hash masks of the group's window on the tile. -/
def State.shash (s : State) (tile : Nat) (c : Cmd) : State :=
  s.modGroup c.gid fun g =>
    { g with windows := g.windows.map fun w =>
        if w.tile == tile then { w with masks := Vector.ofFn fun j => BitVec.ofNat 10 (bits c.a (10 * j.val + 9) (10 * j.val)) }
        else w }

/-- A command at the head of the stream queue performed (R360, R397, R403, R264). A second SSUB of a subscriber replaces
its first and goes last (DESIGN CHOICE, log entry 47). -/
def State.streamBegin (s : State) (tile : Nat) (c : Cmd) : State :=
  let i := bits c.b 2 0
  match c.func.toNat with
  | 0x10 => (s.modStream tile i fun st => sdefOf c st).endCmd tile c .visible 0#6
  | 0x11 =>
    (s.modStream tile i fun st => st.scnt (bits c.b 6 4, bits c.a 31 0, toInt (bits c.a 63 32) 32)).endCmd tile c
      .visible 0#6
  | 0x12 =>
    (s.modStream tile i fun st =>
      { st with subs := (st.subs.filter fun u => u.sub != bits c.b 8 4) ++ [ssubOf c] }).endCmd tile c .visible 0#6
  | 0x13 => s.sgoBegin tile c
  | 0x15 => s.sunf tile c
  | 0x16 =>
    (s.modStream tile (bits c.b 1 0) fun st =>
      { st with regroupDir := bit c.a 2, regroupFact := BitVec.ofNat 2 (bits c.a 1 0) }).endCmd tile c .visible 0#6
  | _ => (s.shash tile c).endCmd tile c .visible 0#6

/-- SSTOP (R390): performed as soon as its tokens are satisfied. -/
def State.sstop (s : State) (tile : Nat) (c : Cmd) : State :=
  (c.streamMask.foldl (fun a i => a.haltStream tile i 0x0A) s).endCmd tile c .visible 0#6

/-- STREAM_ELEMENT_DELIVERY (R385): see `State.streamDeliver`. -/
def execStreamElementDelivery (tile stream : Nat) (s : State) : Host.Outcome State Fault Refusal :=
  if 2048 ≤ tile || 8 ≤ stream then .fault .noSuchUnit else .next (s.streamDeliver tile stream)

end Sys2Proof.Machine
end

