-- ==== Sys2Proof/Machine/Armed.lean ====
section
/-! DEFINITION. Armed sections (R384): arming a pool for a node or a GARM, and the rounds that it runs on
its own. -/

namespace Sys2Proof.Machine

/-! ## Arming -/

/-- The leader and the level that a SET names (R302). -/
def setLeader (set : Word) : Nat := bits set 10 0
def setLevel (set : Word) : Nat := bits set 14 12

/-- Whether the arming of a SET for a partition fails (R303, R384). -/
def State.armFails (s : State) (part : Nat) (set : Word) : Bool :=
  let t := setLeader set
  let p := s.pool t
  (s.partAt t).map (·.id) != some part || setLevel set != p.joined || p.memberOf.isSome || p.mode == 0#64 ||
    !(p.beds.any bedValid) || p.lastFlow.isNone || p.lastDrain.isNone || p.armed.isSome ||
    !((s.ctx t).queue .flow).isEmpty || !((s.ctx t).queue .drain).isEmpty

/-- The state with a pool armed. -/
def State.arm (s : State) (set : Word) (passes : Nat) (node : Option (Nat × Nat × Nat))
    (command : Option (Nat × Nat)) : State :=
  s.modPool (setLeader set) fun p => { p with armed := some { passesLeft := passes, node := node, command := command } }

/-! ## A round -/

/-- The state with a command of an armed section in front of its queue, under a number of its own. -/
def State.pushArmed (s : State) (tile : Nat) (c : Cmd) : State × Cmd :=
  let c' := { c with id := (s.tile tile).nextCmd, armed := true, stage := .running, pos := 0, aux := 0, chunk := [],
                     list := [], flags := 0#8, readDone := false, reply := none }
  ((s.modTile tile fun x => { x with nextCmd := x.nextCmd + 1 }).modCtx tile fun x =>
    { x with cmds := c' :: x.cmds }, c')

/-- The state with the stream that an earlier round left running stopped. -/
def State.stopOwnStream (s : State) (tile i : Nat) : State :=
  let st := s.stream tile i
  match s.cmd? tile st.starter with
  | some c => if st.running && c.armed then s.endStream tile i 0 else s
  | none => s

/-- The state with an armed section's phase, and whether it has failed. -/
def State.setPhase (s : State) (tile phase : Nat) (failed : Bool) : State :=
  s.modPool tile fun p =>
    { p with armed := p.armed.map fun a => { a with phase := phase, failed := a.failed || failed } }

/-- A round begins: the accumulators of F.TILES zeroed, the stream as the recorded PFLOW took it restarted from its
base as SGO would, and the passes of F running (R384). -/
def State.roundBegin (s : State) (tile : Nat) (f : Cmd) (left : Nat) : State :=
  let i := f.flowStream
  let s1 := (s.modPool tile fun p => p.zero f.a).stopOwnStream tile i
  let p := s1.pool tile
  let now := s1.stream tile i
  let st := { (p.lastStream.getD now) with running := now.running }
  let n := Nat.min (bits f.a 63 32) left
  if !st.mayStart || st.fmt ≠ modeF p.mode || !(st.subs.any fun u => u.sub == f.flowPort) then
    s1.setPhase tile 1 true
  else
    let sgo : Cmd := { f with func := 0x13#7, a := 1#64 <<< i, b := 0#64 }
    let (s2, g) := s1.pushArmed tile sgo
    let s3 := s2.startStream tile i st g
    let (s4, _) := s3.pushArmed tile { f with a := Word.ofN (2 ^ 32 * n + bits f.a 31 0) }
    (s4.modPool tile fun q =>
      { q with flowPort := [], armed := q.armed.map fun a => { a with round := n } }).setPhase tile 1 false

/-- The drain of a round begins (R384). -/
def State.roundDrain (s : State) (tile : Nat) (d : Cmd) : State :=
  let (s1, c) := (s.setPhase tile 3 false).pushArmed tile d
  s1.drainBegin tile c

/-- The state with what a failed section leaves on its pool gone; the flags of the work that it has done stand in
AFLAGS (R134, R384). -/
def State.clearArmed (s : State) (tile : Nat) : State :=
  let s1 := (List.range 8).foldl (fun a i => a.stopOwnStream tile i) s
  s1.modCtx tile fun x =>
    { x with
      cmds := x.cmds.filter fun c => !c.armed
      pool := { x.pool with
        aflags := (x.cmds.filter fun c => c.armed).foldl (fun f c => f ||| c.flags.setWidth 6) x.pool.aflags } }

/-- The end of a section told to the node or the GARM that waits for it (R303, R312, R384). A section that a
fault or poison has ended counts one fault for its node. The cause that a GARM's token then carries is a free
one of the codes of R337. -/
def State.sectionDone (s : State) (a : Armed) : State :=
  let s1 := match a.node with
    | none => s
    | some (plot, g, n) =>
      s.modNode plot g n fun x => { x with ended := 1, faults := x.faults + b2n a.failed }
  match a.command with
  | none => s1
  | some (t, id) =>
    match s1.cmd? t id with
    | none => s1
    | some c =>
      if a.failed then
        s1.drawCode.2.endCmd t c .faulted (BitVec.ofNat 6 s1.drawCode.1)
      else s1.endCmd t c .visible 0#6

/-- ARMED_ROUND (R384): the section on a tile's pool moves on to its next round, to the round's drain, or to
its end. -/
def State.armedRound (s : State) (tile : Nat) : State :=
  let p := s.pool tile
  match p.armed, p.lastFlow, p.lastDrain with
  | some a, some f, some d =>
    if (s.tile tile).stopped then s
    else if a.failed then
      ((s.clearArmed tile).modPool tile fun q => { q with armed := none }).sectionDone a
    else if a.phase = 0 then s.roundBegin tile f a.passesLeft
    else if a.phase = 2 then s.roundDrain tile d
    else if a.phase = 4 then
      let left := a.passesLeft - a.round
      if left = 0 then (s.modPool tile fun q => { q with armed := none }).sectionDone a
      else s.modPool tile fun q => { q with armed := some { a with passesLeft := left, phase := 0 } }
    else s
  | _, _, _ => s

/-- ARMED_ROUND (R384): see `State.armedRound`. -/
def execArmedRound (tile : Nat) (s : State) : Host.Outcome State Fault Refusal :=
  if 2048 ≤ tile then .fault .noSuchUnit else .next (s.armedRound tile)

end Sys2Proof.Machine
end

