-- ==== Sys2Proof/Machine/Firing.lean ====
section
/-! DEFINITION. The firing of a slot: what it reads and writes (R141, R142), when it is ready (R143), what
stops it (R144, R227, R350), its beats (R145, R166) and the updates at its end (R145, R146). A firing is one
step, whatever its beats. -/

namespace Sys2Proof.Machine

/-! ## What a slot names -/

/-- What a slot needs and touches: the selectors it reads as sources; those it reads as data, with the tag
they must carry; every source selector it names; its destinations; how many tokens each output it writes
must take; the channels it dequeues in every beat; whether it is a CARRY; and whether it sends on out.m,
out.f and out.c (R143, R144, R178, R179). -/
structure Shape where
  srcs : List Nat := []
  data : List (Nat × BitVec 3) := []
  names : List Nat := []
  dests : List Nat := []
  pushes : Nat := 1
  deq : List Nat := []
  carry : Bool := false
  outM : Bool := false
  outF : Bool := false
  outC : Bool := false
  deriving DecidableEq, Repr

/-- The beats of a slot (R138). -/
def beatsOf (t : Trig) : Nat := t.beatsM1.toNat + 1

/-- The channels that a DEQ field names (R139, R140). -/
def deqList (d : BitVec 6) : List Nat := [0, 1, 2, 3, 4, 5].filter fun c => d.getLsbD c

/-- A shape whose sources are all data. -/
def dataShape (t : Trig) (f : Comp) (srcs dests : List Nat) : Shape :=
  { srcs := srcs, data := srcs.map fun c => (c, t.fmt), names := srcs, dests := dests, pushes := beatsOf t,
    deq := deqList f.deq }

/-- A shape whose first source alone is data (R179). -/
def headShape (t : Trig) (f : Comp) (a : Nat) (ctl dests : List Nat) : Shape :=
  { srcs := a :: ctl, data := [(a, t.fmt)], names := a :: ctl, dests := dests, pushes := beatsOf t,
    deq := deqList f.deq }

/-- The shape of a compute-form slot, given its TE and what a selector reads in beat 0; `none` where MERGE
has no control or CARRY's predicate decides nothing (R143, R178 to R186). -/
def formShape (k : Form) (t : Trig) (f : Comp) (e : TE) (read : Nat → W32) : Option Shape :=
  let a := f.sa.toNat
  let b := f.sb.toNat
  let c := f.scc.toNat
  let d := f.dst.toNat
  match k with
  | .src1 | .round | .cvt | .unpk => some (dataShape t f [a] [d])
  | .src2 | .cond | .pack => some (dataShape t f [a, b] [d])
  | .src3 => some (dataShape t f [a, b, c] [d])
  | .column => some { dataShape t f [a] [] with outF := true }
  | .steer => some (headShape t f a [b] [d, c])
  | .merge =>
    if c < 6 && (e.visible c).isEmpty then none
    else
      let sel := if read c != 0#32 then a else b
      some { srcs := [c, sel], data := [(sel, t.fmt)], names := [a, b, c], dests := [d], pushes := 1,
             deq := ([c, sel].filter fun x => decide (x < 6)).eraseDups }
  | .join => some { headShape t f a [b, c] [d] with pushes := 1 }
  | .dup => some (headShape t f a [] [d, c])
  | .gate => some (headShape t f a [b] [d])
  | .drop => some { srcs := [a], names := [a], deq := [a] }
  | .tag => some (headShape t f a [b] [d])
  | .carry =>
    let sel := if e.p.getLsbD c then b else a
    some { srcs := [sel], data := [(sel, t.fmt)], names := [a, b], dests := [d], pushes := 1,
           deq := [sel].filter fun x => decide (x < 6), carry := true }
  | .region | .trapTok | .nothing | .plog => some { deq := deqList f.deq }
  | .doneTok => some { deq := deqList f.deq, outC := true }
  | .lapset | .pset | .xset => some (dataShape t f [a] [])
  | .xadd | .xcmp => some (dataShape t f [a, b] [])

/-- The shape of a memory-form slot (R143, R144). -/
def memShape (t : Trig) (m : MemF) : Shape :=
  let a := m.addr.toNat
  let d := m.data.toNat
  { srcs := [a, d], data := [(a, 7#3), (d, t.fmt)], names := [a, d], pushes := beatsOf t, deq := deqList m.deq,
    outM := true }

/-! ## Reading sources (R141) -/

/-- The W address of a selector 16 to 24 in a beat (R141). -/
def wAddress (e : TE) (f : Comp) (sel b : Nat) : Nat :=
  if sel = 24 then f.off8.toNat + f.imm12.toNat
  else ((vget e.x (sel - 16) 0#16).toNat + f.off8.toNat + b) % 2 ^ 16

/-- The context window of a tile in force (R347). -/
def Tile.win (x : Tile) : CtxWindow := vget x.windows x.window {}

/-- The key of a W word of a TE in its tile's store (R136, R347). -/
def State.wKey (s : State) (p : TeId) (a : Nat) : Nat :=
  8192 * teKey p.2.1 p.2.2 + ((s.tile p.1).win.wbase + a) % 8192

/-- A W word of a TE. -/
def State.readW (s : State) (p : TeId) (a : Nat) : W32 := (s.tile p.1).w.get 0#32 (s.wKey p a)

/-- Whether a W word of a TE is poisoned (R350). -/
def State.wBad (s : State) (p : TeId) (a : Nat) : Bool := (s.tile p.1).wPoison.contains (s.wKey p a)

/-- The state with a W word of a TE written, the word unpoisoned. -/
def State.writeW (s : State) (p : TeId) (a : Nat) (v : W32) : State :=
  let k := s.wKey p a
  s.modTile p.1 fun x => { x with w := x.w.set k v, wPoison := x.wPoison.filter (· != k) }

/-- The token that a channel selector reads in a beat: the head, or, where the channel is dequeued, the
one that the beat dequeues (R141). -/
def chanToken (e : TE) (deq : List Nat) (sel b : Nat) : Option Token :=
  (e.queue sel)[if deq.contains sel then b else 0]?

/-- What a selector reads in beat `b` of a firing that found its TE as `e` (R141, R166). -/
def State.source (s : State) (p : TeId) (e : TE) (f : Comp) (deq : List Nat) (b sel : Nat) : W32 :=
  if sel < 6 then ((chanToken e deq sel b).map (·.data)).getD 0#32
  else if sel = 6 then f.imm12.signExtend 32
  else if 8 ≤ sel && sel ≤ 15 then (vget e.x (sel - 8) 0#16).signExtend 32
  else if 16 ≤ sel && sel ≤ 24 then s.readW p (wAddress e f sel b)
  else if sel = 25 then e.lap.setWidth 32
  else if sel = 26 then e.p.setWidth 32
  else 0#32

/-- The user tag of the token that a selector reads, 0 for every other source (R142). -/
def sourceTag (e : TE) (deq : List Nat) (b sel : Nat) : BitVec 2 :=
  if sel < 6 then ((chanToken e deq sel b).map (·.utag)).getD 0#2 else 0#2

/-! ## Readiness (R143) -/

/-- The tokens that an input channel must hold (R143). -/
def needIn (t : Trig) (sh : Shape) (ch : Nat) : Nat :=
  if t.inreq.getLsbD ch || sh.deq.contains ch then beatsOf t else if sh.srcs.contains ch then 1 else 0

/-- The free slots that an output must have (R143, R179). -/
def needOut (t : Trig) (sh : Shape) (o : Nat) : Nat :=
  let asked := if t.outreq.getLsbD o then beatsOf t else 0
  let written :=
    if o < 4 then (if sh.dests.contains o then sh.pushes else 0)
    else if (o = 4 && sh.outM) || (o = 5 && sh.outF) || (o = 6 && sh.outC) then (beatsOf t)
    else 0
  max asked written

/-- The free slots of an output n e s w m f c: out.m and out.f have none while a request of an earlier
firing waits there (R143, R149, R177, R198). -/
def State.freeAt (s : State) (p : TeId) (sh : Shape) (o : Nat) : Nat :=
  let e := s.teAt p
  if o < 4 then s.freeOut p o (sh.carry || !sh.dests.contains o)
  else if o = 4 then (if e.outM.isEmpty then s.freeM p else 0)
  else if o = 5 then
    (if (vget (s.ctx p.1).colReqs p.2.1 []).any fun r => r.row == p.2.2 then 0 else s.freeF p)
  else 2 - e.ctlTokens

/-- Whether the head of a slot's tested channel carries its tag (R143). -/
def tagOk (t : Trig) (e : TE) : Bool :=
  6 ≤ t.tagch.toNat ||
    (match (e.visible t.tagch.toNat).head? with
     | some x => x.utag == t.tagv
     | none => false)

/-- `ready(s)` of a slot whose shape is known (R143): the state stands as it is at the start of the cycle. -/
def State.slotReady (s : State) (p : TeId) (t : Trig) (sh : Shape) : Bool :=
  let e := s.teAt p
  (e.p &&& t.pcare) == t.pval &&
    ([0, 1, 2, 3, 4, 5].all fun ch => decide (needIn t sh ch ≤ (e.visible ch).length)) &&
    ([0, 1, 2, 3, 4, 5, 6].all fun o => needOut t sh o == 0 || decide (needOut t sh o ≤ s.freeAt p sh o)) &&
    tagOk t e

/-- Whether a TE fires slots (R87, R144, R343). -/
def State.teRuns (s : State) (p : TeId) : Bool := (s.teAt p).started && !(s.tile p.1).stopped

/-! ## What stops a ready slot (R144, R227, R350) -/

/-- DETAIL of FORMAT for every token that the slot would read as data under another tag (R144, R152). -/
def formatFaults (e : TE) (n : Nat) (sh : Shape) : List Nat :=
  sh.data.flatMap fun x =>
    if x.1 < 6 then
      (((e.queue x.1).take (if sh.deq.contains x.1 then n else 1)).filter fun t => t.fmt != x.2).map fun t =>
        x.1 + 8 * t.fmt.toNat + 64 * x.2.toNat
    else []

/-- Whether a W address may be read, or written (R227). -/
def TE.windowOk (e : TE) (a : Nat) (write : Bool) : Bool :=
  (decide (e.scrBase.toNat ≤ a) && decide (a < e.scrLim.toNat)) ||
    (!write && decide (e.liveBase.toNat ≤ a) && decide (a < e.liveLim.toNat))

/-- The W addresses that the selectors of a list name in the beats of a firing. -/
def wNamed (e : TE) (f : Comp) (n : Nat) (sels : List Nat) : List Nat :=
  (List.range n).flatMap fun b =>
    (sels.filter fun c => decide (16 ≤ c) && decide (c ≤ 24)).map fun c => wAddress e f c b

/-- The W addresses of a firing that lie outside its windows (R144). -/
def windowFaults (e : TE) (f : Comp) (n : Nat) (sh : Shape) : List Nat :=
  ((wNamed e f n sh.names).filter fun a => !e.windowOk a false) ++
    ((wNamed e f n sh.dests).filter fun a => !e.windowOk a true)

/-- One of several faults that a slot shows together; which one a trap names is open. -/
def State.pickOne (s : State) (l : List Nat) : Nat × State :=
  (l.getD (Config.pick s.draw.1 % l.length) 0, s.draw.2)

/-- The state in which something keeps a ready slot from firing, if anything does: a poisoned slot or
word, FORMAT, or REGION_WINDOW, in that order (R144, R350). -/
def State.slotStop (s : State) (p : TeId) (slot : Nat) (f : Comp) (n : Nat) (sh : Shape) : Option State :=
  let e := s.teAt p
  if e.slotPoison.getLsbD slot then some (s.poisonStop p slot 0)
  else if !(formatFaults e n sh).isEmpty then
    let (d, s1) := s.pickOne (formatFaults e n sh)
    some (s1.fabricTrap p slot 0x12 d)
  else if !(windowFaults e f n sh).isEmpty then
    let (a, s1) := s.pickOne (windowFaults e f n sh)
    some (s1.fabricTrap p slot 0x0E a)
  else
    match (wNamed e f n sh.srcs).find? fun a => s.wBad p a with
    | some a => some (s.poisonStop p slot a)
    | none => none

/-! ## Beats (R145, R166) -/

/-- A token that a beat writes: its destination selector, data, format tag and user tag. -/
structure Sent where
  dest : Nat
  data : W32
  fmt : BitVec 3
  utag : BitVec 2
  deriving DecidableEq, Repr

/-- What one beat does: its value (R146), flags, writes, column-unit request and control token. -/
structure Beat where
  value : Option W32 := none
  flags : BitVec 8 := 0#8
  sent : List Sent := []
  column : Option (BitVec 3 × W32 × BitVec 2) := none
  control : Option (BitVec 4) := none
  deriving DecidableEq, Repr

/-- What a form does, given what a selector reads in a beat and the user tag it finds there: the beat,
which may be the last, and the predicates, index registers and lap that the instruction itself writes at
the end of the last. -/
structure Work where
  beat : (Nat → W32) → (Nat → BitVec 2) → Bool → Beat
  preds : (Nat → W32) → (Nat → BitVec 2) → List (Nat × Bool) := fun _ _ => []
  xs : (Nat → W32) → List (Nat × BitVec 16) := fun _ => []
  lap : (Nat → W32) → Option (BitVec 8) := fun _ => none

/-- The last value of a firing so far and the index registers that its beats have written. -/
structure Run where
  value : Option W32 := none
  xw : List (Nat × BitVec 16) := []
  deriving DecidableEq, Repr

/-- A beat's writes made in order (R142). -/
def State.send1 (s : State) (p : TeId) (e : TE) (f : Comp) (b : Nat) (region : Option Nat) (x : Sent) :
    State :=
  if x.dest < 4 then s.push p x.dest { data := x.data, fmt := x.fmt, utag := x.utag, region := region }
  else if 16 ≤ x.dest && x.dest ≤ 24 then s.writeW p (wAddress e f x.dest b) x.data
  else s

/-- The index registers that a beat writes through DST (R142). -/
def xWrites (l : List Sent) : List (Nat × BitVec 16) :=
  (l.filter fun x => decide (8 ≤ x.dest) && decide (x.dest ≤ 15)).map fun x =>
    (x.dest - 8, x.data.setWidth 16)

/-- A request held out to the column unit (R149, R161). -/
def State.request (s : State) (p : TeId) (region : Option Nat) (q : BitVec 3 × W32 × BitVec 2) : State :=
  let img := ((s.teAt p).image).getD 0
  let r : ColReq := ⟨p.2.2, q.1, q.2.1, q.2.2, region.isSome, img⟩
  let s1 := (s.modTeAt p fun e => { e with reservedF := e.reservedF + 1 }).modCtx p.1 fun c =>
    { c with colReqs := vset c.colReqs p.2.1 (vget c.colReqs p.2.1 [] ++ [r]) }
  s1.modImage img fun m => if region.isSome then { m with columnOut := m.columnOut + 1 } else m

/-- A control token pushed on out.c: it takes the gathered flags; inside an instance it is held until the
commit (R15, R165). -/
def State.pushControl (s : State) (p : TeId) (region : Option Nat) (n : BitVec 4) : State :=
  let e := s.teAt p
  let m := s.imageOf p
  let c : CtlToken := ⟨p.2.1, p.2.2, n, e.flags, e.dest.1, e.dest.2, (m.map fun i => i.gid).getD 0, s.now + 3, p.1⟩
  let s1 := s.modTeAt p fun x => { x with flags := 0#8, ctlTokens := x.ctlTokens + 1 }
  match region with
  | some img => s1.modImage img fun m => { m with heldTokens := m.heldTokens ++ [(p.1, c)] }
  | none => s1.modCtx p.1 fun x => { x with collector := x.collector ++ [c] }

/-- One token dequeued: its flags are gathered; a live-in token of the open instance keeps its slot, and
any other returns it (R134, R172, R226). -/
def State.dequeue (s : State) (p : TeId) (ch : Nat) : State :=
  match (s.teAt p).queue ch with
  | [] => s
  | t :: rest =>
    let s1 := s.modTeAt p fun e => { e.setQueue ch rest with flags := e.flags ||| (t.flags &&& 0x1F#8) }
    match s1.instanceOf p with
    | some img =>
      if t.region = some img then s1.returnSlot p ch
      else s1.modTeAt p fun e => { e with taken := e.taken ++ [(ch, t)] }
    | none => s1.returnSlot p ch

/-- One beat: its reads, its writes, its requests, then its dequeues (R145, R166). A control token is pushed before
the beat's dequeues, so that the flags of a reply that the beat dequeues stay for a later one (R15, R134; DESIGN
CHOICE, log entry 78). -/
def State.oneBeat (s : State) (p : TeId) (e : TE) (f : Comp) (sh : Shape) (w : Work)
    (region : Option Nat) (b : Nat) (last : Bool) (r : Run) : State × Run :=
  let x := w.beat (s.source p e f sh.deq b) (sourceTag e sh.deq b) last
  let s1 := s.modTeAt p fun y => { y with flags := y.flags ||| (x.flags &&& 0x1F#8) }
  let s2 := x.sent.foldl (fun a y => a.send1 p e f b region y) s1
  let s3 := match x.column with
    | some q => s2.request p region q
    | none => s2
  let s4 := match x.control with
    | some n => s3.pushControl p region n
    | none => s3
  (sh.deq.foldl (fun a ch => a.dequeue p ch) s4, ⟨x.value, r.xw ++ xWrites x.sent⟩)

/-- The beats from number `b` with `n` left. -/
def State.beatsFrom (s : State) (p : TeId) (e : TE) (f : Comp) (sh : Shape) (w : Work)
    (region : Option Nat) : Nat → Nat → Run → State × Run
  | 0, _, r => (s, r)
  | n + 1, b, r =>
    let (s1, r1) := s.oneBeat p e f sh w region b (n == 0) r
    s1.beatsFrom p e f sh w region n (b + 1) r1

/-! ## The end of a firing (R145, R146) -/

/-- Whether a value is not zero, or, in a floating format, not ±0 in every lane (R146). -/
def notZero (fmt : BitVec 3) (v : W32) : Bool :=
  let f := Fmt.ofTag fmt
  if f.isInt then v != 0#32
  else (List.range f.lanes).any fun i => lane f v i % 2 ^ (f.bits - 1) != 0

/-- The value that PUPD gives its predicate (R146). -/
def popValue (pop : BitVec 3) (fmt : BitVec 3) (old : Bool) (v : Option W32) : Bool :=
  match pop.toNat with
  | 0 => true
  | 1 => false
  | 2 => !old
  | 3 => (v.map (notZero fmt)).getD false
  | 4 => (v.map fun x => x.getLsbD 31).getD false
  | _ => (v.map fun x => x.getLsbD 0).getD false

/-- The TE with index registers written. -/
def TE.setXs (e : TE) (l : List (Nat × BitVec 16)) : TE :=
  l.foldl (fun a y => { a with x := vset a.x y.1 y.2 }) e

/-- The step of XINC (R139, R146). -/
def xincStep (xinc : BitVec 2) (beats : Nat) : BitVec 16 :=
  match xinc.toNat with
  | 0 => 0#16
  | 1 => 1#16
  | 2 => BitVec.ofNat 16 beats
  | _ => 0xFFFF#16

/-- The index registers that XINC steps: those that a used selector names indirectly, but for those the
instruction has written (R146). -/
def xincRegs (sh : Shape) (written : List (Nat × BitVec 16)) : List Nat :=
  (((sh.names ++ sh.dests).filter fun c => decide (16 ≤ c) && decide (c ≤ 23)).map (· - 16)).eraseDups.filter
    fun k => !written.any fun y => y.1 == k

/-- The four updates at the end of the last beat, in the order of R145. -/
def TE.finishFiring (e e0 : TE) (t : Trig) (f : Comp) (sh : Shape) (preds : List (Nat × Bool))
    (xw : List (Nat × BitVec 16)) (lap : Option (BitVec 8)) (v : Option W32) : TE :=
  let e1 := e.setXs xw
  let e2 := { e1 with
    p := preds.foldl (fun (a : BitVec 16) (y : Nat × Bool) => putBit16 a y.1 y.2) e1.p
    lap := lap.getD e1.lap }
  let e3 := e2.setXs ((xincRegs sh xw).map fun k =>
    (k, vget e0.x k 0#16 + xincStep f.xinc (beatsOf t)))
  let pk := f.ppred.toNat
  let e4 := if f.pupd = 1#1 then
      { e3 with p := putBit16 e3.p pk (popValue f.pop t.fmt (e3.p.getLsbD pk) v) }
    else e3
  if f.lapinc = 1#1 then { e4 with lap := e4.lap + 1 } else e4

/-- The whole firing of a slot that nothing stops (R145). -/
def State.fireAll (s : State) (p : TeId) (t : Trig) (f : Comp) (sh : Shape) (w : Work) : State :=
  let e0 := s.teAt p
  let (s1, r) := ((s.count 1 p.1 0).countBy 1 p.1 1 (beatsOf t)).beatsFrom p e0 f sh w (s.instanceOf p) (beatsOf t) 0 {}
  let read := s.source p e0 f sh.deq ((beatsOf t) - 1)
  let tag := sourceTag e0 sh.deq ((beatsOf t) - 1)
  s1.modTeAt p fun e =>
    e.finishFiring e0 t f sh (w.preds read tag) (r.xw ++ w.xs read) (w.lap read) r.value

/-- The place of the TE in focus. -/
def State.focusTe (s : State) : TeId := (s.focus.tile, s.focus.col, s.focus.row)

/-- Whether a TE's ROPEN beat holds it at another slot (R165). -/
def TE.heldAt (e : TE) (slot : Nat) : Bool := e.holding.any fun k => k != slot

/-- A compute-form slot of the TE in focus: nothing where it is not ready; what stops it, where something
does; and else its firing. -/
def fireCompute (k : Form) (t : Trig) (f : Comp) (w : TE → Work) (s : State) :
    Host.Outcome State Fault Refusal :=
  let p := s.focusTe
  let e := s.teAt p
  match formShape k t f e (s.source p e f [] 0) with
  | none => .next s
  | some sh =>
    if s.teRuns p && !e.heldAt s.focus.teSlot && s.slotReady p t sh then
      match s.slotStop p s.focus.teSlot f (beatsOf t) sh with
      | some s1 => .next s1
      | none => .next (s.fireAll p t f sh (w e))
    else .next s

/-- A form that computes one value in each beat and writes it through DST: `op` is given what SA, SB and
SCC read (R142, R153). -/
def valueWork (f : Comp) (fmt : BitVec 3) (op : W32 → W32 → W32 → W32 × BitVec 8) : Work where
  beat read tag _ :=
    let (v, fl) := op (read f.sa.toNat) (read f.sb.toNat) (read f.scc.toNat)
    { value := some v, flags := fl, sent := [⟨f.dst.toNat, v, fmt, tag f.sa.toNat⟩] }

/-- A slot of such a form; the result carries FMT. -/
def fireValue (k : Form) (t : Trig) (f : Comp) (op : W32 → W32 → W32 → W32 × BitVec 8) (s : State) :
    Host.Outcome State Fault Refusal :=
  fireCompute k t f (fun _ => valueWork f t.fmt op) s

end Sys2Proof.Machine
end

