-- ==== Sys2Proof/Machine/Chain.lean ====
section
/-! DEFINITION. Chain-ordered memory (R194 to R216): the memory-form slots, the home ordering buffer with
its grants, acceptances, releases and load replies, chain overflow, and the commit of an instance
(R229). -/

namespace Sys2Proof.Machine

/-! ## The slots (R194, R213, R214) -/

/-- What a memory-form selector reads in a beat (R141). -/
def memSource (e : TE) (deq : List Nat) (b sel : Nat) : W32 :=
  if sel < 6 then ((chanToken e deq sel b).map (·.data)).getD 0#32
  else if 8 ≤ sel && sel ≤ 15 then (vget e.x (sel - 8) 0#16).signExtend 32
  else if sel = 25 then e.lap.setWidth 32
  else if sel = 26 then e.p.setWidth 32
  else 0#32

/-- The offset `o` that beat b of a memory-form slot forms (R214). -/
def chainOffset (m : MemF) (e : TE) (deq : List Nat) (b : Nat) : W32 :=
  let step := if m.addr.toNat < 6 && deq.contains m.addr.toNat then 0 else b
  memSource e deq b m.addr.toNat + BitVec.ofNat 32 ((m.off8.toNat + step) * 2 ^ m.size.toNat)

/-- The chain access of beat b (R194). In an AMOC slot, TAGCH 7 marks the returning form (R213). -/
def chainReq (t : Trig) (m : MemF) (k : ChainOp) (e : TE) (deq : List Nat) (firing slot : Nat)
    (inRegion : Bool) (b : Nat) : ChainReq where
  firing := firing
  beat := b
  beats := beatsOf t
  chain := m.chain
  lap := e.lap
  own := m.own
  pred := m.pred
  succ := m.succ
  op := k
  size := m.size.toNat
  amo := m.amo
  returning := (k == .amocSp || k == .amocSh || k == .amocG) && t.tagch == 7#3
  addr := chainOffset m e deq b
  data := memSource e deq b m.data.toNat
  inRegion := inRegion
  slot := slot

/-- The tokens that every beat of a firing dequeues, dequeued. -/
def State.dequeueBeats (s : State) (p : TeId) (deq : List Nat) : Nat → State
  | 0 => s
  | n + 1 => (deq.foldl (fun a ch => a.dequeue p ch) s).dequeueBeats p deq n

/-- The firing of a memory-form slot: every beat's access goes to out.m, with a slot of in.m reserved for
it (R143, R194). -/
def State.fireChain (s : State) (p : TeId) (t : Trig) (m : MemF) (k : ChainOp) (slot : Nat) : State :=
  let e := s.teAt p
  let deq := deqList m.deq
  let (id, s1) := ((s.count 1 p.1 0).countBy 1 p.1 1 (beatsOf t)).fresh
  let reqs := (List.range (beatsOf t)).map fun b =>
    chainReq t m k e deq id slot (s.instanceOf p).isSome b
  (s1.modTeAt p fun x => { x with outM := x.outM ++ reqs, reservedM := x.reservedM + beatsOf t }).dequeueBeats
    p deq (beatsOf t)

/-- The stop of a ready memory-form slot, if anything stops it: a poisoned slot, or FORMAT (R144, R350). -/
def State.chainStop (s : State) (p : TeId) (slot : Nat) (t : Trig) (sh : Shape) : Option State :=
  let e := s.teAt p
  if e.slotPoison.getLsbD slot then some (s.poisonStop p slot 0)
  else if !(formatFaults e (beatsOf t) sh).isEmpty then
    let (d, s1) := s.pickOne (formatFaults e (beatsOf t) sh)
    some (s1.fabricTrap p slot 0x12 d)
  else none

/-- A memory-form slot of the TE in focus. -/
def fireMemory (t : Trig) (m : MemF) (k : ChainOp) (s : State) : Host.Outcome State Fault Refusal :=
  let p := s.focusTe
  let sh := memShape t m
  if s.teRuns p && !(s.teAt p).heldAt s.focus.teSlot && s.slotReady p t sh then
    match s.chainStop p s.focus.teSlot t sh with
    | some s1 => .next s1
    | none => .next (s.fireChain p t m k s.focus.teSlot)
  else .next s

/-- LDC.SP (R215): a chain-ordered load from the scratchpad. -/
def execLdcSp (t : Trig) (m : MemF) (s : State) : Host.Outcome State Fault Refusal := fireMemory t m .ldcSp s

/-- STC.SP (R215): a chain-ordered store to the scratchpad. -/
def execStcSp (t : Trig) (m : MemF) (s : State) : Host.Outcome State Fault Refusal := fireMemory t m .stcSp s

/-- LDC.SH (R215): a chain-ordered load from a slice. -/
def execLdcSh (t : Trig) (m : MemF) (s : State) : Host.Outcome State Fault Refusal := fireMemory t m .ldcSh s

/-- STC.SH (R215): a chain-ordered store to a slice. -/
def execStcSh (t : Trig) (m : MemF) (s : State) : Host.Outcome State Fault Refusal := fireMemory t m .stcSh s

/-- LDC.G (R215): a chain-ordered load through window 3. -/
def execLdcG (t : Trig) (m : MemF) (s : State) : Host.Outcome State Fault Refusal := fireMemory t m .ldcG s

/-- STC.G (R215): a chain-ordered store through window 3. -/
def execStcG (t : Trig) (m : MemF) (s : State) : Host.Outcome State Fault Refusal := fireMemory t m .stcG s

/-- AMOC.SP (R215): a chain-ordered atomic on the scratchpad. -/
def execAmocSp (t : Trig) (m : MemF) (s : State) : Host.Outcome State Fault Refusal := fireMemory t m .amocSp s

/-- AMOC.SH (R215): a chain-ordered atomic on a slice. -/
def execAmocSh (t : Trig) (m : MemF) (s : State) : Host.Outcome State Fault Refusal := fireMemory t m .amocSh s

/-- AMOC.G (R215): a chain-ordered atomic through window 3. -/
def execAmocG (t : Trig) (m : MemF) (s : State) : Host.Outcome State Fault Refusal := fireMemory t m .amocG s

/-- CSKIP (R215): a chain position filled without an access. -/
def execCskip (t : Trig) (m : MemF) (s : State) : Host.Outcome State Fault Refusal := fireMemory t m .cskip s

/-! ## Accesses -/

/-- The space of a chain access (R213). -/
def chainSpace (k : ChainOp) : Space :=
  match k with
  | .ldcSh | .stcSh | .amocSh => .sh
  | .ldcG | .stcG | .amocG => .g
  | _ => .sp

/-- Whether a chain access is a load. -/
def isLdc (k : ChainOp) : Bool := k == .ldcSp || k == .ldcSh || k == .ldcG

/-- Whether a chain access is a store. -/
def isStc (k : ChainOp) : Bool := k == .stcSp || k == .stcSh || k == .stcG

/-- Whether a chain access is an atomic. -/
def isAmoc (k : ChainOp) : Bool := k == .amocSp || k == .amocSh || k == .amocG

/-- What a chain access needs of its page (R326). -/
def chainNeed (k : ChainOp) : Need :=
  if isLdc k then needLoad else if isStc k then needStore.learns else needAmo.learns

/-- The address that a record of a chain access names: of G its effective address (R212, R214). -/
def Image.chainAddr (m : Image) (r : ChainReq) : Nat :=
  if chainSpace r.op = .g then (m.base3 + r.addr.setWidth 64).toNat else r.addr.toNat

/-- The cause of a fault of a chain access: GATEWAY for one that another package refuses (R329, R349). -/
def chainCause (e : AccessErr) : Nat := if e.code = 0x04#6 && 10 ≤ e.reason.toNat then 0x14 else e.code.toNat

/-- The bytes of a chain access. -/
def ChainReq.bytes (r : ChainReq) : Nat := 2 ^ r.size

/-- Whether an access is the last beat of its firing (R194). -/
def ChainReq.isLast (r : ChainReq) : Bool := r.beat + 1 == r.beats

/-- The translation buffer that an image's home uses: its tile's own, or the second level of the lowest quad of
its unit (R327; log entry 9). -/
def Image.buffer (m : Image) : TlbId :=
  if m.home = 0 then .tile m.homeUnit else .quad (m.homeUnit * unitTiles m.home / 4)

/-- The place of a chain access after the checks of R92 and R214, in their order. -/
def State.chainPlace (s : State) (m : Image) (p : TeId) (r : ChainReq) : Except (AccessErr × Word) (Nat × State) :=
  let o := r.addr.setWidth 64
  let tag (a : Word) (x : Except AccessErr (Nat × State)) : Except (AccessErr × Word) (Nat × State) :=
    x.mapError fun e => (e, a)
  match chainSpace r.op with
  | .g =>
    let ea := m.base3 + o
    if ea.toNat % r.bytes ≠ 0 then .error (errAlign, ea)
    else if m.lim3 = 0#32 || m.lim3.toNat < o.toNat + r.bytes then .error (errAccess 1, ea)
    else tag ea (s.resolve m.buffer p.1 m.gid .g ea r.bytes (chainNeed r.op))
  | space => tag o (s.resolve m.buffer p.1 m.gid space o r.bytes (chainNeed r.op))

/-- A token put into the slot of in.m that a firing reserved (R143, R169). -/
def State.fillM (s : State) (p : TeId) (t : Token) : State :=
  (s.modTeAt p fun e => { e with reservedM := e.reservedM - 1 }).enqueue p 4 t

/-- The state with the answer of an image's home to a TE: at once from its own tile, and on channel 2 from a slice (R169,
R197, R252). -/
def State.answer (s : State) (m : Image) (p : TeId) (v : W32) (tag : BitVec 2) (region : Option Nat) : State :=
  let t : Token := { data := v, fmt := 7#3, utag := tag, region := region }
  if m.home = 0 then s.fillM p t
  else
    s.enterAt m.home (unitOf m.home p.1) 4
      { vc := 2, owner := (s.ownerOf m.gid).getD 0, tile := p.1, path := downPath p.1 m.home, at_ := s.now + 1,
        payload := .chainReply m.id p.2.1 p.2.2 t }

/-- The image to whose instance an entry belongs. -/
def Entry.region (x : Entry) : Option Nat := if x.req.inRegion then some x.img else none

/-! ## The home (R195, R197, R198) -/

/-- Whether two accesses are of one chain of one image. -/
def Entry.onChain (x : Entry) (k : ChainCtx) : Bool := x.img == k.img && x.req.chain.toNat == k.chain

/-- Whether an access is the one that a context releases next (R195). -/
def ChainCtx.wants (k : ChainCtx) (r : ChainReq) : Bool :=
  match k.pos with
  | none => r.lap == k.lap && r.beat == 0 && r.pred == 0#8
  | some q =>
    if q.beat + 1 < q.beats then r.firing == q.firing && r.beat == q.beat + 1
    else if q.succ = 255#8 then r.lap == k.lap && r.beat == 0 && r.pred == q.own
    else r.lap == k.lap && r.beat == 0 && r.own == q.succ

/-- `next(k)`: the earliest arrived access that the context wants (R195). -/
def Home.next (h : Home) (k : ChainCtx) : Option Entry :=
  h.entries.find? fun x => x.onChain k && x.state == .wait && k.wants x.req

/-- The context of an image's chain. -/
def Home.ctx? (h : Home) (img chain : Nat) : Option ChainCtx :=
  h.ctxs.find? fun k => k.img == img && k.chain == chain

/-- The home with one context changed. -/
def Home.modCtx (h : Home) (img chain : Nat) (f : ChainCtx → ChainCtx) : Home :=
  { h with ctxs := h.ctxs.map fun k => if k.img == img && k.chain == chain then f k else k }

/-- Whether no shared entry is free (R197). -/
def Home.sharedFull (h : Home) : Bool :=
  decide (256 - h.ctxs.length ≤ (h.entries.filter fun x => !x.reserved).length)

/-- Whether the reserved entry of a context is held. -/
def Home.reservedHeld (h : Home) (k : ChainCtx) : Bool := h.entries.any fun x => x.onChain k && x.reserved

/-- Whether an arriving access would be `next(k)`: the context wants it and nothing waiting is ahead. -/
def Home.arrivesNext (h : Home) (k : ChainCtx) (r : ChainReq) : Bool := k.wants r && (h.next k).isNone

/-- Whether the home withholds a grant (R198, R210, R211). -/
def Home.withholds (h : Home) (m : Image) (k : ChainCtx) (r : ChainReq) : Bool :=
  16 ≤ (r.lap - k.lap).toNat || m.state == .closed ||
    (m.ordered && m.state == .opened && r.lap != k.lap) ||
    (h.sharedFull && (!h.arrivesNext k r || h.reservedHeld k))

/-- The stores and atomics of an instance that a home holds (R207). -/
def Home.writesOf (h : Home) (img : Nat) : Nat :=
  (h.entries.filter fun x => x.img == img && x.req.inRegion && (isStc x.req.op || isAmoc x.req.op)).length

/-! ## Byte sources (R203, R204) -/

/-- Whether a store entry covers the byte at a place of a load. -/
def Entry.covers (x : Entry) (space : Space) (tile place : Nat) : Bool :=
  isStc x.req.op && chainSpace x.req.op == space && (space != .sp || x.te.1 == tile) &&
    decide (x.loc ≤ place) && decide (place < x.loc + x.req.bytes)

/-- The last of a list of entries that covers a byte. -/
def lastCover (space : Space) (tile place : Nat) (l : List Entry) : Option Nat :=
  ((l.filter fun x => x.covers space tile place).getLast?).map (·.id)

/-- The waiting and held stores of an entry's chain and instance, in the order of their arrival. -/
def Home.arrived (h : Home) (k : ChainCtx) (inRegion : Bool) : List Entry :=
  h.entries.filter fun x => x.onChain k && x.req.inRegion == inRegion && x.state != .done

/-- The order of a held entry. -/
def Entry.order (x : Entry) : Option Nat := match x.state with | .held n => some n | _ => none

/-- An entry put in its place in a list by order. -/
def insertByOrder (x : Entry) : List Entry → List Entry
  | [] => [x]
  | y :: ys => if (x.order.getD 0) < (y.order.getD 0) then x :: y :: ys else y :: insertByOrder x ys

/-- The held entries of an image's chain, in release order (R208). -/
def Home.heldOf (h : Home) (img chain : Nat) : List Entry :=
  (h.entries.filter fun x => x.img == img && x.req.chain.toNat == chain && x.order.isSome).foldl
    (fun a x => insertByOrder x a) []

/-- The sources of the bytes of a load in speculative mode: the latest arrived store that covers each
byte, or memory (R203). -/
def Home.speculativeSources (h : Home) (k : ChainCtx) (inRegion : Bool) (space : Space) (tile place n : Nat) :
    List (Option Nat) :=
  (List.range n).map fun i => lastCover space tile (place + i) (h.arrived k inRegion)

/-- The sources of the bytes of a load in ordered mode: the held store of its chain and instance released last
that covers each byte, or memory (R203). -/
def Home.orderedSources (h : Home) (k : ChainCtx) (inRegion : Bool) (space : Space) (tile place n : Nat) :
    List (Option Nat) :=
  (List.range n).map fun i =>
    lastCover space tile (place + i) ((h.heldOf k.img k.chain).filter fun x => x.req.inRegion == inRegion)

/-- The byte that a store entry gives at a place. -/
def Home.byteFrom (h : Home) (id place : Nat) : Option Byte :=
  (h.entries.find? fun x => x.id == id).map fun x =>
    BitVec.ofNat 8 (x.req.data.toNat / 2 ^ (8 * (place - x.loc)) % 256)

/-- The bytes of a load from its sources. -/
def State.sourceBytes (s : State) (h : Home) (tile gid : Nat) (space : Space) (place : Nat) :
    List (Option Nat) → List Byte
  | [] => []
  | o :: os =>
    ((o.bind fun id => h.byteFrom id place).getD (s.byteAt tile gid space place)) ::
      s.sourceBytes h tile gid space (place + 1) os

/-- Whether a load reads a poisoned granule (R212). -/
def State.sourcePoisoned (s : State) (tile gid : Nat) (space : Space) (place : Nat) (os : List (Option Nat)) :
    Bool :=
  os.any Option.isNone && s.placePoisoned tile gid space place

/-! ## Faults of chain accesses (R207, R212, R215) -/

/-- A fault of a chain access: in speculative mode the instance re-enters in ordered mode and nothing is
reported; in ordered mode, or outside an instance, the image stops and the supervisor receives the fault
(R212). -/
def State.chainFault (s : State) (m : Image) (p : TeId) (inRegion : Bool) (slot code : Nat) (addr : Nat) : State :=
  if inRegion && m.active && !m.ordered then
    s.discardInstance m.id { cause := some code, ordered := true }
  else
    (s.discardInstance m.id { cause := some code, ordered := true, stops := true }).logTe p code 7 slot addr 0

/-- A chain access that a gateway drops: the image stops as for FSTOP, and a record names both owner identifiers
(R349). -/
def State.chainDropped (s : State) (m : Image) (p : TeId) (addr : Nat) : State :=
  (s.discardInstance m.id { cause := none, stops := true }).log
    { cause := 0x14, src := 13, unit := p.1, owner := s.ownerOf m.gid, col := p.2.1, row := p.2.2, addr := addr,
      aux := 128 * s.pkg.blockOwner.get 128 (p.1 / 16) + (s.ownerOf m.gid).getD 0, die := dieOf p.1 }

/-- REGION_OVERFLOW: the 193rd store or atomic of an instance (R207). -/
def State.regionOverflow (s : State) (m : Image) (p : TeId) (slot : Nat) : State :=
  (s.discardInstance m.id { cause := some 0x0F, stops := true }).logTe p 0x0F 7 slot 0 0

/-- An access of a chain after a returning atomic of the same instance (R215). -/
def State.lateAccess (s : State) (m : Image) (p : TeId) (slot : Nat) : State :=
  (s.discardInstance m.id { cause := some 0x01, stops := true }).logTe p 0x01 7 slot 0 0

/-- The conditions of R211 looked at again for the images of a home: no shared entry free and an access of
the domain waiting for a grant. -/
def State.recheckHome (s : State) (level unit : Nat) : State :=
  let full := (s.homeAt level unit).sharedFull
  { s with images := s.images.map fun m =>
      if m.home == level && m.homeUnit == unit then
        if full && m.tes.any fun p => !(s.teAt p).outM.isEmpty then
          { m with blockedSince := some (m.blockedSince.getD s.now) }
        else if m.discarded == some s.now then m
        else { m with blockedSince := none }
      else m }

/-! ## Acceptance (R199, R203, R212) -/

/-- The first request of a TE's out.m taken off. -/
def TE.popM (e : TE) : TE := { e with outM := e.outM.tail }

/-- The state with an access that its home has accepted: its entry, and the completion or the forwarded
value's sources (R169, R199, R203). A next access takes a shared entry where one is free, and its context's reserved
one only where none is (R197; DESIGN CHOICE, log entry 79). -/
def State.enterHome (s : State) (m : Image) (p : TeId) (r : ChainReq) (place : Nat) (k : ChainCtx) : State :=
  let h := s.homeOf m
  let x : Entry :=
    { id := h.nextEntry, img := m.id, req := r, te := p, loc := place, since := s.now,
      reserved := h.sharedFull && h.arrivesNext k r, replied := !isLdc r.op && !r.returning }
  let region := x.region
  let s1 := s.modTeAt p TE.popM
  let speculative := isLdc r.op && m.state == .opened && !m.ordered
  let os := h.speculativeSources k r.inRegion (chainSpace r.op) p.1 place r.bytes
  let b := if speculative && os.any Option.isNone then s1.takeBank (s1.bankOf p.1 m.gid (chainSpace r.op) place) m.gid else (0, s1)
  let x1 := if speculative then
      { x with sources := os, due := s.now + b.1,
               value := some (BitVec.ofNat 32
                 (leNat (s.sourceBytes h p.1 m.gid (chainSpace r.op) place os))) }
    else x
  let s2 := (b.2.count 6 (4096 * m.home + m.homeUnit) 0).modHomeOf m fun y =>
    { y with entries := y.entries ++ [x1], nextEntry := y.nextEntry + 1 }
  if x.replied then s2.answer m p 0#32 1#2 region else s2

/-- Whether the request of an access has reached its home: that of its own tile at once, and one in a slice over
the network (R197, R252). -/
def ChainReq.atHome (m : Image) (r : ChainReq) : Bool := m.home == 0 || r.net == .arrived

/-- The requests of a TE for a home in a slice presented at its tile's link, on channel 1 (R252). -/
def State.sendChain (s : State) (p : TeId) : State :=
  match s.imageOf p with
  | none => s
  | some m =>
    let n := ((s.teAt p).outM.filter fun r => r.net == .unsent).length
    if m.home = 0 || n = 0 then s
    else
      (List.range n).foldl (fun a _ =>
        a.present p.1
          { vc := 1, owner := (s.ownerOf m.gid).getD 0, path := pathTo m.home, payload := .chain p.1 p.2.1 p.2.2 })
        (s.modTeAt p fun e =>
          { e with outM := e.outM.map fun r => if r.net = .unsent then { r with net := .onWay } else r })

/-- Whether a chain's atomic on its way to another die will write the places that an access of a tile reads: that
access waits until it is performed (R210, R215, R267). -/
def State.atomicAhead (s : State) (tile : Nat) (space : Space) (place n : Nat) : Bool :=
  s.pkg.far.any fun w => w.atomic.isSome && dieOf w.tile == dieOf tile && w.space == space &&
    decide (w.place < place + n) && decide (place < w.place + 4)

/-- CHAIN_ACCESS_ACCEPT (R198, R199): the first access at a TE's out.m, once its request has reached its home,
granted and accepted unless the home withholds the grant. One outside any instance that faults is dropped, and its
reply slot with it (R212; DESIGN CHOICE, log entry 79). -/
def State.chainAccept (s : State) (p : TeId) : State :=
  match s.imageOf p, (s.teAt p).outM with
  | some m, r0 :: _ =>
    let r := { r0 with inRegion := m.state == .opened }
    let h := s.homeOf m
    match h.ctx? m.id r.chain.toNat with
    | none => s
    | some k =>
      if !r0.atHome m || (s.tile p.1).stopped then s
      else if h.withholds m k r then s.recheckHome m.home m.homeUnit
      else if k.closed && r.inRegion then s.lateAccess m p r.slot
      else if r.inRegion && (isStc r.op || isAmoc r.op) && 192 ≤ h.writesOf m.id then
        s.regionOverflow m p r.slot
      else if r.op = .cskip then (s.enterHome m p r 0 k).recheckHome m.home m.homeUnit
      else
        let drop (t : State) : State := if r.inRegion then t
          else t.modTeAt p fun e => { e.popM with reservedM := e.reservedM - 1 }
        match s.chainPlace m p r with
        | .error (e, a) =>
          drop (if e = errAccess 10 then s.chainDropped m p a.toNat
            else s.chainFault m p r.inRegion r.slot (chainCause e) a.toNat)
        | .ok (place, s1) =>
          let speculative := isLdc r.op && m.state == .opened && !m.ordered
          if speculative && s1.sourcePoisoned p.1 m.gid (chainSpace r.op) place
              (h.speculativeSources k r.inRegion (chainSpace r.op) p.1 place r.bytes) then
            s1.chainFault m p r.inRegion r.slot 0x05 (m.chainAddr r)
          else if speculative && s1.atomicAhead p.1 (chainSpace r.op) place r.bytes then s
          else if s1.wayLost p.1 (chainSpace r.op) place then
            drop (s1.chainFault m p r.inRegion r.slot 0x13 (m.chainAddr r))
          else (s1.enterHome m p r place k).recheckHome m.home m.homeUnit
  | _, _ => s

/-! ## Performing (R208, R215) -/

/-- The value that an AMOC writes (R215). -/
def amocValue (amo : BitVec 3) (old d : W32) : W32 :=
  match amo.toNat with
  | 0 => old + d
  | 1 => if old.toInt ≤ d.toInt then old else d
  | 2 => if old.toInt ≤ d.toInt then d else old
  | 3 => old &&& d
  | 4 => old ||| d
  | 5 => old ^^^ d
  | 6 => BitVec.ofNat 32
      (roundTo ((Fmt.fp32.value false old.toNat).add .rne (Fmt.fp32.value false d.toNat)).1 .fp32 .rne false
        false).1
  | _ => d

/-- The cycles that a chain access waits for the bank of its place, and the state with that taken for it (R262,
R263). -/
def State.chainBank (s : State) (m : Image) (x : Entry) : Nat × State :=
  s.takeBank (s.bankOf x.te.1 m.gid (chainSpace x.req.op) x.loc) m.gid

/-- Whether the bank of a store or atomic of a chain is its own now, and the state with it taken, or with the next cycle
in which it is free booked (R262, R265). -/
def State.chainTurn (s : State) (m : Image) (x : Entry) : Bool × State :=
  match x.booked with
  | some c => (decide (c ≤ s.now), s)
  | none =>
    let b := s.chainBank m x
    if b.1 = 0 then (true, b.2)
    else
      (false, b.2.modHomeOf m fun h =>
        { h with entries := h.entries.map fun y => if y.id == x.id then { y with booked := some (s.now + b.1) } else y })

/-- A chain's atomic of a tile performed at a place: the old value, and the state (R215). -/
def State.amocNow (s : State) (tile gid : Nat) (space : Space) (place : Nat) (a : FarAmo) : W32 × State :=
  let old : W32 := BitVec.ofNat 32 (leNat (s.loadBytes tile gid space place 4))
  (old, s.writeOver tile gid space place (leBytes 4 (amocValue a.amo old a.data).toNat))

/-- What a chain's atomic does (R215). -/
def ChainReq.atomic (r : ChainReq) : FarAmo := ⟨r.amo, r.data, r.returning, r.inRegion⟩

/-- A chain's store or atomic as a far write (R335). -/
def Image.farWrite (m : Image) (x : Entry) : FarWrite :=
  { tile := x.te.1, gid := m.gid, maker := .chain m.id x.te.2.1 x.te.2.2 x.req.slot, space := chainSpace x.req.op,
    place := x.loc, va := Word.ofN (m.chainAddr x.req), cells := [], since := 0, due := 0 }

/-- The state with the slot of in.m free that a returning atomic which sends no value had reserved (R212). -/
def State.unanswered (s : State) (p : TeId) (a : FarAmo) : State :=
  if a.returning then s.modTeAt p fun e => { e with reservedM := e.reservedM - 1 } else s

/-- A chain's store or atomic whose way is lost: it is not performed, and a record names the plane; of a returning
atomic the image stops as for a fault of its load (R212, R320, R331). -/
def State.chainLost (s : State) (m : Image) (x : Entry) : State :=
  let w := m.farWrite x
  let s1 := (s.farRecord w 0x13 (planeOf w.tile w.space w.place)).unanswered x.te x.req.atomic
  if x.req.returning then s1.stopImage m else s1

/-- The old value of a returning atomic on its way to its TE: at once outside an instance, and otherwise once the
commit is complete (R215). -/
def State.sendOld (s : State) (m : Image) (p : TeId) (a : FarAmo) (v : W32) : State :=
  if !a.returning then s
  else if a.inRegion then s.modImage m.id fun x => { x with heldAnswers := x.heldAnswers ++ [(p, v)] }
  else s.answer m p v 0#2 none

/-- A store of a chain performed, or, to another die, on its way there (R335). At a poisoned granule it is not
performed, and a record goes to the log (R323). -/
def State.performStc (s : State) (m : Image) (x : Entry) : State :=
  let space := chainSpace x.req.op
  let bs := leBytes x.req.bytes x.req.data.toNat
  if s.placePoisoned x.te.1 m.gid space x.loc then s.logTe x.te 0x05 7 x.req.slot (m.chainAddr x.req) 0
  else if s.wayLost x.te.1 space x.loc then s.chainLost m x
  else if farPlace x.te.1 space x.loc then
    s.sendFar x.te.1 m.gid (m.farWrite x).maker space x.loc (m.farWrite x).va false bs
  else s.writeOver x.te.1 m.gid space x.loc bs

/-- An atomic of a chain performed, with its old value's reply, or, to another die, on its way there; at a poisoned
granule it is not performed, sends no value, and the image stops (R212, R215). -/
def State.performAmoc (s : State) (m : Image) (x : Entry) : State :=
  let space := chainSpace x.req.op
  if s.placePoisoned x.te.1 m.gid space x.loc then
    ((s.stopImage m).logTe x.te 0x05 7 x.req.slot (m.chainAddr x.req) 0).unanswered x.te x.req.atomic
  else if s.wayLost x.te.1 space x.loc then s.chainLost m x
  else if farPlace x.te.1 space x.loc then s.launchFar { m.farWrite x with atomic := some x.req.atomic }
  else
    let r := s.amocNow x.te.1 m.gid space x.loc x.req.atomic
    r.2.sendOld m x.te x.req.atomic r.1

/-- A store or atomic of a chain performed. -/
def State.performChain (s : State) (m : Image) (x : Entry) : State :=
  if isStc x.req.op then s.performStc m x else s.performAmoc m x

/-! ## Release (R195, R200, R204) -/

/-- The context after a release of an access (R195). -/
def ChainCtx.released (k : ChainCtx) (r : ChainReq) : ChainCtx :=
  if r.isLast && r.succ == 0#8 then { k with lap := k.lap + 1, pos := none }
  else { k with pos := some ⟨r.firing, r.beat, r.beats, r.own, r.succ⟩ }

/-- The home without one entry. -/
def Home.free (h : Home) (id : Nat) : Home := { h with entries := h.entries.filter fun x => x.id != id }

/-- The home with one entry changed. -/
def Home.modEntry (h : Home) (id : Nat) (f : Entry → Entry) : Home :=
  { h with entries := h.entries.map fun x => if x.id == id then f x else x }

/-- The release of a load (R200, R203, R204): confirmed, or an order violation, in speculative mode;
sourced and confirmed in ordered mode. -/
def State.releaseLoad (s : State) (m : Image) (k : ChainCtx) (x : Entry) : State :=
  let h := s.homeOf m
  let space := chainSpace x.req.op
  let os := h.orderedSources k x.req.inRegion space x.te.1 x.loc x.req.bytes
  match x.value with
  | some _ =>
    if os = x.sources then
      s.modHomeOf m fun y =>
        if x.replied then y.free x.id else y.modEntry x.id fun z => { z with state := .done }
    else
      (s.discardInstance m.id { cause := some 0x17, ordered := true }).count 6
        (4096 * m.home + m.homeUnit) 2
  | none =>
    let lost := os.any Option.isNone && s.wayLost x.te.1 space x.loc
    if lost || s.sourcePoisoned x.te.1 m.gid space x.loc os then
      let code := if s.sourcePoisoned x.te.1 m.gid space x.loc os then 0x05 else 0x13
      let s1 := s.chainFault m x.te x.req.inRegion x.req.slot code (m.chainAddr x.req)
      if x.req.inRegion then s1
      else
        (s1.modHomeOf m fun y => y.free x.id).modTeAt x.te fun e => { e with reservedM := e.reservedM - 1 }
    else
      let v : W32 := BitVec.ofNat 32 (leNat (s.sourceBytes h x.te.1 m.gid space x.loc os))
      let b := if os.any Option.isNone then s.chainBank m x else (0, s)
      b.2.modHomeOf m fun y =>
        y.modEntry x.id fun z => { z with state := .done, value := some v, due := s.now + b.1 }

/-- The release of a store or atomic: held to the commit inside an instance, performed at once outside
(R200, R210). -/
def State.releaseWrite (s : State) (m : Image) (x : Entry) : State :=
  if x.req.inRegion then
    s.modHomeOf m fun y =>
      { y.modEntry x.id fun z => { z with state := .held y.nextOrder } with nextOrder := y.nextOrder + 1 }
  else (s.modHomeOf m fun y => y.free x.id).performChain m x

/-- Whether another access of a chain waits after a returning atomic of its instance has been released
(R215). -/
def Home.lateEntry (h : Home) (k : ChainCtx) : Option Entry :=
  h.entries.find? fun x => x.onChain k && x.req.inRegion && x.state == .wait

/-- Whether a load of a chain that takes its value at its release waits for an atomic ahead of it. -/
def State.loadBehind (s : State) (x : Entry) : Bool :=
  isLdc x.req.op && x.value.isNone && s.atomicAhead x.te.1 (chainSpace x.req.op) x.loc x.req.bytes

/-- Whether the release of an access performs it: a store or atomic of no instance, which waits for its bank (R200,
R262). -/
def Entry.writesNow (x : Entry) : Bool := !x.req.inRegion && (isStc x.req.op || isAmoc x.req.op)

/-- CHAIN_RELEASE (R195): the next access of a context of a home released, if it has arrived. -/
def State.chainRelease (s : State) (level unit ctx : Nat) : State :=
  let h := s.homeAt level unit
  match h.ctxs[ctx]? with
  | none => s
  | some k =>
    match h.next k, s.liveImage? k.img with
    | some x, some m =>
      let w := if x.writesNow then s.chainTurn m x else (true, s)
      if (s.tile m.leader).stopped || s.loadBehind x then s
      else if !w.1 then w.2
      else
        let s := w.2
        let closing := x.req.returning && x.req.inRegion && x.req.isLast
        let s1 := (s.modHomeOf m fun y => y.modCtx k.img k.chain fun c =>
          { c.released x.req with closed := c.closed || closing }).modImage m.id fun i =>
            { i with blockedSince := none }
        let s2 :=
          if x.req.op = .cskip then s1.modHomeOf m fun y => y.free x.id
          else if isLdc x.req.op then s1.releaseLoad m k x
          else s1.releaseWrite m x
        let s3 := if closing then
            match (s2.homeOf m).lateEntry k with
            | some y => s2.lateAccess m y.te y.req.slot
            | none => s2
          else s2
        s3.recheckHome level unit
    | _, _ => s

/-- CHAIN_LOAD_REPLY (R169, R199): the value of a load that its bank has served goes to the slot of in.m that its
firing reserved (R262). -/
def State.chainLoadReply (s : State) (level unit id : Nat) : State :=
  let h := s.homeAt level unit
  match h.entries.find? fun x => x.id == id && isLdc x.req.op && !x.replied && decide (x.due ≤ s.now) with
  | none => s
  | some x =>
    match x.value, s.liveImage? x.img with
    | some v, some m =>
      let s1 := s.answer m x.te v 0#2 x.region
      (s1.modHomeOf m fun y =>
        if x.state = .done then y.free id else y.modEntry id fun z => { z with replied := true }).recheckHome
          level unit
    | _, _ => s

/-- A chain load whose reply never arrives ends as a LINK error: a memory fault of its access (R212, R331). -/
def State.chainTimeout (s : State) (p : TeId) (overdue : Nat → Nat → Bool) : State :=
  match s.imageOf p with
  | none => s
  | some m =>
    match (s.homeOf m).entries.find? fun x =>
        x.te == p && isLdc x.req.op && !x.replied && chainSpace x.req.op == .g && overdue x.loc x.since with
    | none => s
    | some x =>
      let s1 := s.chainFault m p x.req.inRegion x.req.slot 0x13 (m.chainAddr x.req)
      if x.req.inRegion then s1
      else
        (s1.modHomeOf m fun y => y.free x.id).modTeAt p fun e => { e with reservedM := e.reservedM - 1 }

/-- CHAIN_OVERFLOW (R211): the conditions have held for 512 cycles; the instance re-enters in ordered
mode. -/
def State.chainOverflow (s : State) (level unit img : Nat) : State :=
  match s.liveImage? img with
  | none => s
  | some m =>
    match m.blockedSince with
    | none => s
    | some c =>
      if c + 512 ≤ s.now && m.metBy s.now && m.home == level && m.homeUnit == unit then
        ((s.discardInstance img { cause := some 0x10, ordered := true }).modImage img fun x =>
          { x with blockedSince := none }).count 6 (4096 * m.home + m.homeUnit) 3
      else s

/-! ## Commit (R208, R229) -/

/-- Whether a closed instance may commit (R208, R229). -/
def State.commitReady (s : State) (m : Image) : Bool :=
  m.state == .closed && m.columnOut == 0 &&
    (s.homeOf m).entries.all fun x => !(x.img == m.id && x.req.inRegion) || x.state != .wait

/-- The held accesses of the chains of an instance performed as far as their banks serve them in this cycle, each chain
in its release order, and the chains interleaved as a free choice gives (R208, R229, R262): `n` accesses or chains are
left. -/
def State.performHeld (s : State) (m : Image) : Nat → List (List Entry) → State
  | 0, _ => s
  | n + 1, ls =>
    let live := ls.filter fun l => !l.isEmpty
    let k := if live.length ≤ 1 then 0 else Config.pick s.draw.1 % live.length
    match live[k]? with
    | some (x :: xs) =>
      let w := s.draw.2.chainTurn m x
      if w.1 then
        ((w.2.modHomeOf m fun y => y.free x.id).performChain m x).performHeld m n (modifyAt (fun _ => xs) k live)
      else w.2.performHeld m n (modifyAt (fun _ => []) k live)
    | _ => s

/-- The tokens of a committed instance, which belong to no instance from now on, in one queue. -/
def tokensFreed (img : Nat) (q : List Token) : List Token :=
  q.map fun t => if t.region == some img then { t with region := none } else t

/-- A TE of a domain once an instance has committed: the slots of the live-in tokens it took are
returned. -/
def State.commitTe (s : State) (p : TeId) : State :=
  let kept := (s.teAt p).taken
  let s1 := s.modTeAt p fun e =>
    { e with taken := [], outM := e.outM.map fun r => { r with inRegion := false } }
  [0, 1, 2, 3].foldl (fun a ch => a.returnSlots p ch (kept.filter fun t => t.1 == ch).length) s1

/-- The tokens of an instance freed in the queues of every TE, and among those that an open instance of another
image took. -/
def State.freeTokens (s : State) (img : Nat) : State :=
  (s.tiles.keys.flatMap fun t => s.tesOf t).foldl (fun a p =>
    a.modTeAt p fun e =>
      { e with
        queues := e.queues.map (tokensFreed img)
        taken := e.taken.map fun t => if t.2.region == some img then (t.1, { t.2 with region := none }) else t }) s

/-- The home after a commit: what has not been answered belongs to no instance. -/
def Home.afterCommit (h : Home) (img : Nat) : Home :=
  { h with
    entries := h.entries.map fun x => if x.img == img then { x with req := { x.req with inRegion := false } } else x
    ctxs := h.ctxs.map fun k => if k.img == img then { k with closed := false } else k }

/-- The held accesses of an instance, chain by chain, each chain in its release order (R208). -/
def State.heldChains (s : State) (m : Image) : List (List Entry) :=
  let h := s.homeOf m
  ((h.ctxs.filter fun k => k.img == m.id).map fun k => (h.heldOf m.id k.chain).filter fun x => x.req.inRegion).filter
    fun l => !l.isEmpty

/-- The state with the held accesses of an instance performed that may be now, its commit under way (R208, R229). -/
def State.performCommit (s : State) (m : Image) : State :=
  let held := s.heldChains m
  (s.modImage m.id fun x => { x with committing := true }).performHeld m ((held.map List.length).sum + held.length) held

/-- Whether accesses of an image's chains are on their way to another die (R208). -/
def State.farChain (s : State) (img : Nat) : Bool :=
  s.pkg.far.any fun w =>
    match w.maker with
    | .chain i _ _ _ => i == img
    | _ => false

/-- A token of a committed instance belongs to none. -/
def Payload.freed (x : Payload) : Payload :=
  match x with
  | .chainReply i c r t => .chainReply i c r { t with region := none }
  | _ => x

/-- The commit of an instance whose accesses are performed: the control tokens go to their collectors, then the live-in
slots are returned, and the domain is idle (R229); the values that returning atomics hold back follow (R215), and a
stop that came meanwhile takes effect (R233). -/
def State.endCommit (s : State) (m : Image) : State :=
  let s1 := m.heldTokens.foldl (fun a x =>
    a.modCtx x.1 fun c => { c with collector := c.collector ++ [{ x.2 with due := s.now + 3 }] }) s
  let s2 := m.tes.foldl (fun a p => a.commitTe p) s1
  let s3 := (((s2.freeTokens m.id).mapReplies m.id true Payload.freed).modHomeOf m fun y => y.afterCommit m.id).modImage
    m.id fun x =>
      { x with state := .idle, reentry := 0#8, ordered := false, snapshots := [], heldTokens := [], snapPoison := [],
               committing := false, stopAfter := false, heldAnswers := [] }
  let s4 := m.heldAnswers.foldl (fun a x => a.answer m x.1 x.2 0#2 none) s3
  if m.stopAfter then s4.stopTes m else s4

/-- INSTANCE_COMMIT (R208, R229): the held accesses are performed, and the commit completes once all are, those to other
dies among them. -/
def State.commitInstance (s : State) (img : Nat) : State :=
  match s.liveImage? img with
  | none => s
  | some m =>
    if !s.commitReady m then s
    else
      let s1 := s.performCommit m
      match s1.image? img with
      | some x => if s1.farChain img || !(s1.heldChains m).isEmpty then s1 else s1.endCommit x
      | none => s1

/-! ## The events -/

/-- CHAIN_ACCESS_ACCEPT (R199): see `State.chainAccept`. -/
def execChainAccessAccept (tile col row : Nat) (s : State) : Host.Outcome State Fault Refusal :=
  if 2048 ≤ tile || 20 ≤ col || 10 ≤ row then .fault .noSuchUnit else .next (s.chainAccept (tile, col, row))

/-- CHAIN_RELEASE (R195): see `State.chainRelease`. -/
def execChainRelease (level unit ctx : Nat) (s : State) : Host.Outcome State Fault Refusal :=
  .next (s.chainRelease level unit ctx)

/-- CHAIN_OVERFLOW (R211): see `State.chainOverflow`. -/
def execChainOverflow (level unit img : Nat) (s : State) : Host.Outcome State Fault Refusal :=
  .next (s.chainOverflow level unit img)

/-- CHAIN_LOAD_REPLY (R199): see `State.chainLoadReply`. -/
def execChainLoadReply (level unit entry : Nat) (s : State) : Host.Outcome State Fault Refusal :=
  .next (s.chainLoadReply level unit entry)

/-- INSTANCE_COMMIT (R229): see `State.commitInstance`. -/
def execInstanceCommit (img : Nat) (s : State) : Host.Outcome State Fault Refusal := .next (s.commitInstance img)

end Sys2Proof.Machine
end

