-- ==== Sys2Proof/Machine/Elements.lean ====
section
/-! DEFINITION. What each compute-form element instruction computes (R153 to R165, R178 to R186): integer,
floating point, column-unit requests, dataflow operators, region and control, conversion, predicates and
index registers. -/

namespace Sys2Proof.Machine

/-! ## Integer operations (R155 to R157) -/

/-- A 32-bit value. -/
def w32 (n : Nat) : W32 := BitVec.ofNat 32 n

/-- A slot of an integer operation on two values, which raises no flag. -/
def fireInt2 (t : Trig) (f : Comp) (op : W32 → W32 → W32) (s : State) : Host.Outcome State Fault Refusal :=
  fireValue .src2 t f (fun a b _ => (op a b, 0#8)) s

/-- A slot of an integer operation on one value. -/
def fireInt1 (t : Trig) (f : Comp) (op : W32 → W32) (s : State) : Host.Outcome State Fault Refusal :=
  fireValue .src1 t f (fun a _ _ => (op a, 0#8)) s

/-- c + Σ sx(a lane i) × sx(b lane i) over the four byte lanes (R157). -/
def dot4Value (a b c : W32) : W32 :=
  c + BitVec.ofInt 32 (((List.range 4).map fun i =>
    toInt (lane .int8 a i) 8 * toInt (lane .int8 b i) 8).sum)

/-- BFX on 32 bits: position, length and extension from b (R157). -/
def bfxValue (a b : W32) : W32 :=
  let pos := b.toNat % 32
  let m := min (b.toNat / 32 % 32 + 1) (32 - pos)
  let v := a.toNat / 2 ^ pos % 2 ^ m
  if b.getLsbD 10 then BitVec.ofInt 32 (toInt v m) else w32 v

/-- HASH (R157). -/
def hashValue (a b : W32) : W32 :=
  let h := (a * 0x9E3779B1#32).toNat
  let k := min (b.toNat % 64) 32
  if k = 0 then 0#32 else w32 (h / 2 ^ (32 - k))

/-! ## Floating-point operations (R158 to R160) -/

/-- The tile FTZ bit of the TE in focus (R129). -/
def State.teFtz (s : State) : Bool := s.tileFtz s.focus.tile

/-- The lanes of a format computed on their own: each pattern and its flags (R118). -/
def mapLanes (fmt : BitVec 3) (g : Nat → Nat × BitVec 8) : W32 × BitVec 8 :=
  buildLanes (Fmt.ofTag fmt) g (Fmt.ofTag fmt).lanes

/-- One rounding under RNE of an exact result and the flags of its operands (R126, R153). -/
def roundLane (f : Fmt) (ftz : Bool) (x : Num × BitVec 8) : Nat × BitVec 8 :=
  ((roundTo x.1 f .rne false ftz).1, (roundTo x.1 f .rne false ftz).2 ||| x.2)

/-- The value of lane i of a word. -/
def laneNum (fmt : BitVec 3) (ftz : Bool) (w : W32) (i : Nat) : Num :=
  (Fmt.ofTag fmt).value ftz (lane (Fmt.ofTag fmt) w i)

/-- A slot of an operation on the exact values of two lanes, with one rounding. -/
def fireFp2 (t : Trig) (f : Comp) (op : Num → Num → Num × BitVec 8) (s : State) :
    Host.Outcome State Fault Refusal :=
  fireValue .src2 t f (fun a b _ => mapLanes t.fmt fun i =>
    roundLane (Fmt.ofTag t.fmt) s.teFtz (op (laneNum t.fmt s.teFtz a i) (laneNum t.fmt s.teFtz b i))) s

/-- A slot of a fused operation on the exact values of three lanes, with one rounding. -/
def fireFp3 (t : Trig) (f : Comp) (op : Num → Num → Num → Num × BitVec 8) (s : State) :
    Host.Outcome State Fault Refusal :=
  fireValue .src3 t f (fun a b c => mapLanes t.fmt fun i =>
    roundLane (Fmt.ofTag t.fmt) s.teFtz
      (op (laneNum t.fmt s.teFtz a i) (laneNum t.fmt s.teFtz b i) (laneNum t.fmt s.teFtz c i))) s

/-- A slot of an operation on the patterns of the lanes of one value. -/
def fireLanes1 (k : Form) (t : Trig) (f : Comp) (op : Fmt → Nat → Nat × BitVec 8) (s : State) :
    Host.Outcome State Fault Refusal :=
  fireValue k t f (fun a _ _ => mapLanes t.fmt fun i => op (Fmt.ofTag t.fmt) (lane (Fmt.ofTag t.fmt) a i)) s

/-- A slot of an operation on the patterns of the lanes of two values. -/
def fireLanes2 (k : Form) (t : Trig) (f : Comp) (op : Fmt → Nat → Nat → Nat × BitVec 8) (s : State) :
    Host.Outcome State Fault Refusal :=
  fireValue k t f (fun a b _ => mapLanes t.fmt fun i =>
    op (Fmt.ofTag t.fmt) (lane (Fmt.ofTag t.fmt) a i) (lane (Fmt.ofTag t.fmt) b i)) s

/-- FABS and FNEG of a pattern: the sign the function gives, a subnormal read as a zero under FTZ, and
the canonical NaN with NV for a signalling NaN (R129, R158). -/
def signLane (ftz : Bool) (sign : Bool → Bool) (f : Fmt) (v : Nat) : Nat × BitVec 8 :=
  let x := f.value ftz v
  if x.isNan then (f.nanBits, snanFlag [x])
  else
    let mag := if x.isZero then 0 else v % 2 ^ (f.bits - 1)
    (f.withSign (sign x.isNeg) mag, 0#8)

/-- FCMP of two patterns (R159): all ones or all zeros. -/
def fcmpLane (cond : Nat) (ftz : Bool) (f : Fmt) (a b : Nat) : Nat × BitVec 8 :=
  let x := f.value ftz a
  let y := f.value ftz b
  let un := x.isNan || y.isNan
  let o := x.cmp y
  let yes : Bool := match cond with
    | 0 => !un && o == .eq
    | 1 => un || o != .eq
    | 2 => !un && o == .lt
    | 3 => !un && o != .lt
    | 4 => !un && o != .gt
    | 5 => !un && o == .gt
    | 6 => un
    | _ => !un
  (if yes then 2 ^ f.bits - 1 else 0, flagIf (x.isSnan || y.isSnan || (un && 2 ≤ cond && cond ≤ 5)) flagNV)

/-- FRND of a pattern (R160). -/
def frndLane (mode : Nat) (ftz : Bool) (f : Fmt) (v : Nat) : Nat × BitVec 8 :=
  match f.value ftz v with
  | .nan sg => (f.nanBits, flagIf sg flagNV)
  | .inf neg => (f.withSign neg f.infBits, 0#8)
  | .fin neg m e => ((roundTo (.fin neg (roundMag (Rm.ofCode mode) neg m e).1 0) f .rne false ftz).1, 0#8)

/-- The scale of FSCALE: b truncated toward zero and clamped to ±512 (R160). -/
def scaleOf (b : Num) : Int :=
  match b with
  | .inf neg => if neg then -512 else 512
  | .fin neg m e =>
    let n : Int := (roundMag .rtz neg m e).1
    max (-512) (min 512 (if neg then -n else n))
  | .nan _ => 0

/-- FSCALE of two patterns (R160). -/
def fscaleLane (ftz : Bool) (f : Fmt) (a b : Nat) : Nat × BitVec 8 :=
  let x := f.value ftz a
  let y := f.value ftz b
  if x.isNan || y.isNan then (f.nanBits, snanFlag [x, y])
  else
    match x with
    | .fin neg m e => roundTo (.fin neg m (e + scaleOf y)) f .rne false ftz
    | z => roundTo z f .rne false ftz

/-- FEXPO of a pattern (R160). -/
def fexpoLane (ftz : Bool) (f : Fmt) (v : Nat) : Nat × BitVec 8 :=
  match f.value ftz v with
  | .nan sg => (f.nanBits, flagIf sg flagNV)
  | .inf _ => (f.infBits, 0#8)
  | .fin _ m e =>
    if m = 0 then (f.withSign true f.infBits, flagDZ)
    else ((roundTo (Num.ofInt (floorLog2 m e)) f .rne false false).1, 0#8)

/-- The class of a pattern, 0 to 9 (R160); the tile FTZ bit does not enter. -/
def classOf (f : Fmt) (v : Nat) : Nat :=
  match f.value false v with
  | .nan sg => if sg then 8 else 9
  | .inf neg => if neg then 0 else 7
  | .fin neg m e =>
    let k := if m = 0 then 2 else if floorLog2 m e < f.emin then 1 else 0
    if neg then 1 + k else 6 - k

/-- FCLASS of a word against a mask (R160). -/
def fclassValue (fmt : BitVec 3) (a b : W32) : W32 × BitVec 8 :=
  mapLanes fmt fun i =>
    let f := Fmt.ofTag fmt
    (if b.getLsbD (classOf f (lane f a i)) then f.oneBits else 0, 0#8)

/-- FHADD: lane 0 is the sum of a's lanes, lane 1 of b's (R158). -/
def fhaddValue (fmt : BitVec 3) (ftz : Bool) (a b : W32) : W32 × BitVec 8 :=
  mapLanes fmt fun i =>
    let w := if i = 0 then a else b
    roundLane (Fmt.ofTag fmt) ftz ((laneNum fmt ftz w 0).add .rne (laneNum fmt ftz w 1))

/-! ## Conversion (R162, R163) -/

/-- CVT: lanes from k of the source rounded to the target format (R162). -/
def cvtValue (fmt : BitVec 3) (f : Comp) (ftz : Bool) (a : W32) : W32 × BitVec 8 :=
  let src := Fmt.ofTag fmt
  let dst := Fmt.ofTag (f.scc.setWidth 3)
  let k := f.imm12.toNat / 2 % 8
  buildLanes dst (fun i =>
    if k + i < src.lanes then
      roundTo (src.value ftz (lane src a (k + i))) dst (Rm.ofCode (f.scc.toNat / 8)) (f.imm12.getLsbD 0) ftz
    else (0, 0#8)) dst.lanes

/-- CVT's work: the token carries the target tag (R162). -/
def cvtWork (fmt : BitVec 3) (f : Comp) (ftz : Bool) : Work where
  beat read tag _ :=
    let (v, fl) := cvtValue fmt f ftz (read f.sa.toNat)
    { value := some v, flags := fl, sent := [⟨f.dst.toNat, v, f.scc.setWidth 3, tag f.sa.toNat⟩] }

/-- PACK: N lanes of each operand side by side (R163). -/
def packValue (fmt : BitVec 3) (f : Comp) (a b : W32) : W32 × BitVec 8 :=
  let n := 2 ^ f.scc.toNat
  mapLanes fmt fun i =>
    (if i < n then lane (Fmt.ofTag fmt) a i else if i < 2 * n then lane (Fmt.ofTag fmt) b (i - n) else 0, 0#8)

/-- UNPK: lanes moved down from lane J (R163). -/
def unpkValue (fmt : BitVec 3) (f : Comp) (a : W32) : W32 × BitVec 8 :=
  let j := f.scc.toNat
  mapLanes fmt fun i =>
    (if j + i < (Fmt.ofTag fmt).lanes then lane (Fmt.ofTag fmt) a (j + i) else 0, 0#8)

/-! ## Column-unit requests (R149, R161) -/

/-- A request of each beat's operand to a function of the column unit. -/
def columnWork (func : BitVec 3) (f : Comp) : Work where
  beat read tag _ := { column := some (func, read f.sa.toNat, tag f.sa.toNat) }

/-- A slot of a column-unit request. -/
def fireColumn (func : BitVec 3) (t : Trig) (f : Comp) (s : State) : Host.Outcome State Fault Refusal :=
  fireCompute .column t f (fun _ => columnWork func f) s

/-! ## Dataflow operators (R178 to R186) -/

/-- A token of the data that an operator passes. -/
def passed (t : Trig) (d : BitVec 5) (v : W32) (tag : BitVec 2) : Sent := ⟨d.toNat, v, t.fmt, tag⟩

/-- STEER: each beat's data to one of two destinations (R180). -/
def steerWork (t : Trig) (f : Comp) : Work where
  beat read tag _ :=
    let v := read f.sa.toNat
    { value := some v
      sent := [passed t (if read f.sb.toNat != 0#32 then f.dst else f.scc) v (tag f.sa.toNat)] }

/-- MERGE: the input that the control selects (R181). -/
def mergeWork (t : Trig) (f : Comp) : Work where
  beat read tag _ :=
    let sel := if read f.scc.toNat != 0#32 then f.sa.toNat else f.sb.toNat
    { value := some (read sel), sent := [passed t f.dst (read sel) (tag sel)] }

/-- JOIN: the data of the last beat (R182). -/
def joinWork (t : Trig) (f : Comp) : Work where
  beat read tag last :=
    let v := read f.sa.toNat
    { value := some v, sent := if last then [passed t f.dst v (tag f.sa.toNat)] else [] }

/-- DUP: the data to two destinations (R183). -/
def dupWork (t : Trig) (f : Comp) : Work where
  beat read tag _ :=
    let v := read f.sa.toNat
    { value := some v, sent := [passed t f.dst v (tag f.sa.toNat), passed t f.scc v (tag f.sa.toNat)] }

/-- GATE: the data in the beats whose condition holds (R183). -/
def gateWork (t : Trig) (f : Comp) : Work where
  beat read tag _ :=
    let v := read f.sa.toNat
    { value := some v
      sent := if read f.sb.toNat != 0#32 then [passed t f.dst v (tag f.sa.toNat)] else [] }

/-- TAG: the data under a new user tag (R185). -/
def tagWork (t : Trig) (f : Comp) : Work where
  beat read _ _ :=
    let v := read f.sa.toNat
    { value := some v, sent := [passed t f.dst v ((read f.sb.toNat).setWidth 2)] }

/-- CARRY: the initial value while pk is 0; then the back edge, until a token with a user tag ends the
loop (R186). -/
def carryWork (t : Trig) (f : Comp) (e : TE) : Work :=
  let k := f.scc.toNat
  if e.p.getLsbD k then
    { beat := fun read tag _ =>
        let v := read f.sb.toNat
        { value := some v, sent := if tag f.sb.toNat = 0#2 then [passed t f.dst v 0#2] else [] }
      preds := fun _ tag => if tag f.sb.toNat = 0#2 then [] else [(k, false)] }
  else
    { beat := fun read tag _ =>
        let v := read f.sa.toNat
        { value := some v, sent := [passed t f.dst v (tag f.sa.toNat)] }
      preds := fun _ _ => [(k, true)] }

/-- A form that does nothing of its own in its beats. -/
def idleWork : Work where
  beat _ _ _ := {}

/-! ## Predicates and index registers (R164) -/

/-- PSET: one predicate, or all sixteen (R164). -/
def psetWork (f : Comp) : Work where
  beat _ _ _ := {}
  preds read _ :=
    let a := read f.sa.toNat
    if f.scc = 0#5 then [(f.dst.toNat, a != 0#32)]
    else (List.range 16).map fun j => (j, a.getLsbD j)

/-- PLOG: the predicates as they stood when the firing began (R164). -/
def plogWork (f : Comp) (e : TE) : Work where
  beat _ _ _ := {}
  preds _ _ := [(f.dst.toNat, predOp f.scc.toNat (e.p.getLsbD f.sa.toNat) (e.p.getLsbD f.sb.toNat))]

/-- XSET and XADD: the low 16 bits of the result (R164). -/
def indexWork (f : Comp) (op : (Nat → W32) → W32) : Work where
  beat read _ _ := { value := some (op read) }
  xs read := [(f.dst.toNat - 8, (op read).setWidth 16)]

/-- XCMP: a predicate from the condition of R156 (R164). -/
def xcmpWork (f : Comp) : Work where
  beat _ _ _ := {}
  preds read _ :=
    let a := (read f.sa.toNat).toNat
    let b := (read f.sb.toNat).toNat
    [(f.dst.toNat, condition f.scc.toNat 32 a b b)]

/-- LAPSET (R165). -/
def lapsetWork (f : Comp) : Work where
  beat _ _ _ := {}
  lap read := some ((read f.sa.toNat).setWidth 8)

/-- DONE: a control token (R165). -/
def doneWork (f : Comp) : Work where
  beat _ _ _ := { control := some (f.imm12.setWidth 4) }

/-! ## Regions (R165, R224, R225, R233) -/

/-- The state with an instance of an image open: every TE of the domain takes its snapshot, and the home
records the chain contexts (R201, R225). -/
def State.openInstance (s : State) (m : Image) : State :=
  let snaps := m.tes.map fun p => (p, (s.teAt p).snapshot)
  (s.modHomeOf m fun h =>
    { h with ctxs := h.ctxs.map fun k =>
        if k.img == m.id then { k with savedLap := k.lap, savedPos := k.pos, closed := false } else k }).modImage
    m.id fun x => { x with state := .opened, snapshots := snaps, heldTokens := [], columnOut := 0, blockedSince := none }

/-- A slot of a region or control form: `run` is what follows the state checks of R143 and R144. -/
def fireSpecial (k : Form) (t : Trig) (f : Comp) (run : TeId → Shape → State → State) (s : State) :
    Host.Outcome State Fault Refusal :=
  let p := s.focusTe
  let e := s.teAt p
  match formShape k t f e (s.source p e f [] 0) with
  | none => .next s
  | some sh =>
    if s.teRuns p && !e.heldAt s.focus.teSlot && s.slotReady p t sh then
      match s.slotStop p s.focus.teSlot f (beatsOf t) sh with
      | some s1 => .next s1
      | none => .next (run p sh s)
    else .next s

/-- The firing of a ROPEN: the beat holds its TE while an earlier instance has not committed, and else
opens one before its own dequeues and updates (R165); in an image whose domain has ended it opens none
(R168). -/
def runRopen (t : Trig) (f : Comp) (slot : Nat) (p : TeId) (sh : Shape) (s : State) : State :=
  match s.imageOf p with
  | none => s.fireAll p t f sh idleWork
  | some m =>
    if m.head.isNone then s.fireAll p t f sh idleWork
    else if m.active then s.modTeAt p fun e => { e with holding := some slot }
    else
      ((s.modTeAt p fun e => { e with holding := none }).openInstance m).fireAll p t f sh idleWork

/-- The firing of an RCLOSE (R165). -/
def runRclose (t : Trig) (f : Comp) (p : TeId) (sh : Shape) (s : State) : State :=
  let s1 := s.fireAll p t f sh idleWork
  match s1.instanceOf p with
  | none => s1
  | some img => s1.modImage img fun m => { m with state := .closed }

/-- The firing of an RABORT: the instance is discarded once the firing has ended, and re-enters in ordered
mode (R165, R231); an instance that is closed and whose commit has not begun is too (DESIGN CHOICE, log entry 80). -/
def runRabort (t : Trig) (f : Comp) (p : TeId) (sh : Shape) (s : State) : State :=
  let s1 := s.fireAll p t f sh idleWork
  match s1.instanceOf p with
  | none => s1
  | some img => s1.discardInstance img { cause := none, ordered := true }

/-! ## The instructions -/

/-- MOV (R155): a copied, in any format. -/
def execTeMov (t : Trig) (f : Comp) (s : State) : Host.Outcome State Fault Refusal :=
  fireInt1 t f (fun a => a) s

/-- ADD (R155): a + b. -/
def execTeAdd (t : Trig) (f : Comp) (s : State) : Host.Outcome State Fault Refusal :=
  fireInt2 t f (fun a b => a + b) s

/-- SUB (R155): a − b. -/
def execTeSub (t : Trig) (f : Comp) (s : State) : Host.Outcome State Fault Refusal :=
  fireInt2 t f (fun a b => a - b) s

/-- MUL (R155): the low 32 bits of a × b. -/
def execTeMul (t : Trig) (f : Comp) (s : State) : Host.Outcome State Fault Refusal :=
  fireInt2 t f (fun a b => a * b) s

/-- MULH (R155): the high 32 bits of the signed product. -/
def execTeMulh (t : Trig) (f : Comp) (s : State) : Host.Outcome State Fault Refusal :=
  fireInt2 t f (fun a b => BitVec.ofInt 32 (a.toInt * b.toInt / 2 ^ 32)) s

/-- MULHU (R155): the high 32 bits of the unsigned product. -/
def execTeMulhu (t : Trig) (f : Comp) (s : State) : Host.Outcome State Fault Refusal :=
  fireInt2 t f (fun a b => w32 (a.toNat * b.toNat / 2 ^ 32)) s

/-- AND (R155): a AND b. -/
def execTeAnd (t : Trig) (f : Comp) (s : State) : Host.Outcome State Fault Refusal :=
  fireInt2 t f (fun a b => a &&& b) s

/-- OR (R155): a OR b. -/
def execTeOr (t : Trig) (f : Comp) (s : State) : Host.Outcome State Fault Refusal :=
  fireInt2 t f (fun a b => a ||| b) s

/-- XOR (R155): a XOR b. -/
def execTeXor (t : Trig) (f : Comp) (s : State) : Host.Outcome State Fault Refusal :=
  fireInt2 t f (fun a b => a ^^^ b) s

/-- ANDN (R155): a AND NOT b. -/
def execTeAndn (t : Trig) (f : Comp) (s : State) : Host.Outcome State Fault Refusal :=
  fireInt2 t f (fun a b => a &&& ~~~b) s

/-- SHL (R155): a shifted left by b[4:0]. -/
def execTeShl (t : Trig) (f : Comp) (s : State) : Host.Outcome State Fault Refusal :=
  fireInt2 t f (fun a b => a <<< (b.toNat % 32)) s

/-- SHR (R155): a shifted right by b[4:0], zeros in. -/
def execTeShr (t : Trig) (f : Comp) (s : State) : Host.Outcome State Fault Refusal :=
  fireInt2 t f (fun a b => a >>> (b.toNat % 32)) s

/-- SRA (R155): a shifted right by b[4:0], copies of bit 31 in. -/
def execTeSra (t : Trig) (f : Comp) (s : State) : Host.Outcome State Fault Refusal :=
  fireInt2 t f (fun a b => a.sshiftRight (b.toNat % 32)) s

/-- MIN (R155): the signed minimum. -/
def execTeMin (t : Trig) (f : Comp) (s : State) : Host.Outcome State Fault Refusal :=
  fireInt2 t f (fun a b => if a.toInt ≤ b.toInt then a else b) s

/-- MAX (R155): the signed maximum. -/
def execTeMax (t : Trig) (f : Comp) (s : State) : Host.Outcome State Fault Refusal :=
  fireInt2 t f (fun a b => if a.toInt ≤ b.toInt then b else a) s

/-- MINU (R155): the unsigned minimum. -/
def execTeMinu (t : Trig) (f : Comp) (s : State) : Host.Outcome State Fault Refusal :=
  fireInt2 t f (fun a b => if a.toNat ≤ b.toNat then a else b) s

/-- MAXU (R155): the unsigned maximum. -/
def execTeMaxu (t : Trig) (f : Comp) (s : State) : Host.Outcome State Fault Refusal :=
  fireInt2 t f (fun a b => if a.toNat ≤ b.toNat then b else a) s

/-- CMP (R156): 1 where the condition of SCC holds, else 0. -/
def execTeCmp (t : Trig) (f : Comp) (s : State) : Host.Outcome State Fault Refusal :=
  fireValue .cond t f (fun a b _ => (w32 (b2n (condition f.scc.toNat 32 a.toNat b.toNat b.toNat)), 0#8)) s

/-- SEL (R155): a where c is not 0, else b. -/
def execSel (t : Trig) (f : Comp) (s : State) : Host.Outcome State Fault Refusal :=
  fireValue .src3 t f (fun a b c => (if c != 0#32 then a else b, 0#8)) s

/-- CLZ (R155): the leading zeros of a. -/
def execTeClz (t : Trig) (f : Comp) (s : State) : Host.Outcome State Fault Refusal :=
  fireInt1 t f (fun a => w32 (if a = 0#32 then 32 else 31 - Nat.log2 a.toNat)) s

/-- POPC (R155): the one bits of a. -/
def execTePopc (t : Trig) (f : Comp) (s : State) : Host.Outcome State Fault Refusal :=
  fireInt1 t f (fun a => w32 ((List.range 32).countP fun i => a.getLsbD i)) s

/-- DOT4 (R157): c plus the dot product of the byte lanes. -/
def execDot4 (t : Trig) (f : Comp) (s : State) : Host.Outcome State Fault Refusal :=
  fireValue .src3 t f (fun a b c => (dot4Value a b c, 0#8)) s

/-- BFX (R157): a field of a. -/
def execTeBfx (t : Trig) (f : Comp) (s : State) : Host.Outcome State Fault Refusal :=
  fireInt2 t f bfxValue s

/-- HASH (R157): the top bits of a multiplicative hash. -/
def execHash (t : Trig) (f : Comp) (s : State) : Host.Outcome State Fault Refusal :=
  fireInt2 t f hashValue s

/-- FADD (R158): round(a + b). -/
def execFadd (t : Trig) (f : Comp) (s : State) : Host.Outcome State Fault Refusal :=
  fireFp2 t f (fun x y => x.add .rne y) s

/-- FSUB (R158): round(a − b). -/
def execFsub (t : Trig) (f : Comp) (s : State) : Host.Outcome State Fault Refusal :=
  fireFp2 t f (fun x y => x.add .rne y.neg) s

/-- FMUL (R158): round(a × b). -/
def execFmul (t : Trig) (f : Comp) (s : State) : Host.Outcome State Fault Refusal :=
  fireFp2 t f (fun x y => x.mul y) s

/-- FMA (R158): round(a × b + c). -/
def execFma (t : Trig) (f : Comp) (s : State) : Host.Outcome State Fault Refusal :=
  fireFp3 t f (fun x y z => x.fma .rne y z) s

/-- FMS (R158): round(a × b − c). -/
def execFms (t : Trig) (f : Comp) (s : State) : Host.Outcome State Fault Refusal :=
  fireFp3 t f (fun x y z => x.fma .rne y z.neg) s

/-- FNMA (R158): round(c − a × b). -/
def execFnma (t : Trig) (f : Comp) (s : State) : Host.Outcome State Fault Refusal :=
  fireFp3 t f (fun x y z => x.neg.fma .rne y z) s

/-- FMIN (R128): the lesser of a and b. -/
def execFmin (t : Trig) (f : Comp) (s : State) : Host.Outcome State Fault Refusal :=
  fireLanes2 .src2 t f (fun g a b => g.minmax false s.teFtz a b) s

/-- FMAX (R128): the greater of a and b. -/
def execFmax (t : Trig) (f : Comp) (s : State) : Host.Outcome State Fault Refusal :=
  fireLanes2 .src2 t f (fun g a b => g.minmax true s.teFtz a b) s

/-- FABS (R158): a with its sign bit cleared. -/
def execFabs (t : Trig) (f : Comp) (s : State) : Host.Outcome State Fault Refusal :=
  fireLanes1 .src1 t f (signLane s.teFtz fun _ => false) s

/-- FNEG (R158): a with its sign bit inverted. -/
def execFneg (t : Trig) (f : Comp) (s : State) : Host.Outcome State Fault Refusal :=
  fireLanes1 .src1 t f (signLane s.teFtz fun x => !x) s

/-- FCMP (R159): all ones where the condition of SCC holds. -/
def execFcmp (t : Trig) (f : Comp) (s : State) : Host.Outcome State Fault Refusal :=
  fireLanes2 .cond t f (fcmpLane f.scc.toNat s.teFtz) s

/-- FRND (R160): a rounded to an integral value in the mode of SCC. -/
def execFrnd (t : Trig) (f : Comp) (s : State) : Host.Outcome State Fault Refusal :=
  fireLanes1 .round t f (frndLane f.scc.toNat s.teFtz) s

/-- FSCALE (R160): a × 2^n. -/
def execFscale (t : Trig) (f : Comp) (s : State) : Host.Outcome State Fault Refusal :=
  fireLanes2 .src2 t f (fscaleLane s.teFtz) s

/-- FEXPO (R160): floor(log2 |a|). -/
def execFexpo (t : Trig) (f : Comp) (s : State) : Host.Outcome State Fault Refusal :=
  fireLanes1 .src1 t f (fexpoLane s.teFtz) s

/-- FCLASS (R160): 1.0 where the class of a is in the mask b. -/
def execFclass (t : Trig) (f : Comp) (s : State) : Host.Outcome State Fault Refusal :=
  fireValue .src2 t f (fun a b _ => fclassValue t.fmt a b) s

/-- FHADD (R158): the lane sums of a and of b. -/
def execFhadd (t : Trig) (f : Comp) (s : State) : Host.Outcome State Fault Refusal :=
  fireValue .src2 t f (fun a b _ => fhaddValue t.fmt s.teFtz a b) s

/-- XEXPF (R161): a request to the column unit in each beat. -/
def execXexpf (t : Trig) (f : Comp) (s : State) : Host.Outcome State Fault Refusal :=
  fireColumn 0#3 t f s

/-- XLOG2 (R161): a request to the column unit in each beat. -/
def execXlog2 (t : Trig) (f : Comp) (s : State) : Host.Outcome State Fault Refusal :=
  fireColumn 1#3 t f s

/-- XRCP (R161): a request to the column unit in each beat. -/
def execXrcp (t : Trig) (f : Comp) (s : State) : Host.Outcome State Fault Refusal :=
  fireColumn 2#3 t f s

/-- XRSQ (R161): a request to the column unit in each beat. -/
def execXrsq (t : Trig) (f : Comp) (s : State) : Host.Outcome State Fault Refusal :=
  fireColumn 3#3 t f s

/-- XSQRT (R161): a request to the column unit in each beat. -/
def execXsqrt (t : Trig) (f : Comp) (s : State) : Host.Outcome State Fault Refusal :=
  fireColumn 4#3 t f s

/-- XSIN (R161): a request to the column unit in each beat. -/
def execXsin (t : Trig) (f : Comp) (s : State) : Host.Outcome State Fault Refusal :=
  fireColumn 5#3 t f s

/-- XCOS (R161): a request to the column unit in each beat. -/
def execXcos (t : Trig) (f : Comp) (s : State) : Host.Outcome State Fault Refusal :=
  fireColumn 6#3 t f s

/-- XTANH (R161): a request to the column unit in each beat. -/
def execXtanh (t : Trig) (f : Comp) (s : State) : Host.Outcome State Fault Refusal :=
  fireColumn 7#3 t f s

/-- STEER (R180): the data to one of two destinations by a condition. -/
def execSteer (t : Trig) (f : Comp) (s : State) : Host.Outcome State Fault Refusal :=
  fireCompute .steer t f (fun _ => steerWork t f) s

/-- MERGE (R181): one of two inputs, by a control. -/
def execMerge (t : Trig) (f : Comp) (s : State) : Host.Outcome State Fault Refusal :=
  fireCompute .merge t f (fun _ => mergeWork t f) s

/-- JOIN (R182): one token once every named input has come. -/
def execJoin (t : Trig) (f : Comp) (s : State) : Host.Outcome State Fault Refusal :=
  fireCompute .join t f (fun _ => joinWork t f) s

/-- DUP (R183): the data to two destinations. -/
def execDup (t : Trig) (f : Comp) (s : State) : Host.Outcome State Fault Refusal :=
  fireCompute .dup t f (fun _ => dupWork t f) s

/-- GATE (R183): the data only where the condition holds. -/
def execGate (t : Trig) (f : Comp) (s : State) : Host.Outcome State Fault Refusal :=
  fireCompute .gate t f (fun _ => gateWork t f) s

/-- DROP (R184): tokens dequeued and dropped. -/
def execDrop (t : Trig) (f : Comp) (s : State) : Host.Outcome State Fault Refusal :=
  fireCompute .drop t f (fun _ => idleWork) s

/-- TAG (R185): the data under a new user tag. -/
def execTag (t : Trig) (f : Comp) (s : State) : Host.Outcome State Fault Refusal :=
  fireCompute .tag t f (fun _ => tagWork t f) s

/-- CARRY (R186): a loop's initial value, or its back edge. -/
def execCarry (t : Trig) (f : Comp) (s : State) : Host.Outcome State Fault Refusal :=
  fireCompute .carry t f (fun e => carryWork t f e) s

/-- ROPEN (R165): an instance of the domain opened. -/
def execRopen (t : Trig) (f : Comp) (s : State) : Host.Outcome State Fault Refusal :=
  fireSpecial .region t f (runRopen t f s.focus.teSlot) s

/-- RCLOSE (R165): the open instance closed. -/
def execRclose (t : Trig) (f : Comp) (s : State) : Host.Outcome State Fault Refusal :=
  fireSpecial .region t f (runRclose t f) s

/-- RABORT (R165): the open instance discarded, to re-enter in ordered mode. -/
def execRabort (t : Trig) (f : Comp) (s : State) : Host.Outcome State Fault Refusal :=
  fireSpecial .region t f (runRabort t f) s

/-- DONE (R165): a control token pushed. -/
def execDone (t : Trig) (f : Comp) (s : State) : Host.Outcome State Fault Refusal :=
  fireCompute .doneTok t f (fun _ => doneWork f) s

/-- TRAP (R165): FABRICTRAP, and the slot does not fire. -/
def execTeTrap (t : Trig) (f : Comp) (s : State) : Host.Outcome State Fault Refusal :=
  fireSpecial .trapTok t f (fun p _ s1 => s1.fabricTrap p s.focus.teSlot 0x15 f.imm12.toNat) s

/-- NOP (R165): nothing but its dequeues and updates. -/
def execTeNop (t : Trig) (f : Comp) (s : State) : Host.Outcome State Fault Refusal :=
  fireCompute .nothing t f (fun _ => idleWork) s

/-- LAPSET (R165): lap := a[7:0]. -/
def execLapset (t : Trig) (f : Comp) (s : State) : Host.Outcome State Fault Refusal :=
  fireCompute .lapset t f (fun _ => lapsetWork f) s

/-- CVT (R162): lanes converted with one rounding each. -/
def execCvt (t : Trig) (f : Comp) (s : State) : Host.Outcome State Fault Refusal :=
  fireCompute .cvt t f (fun _ => cvtWork t.fmt f s.teFtz) s

/-- PACK (R163): lanes of two operands in one token. -/
def execPack (t : Trig) (f : Comp) (s : State) : Host.Outcome State Fault Refusal :=
  fireValue .pack t f (fun a b _ => packValue t.fmt f a b) s

/-- UNPK (R163): lanes moved down. -/
def execUnpk (t : Trig) (f : Comp) (s : State) : Host.Outcome State Fault Refusal :=
  fireValue .unpk t f (fun a _ _ => unpkValue t.fmt f a) s

/-- PSET (R164): one predicate, or all of them. -/
def execPset (t : Trig) (f : Comp) (s : State) : Host.Outcome State Fault Refusal :=
  fireCompute .pset t f (fun _ => psetWork f) s

/-- PLOG (R164): a logic operation on two predicates. -/
def execTePlog (t : Trig) (f : Comp) (s : State) : Host.Outcome State Fault Refusal :=
  fireCompute .plog t f (fun e => plogWork f e) s

/-- XSET (R164): an index register set. -/
def execXset (t : Trig) (f : Comp) (s : State) : Host.Outcome State Fault Refusal :=
  fireCompute .xset t f (fun _ => indexWork f fun read => read f.sa.toNat) s

/-- XADD (R164): an index register set to a + b. -/
def execXadd (t : Trig) (f : Comp) (s : State) : Host.Outcome State Fault Refusal :=
  fireCompute .xadd t f (fun _ => indexWork f fun read => read f.sa.toNat + read f.sb.toNat) s

/-- XCMP (R164): a predicate from a comparison. -/
def execXcmp (t : Trig) (f : Comp) (s : State) : Host.Outcome State Fault Refusal :=
  fireCompute .xcmp t f (fun _ => xcmpWork f) s

end Sys2Proof.Machine
end

