-- ==== Sys2Proof/Machine/ImageCheck.lean ====
section
/-! DEFINITION. Fabric images: their bytes (R33, R34), what their slots read and write by their text, and
the checks of FLOAD (R86, R148, R150, R176, R187, R224). -/

namespace Sys2Proof.Machine

/-! ## The bytes of an image (R33, R34) -/

/-- The `n`-byte value at offset `a` of some bytes (R6, R33). -/
def valueAt (bs : List Byte) (a n : Nat) : Nat := leNat ((bs.drop a).take n)

/-- The header of an image (R33). `reserved` gathers the bytes that must be zero. -/
structure ImageHeader where
  version : Nat
  level : Nat
  home : Nat
  nte : Nat
  col0 : Nat
  rowTop : Nat
  width : Nat
  height : Nat
  bytes : Nat
  reserved : Nat
  deriving DecidableEq, Repr

/-- The header in the first 64 bytes of an image. -/
def headerOf (bs : List Byte) : ImageHeader where
  version := valueAt bs 0 2
  level := valueAt bs 2 1
  home := valueAt bs 3 1
  nte := valueAt bs 4 2
  col0 := valueAt bs 8 1
  rowTop := valueAt bs 9 1
  width := valueAt bs 10 1
  height := valueAt bs 11 1
  bytes := valueAt bs 12 4
  reserved := valueAt bs 6 2 + valueAt bs 16 48

/-- A TE record of an image (R34). `reserved` gathers the fields of the record header that must be zero. -/
structure TeRecord where
  col : Nat
  row : Nat
  flags : Nat
  liveBase : Nat
  liveLim : Nat
  scrBase : Nat
  scrLim : Nat
  router : BitVec 64
  reserved : Nat
  slots : List (BitVec 128)
  words : List W32
  deriving DecidableEq, Repr

/-- Slots `i` to `i + n − 1` of a record's slot bytes. -/
def slotsAt (bs : List Byte) (i : Nat) : Nat → List (BitVec 128)
  | 0 => []
  | n + 1 => BitVec.ofNat 128 (valueAt bs (16 * i) 16) :: slotsAt bs (i + 1) n

/-- Words `i` to `i + n − 1` of a record's W bytes. -/
def wordsAt (bs : List Byte) (i : Nat) : Nat → List W32
  | 0 => []
  | n + 1 => BitVec.ofNat 32 (valueAt bs (4 * i) 4) :: wordsAt bs (i + 1) n

/-- The record at the front of some bytes, with its size; `none` where NSLOT or NW is out of range or the
bytes end before it does (R34). FLOAD then reports code 1 (R86 names no code for the two ranges; DESIGN CHOICE, log
entry 73). -/
def recordAt (bs : List Byte) : Option (TeRecord × Nat) :=
  let nslot := valueAt bs 2 1
  let nw := valueAt bs 4 2
  let size := 32 + 16 * nslot + (4 * nw + 15) / 16 * 16
  if bs.length < 32 || 32 < nslot || 8192 < nw || bs.length < size then none
  else
    some
      ({ col := valueAt bs 0 1, row := valueAt bs 1 1, flags := valueAt bs 3 1,
         liveBase := valueAt bs 8 2, liveLim := valueAt bs 10 2, scrBase := valueAt bs 12 2,
         scrLim := valueAt bs 14 2, router := BitVec.ofNat 64 (valueAt bs 16 8),
         reserved := valueAt bs 6 2 + valueAt bs 24 8,
         slots := slotsAt (bs.drop 32) 0 nslot, words := wordsAt (bs.drop (32 + 16 * nslot)) 0 nw }, size)

/-- The `n` records that some bytes hold, which they must fill exactly (R33). -/
def recordsOf : Nat → List Byte → Option (List TeRecord)
  | 0, bs => if bs.isEmpty then some [] else none
  | n + 1, bs =>
    match recordAt bs with
    | none => none
    | some (r, size) => (recordsOf n (bs.drop size)).map fun rs => r :: rs

/-! ## What a slot reads and writes by its text -/

/-- What the checks of R150, R176 and R187 take from a valid slot: the neighbour inputs it reads in any way
and the neighbour outputs it writes in any way; the inputs it reads as data with the tag expected; the
outputs it pushes on with the tag pushed; the channel whose user tag it tests; and, for a CARRY, its
initial input. -/
structure SlotText where
  num : Nat
  instr : Instr
  reads : List Nat := []
  writes : List Nat := []
  expects : List (Nat × BitVec 3) := []
  sends : List Nat := []
  tag : BitVec 3 := 0#3
  tagch : Nat := 7
  carry : Option Nat := none
  deriving DecidableEq, Repr

/-- The neighbour channels of a list. -/
def links (l : List Nat) : List Nat := (l.filter fun c => decide (c < 4)).eraseDups

/-- The shape of a compute form whatever its TE holds: MERGE and CARRY read both inputs as data (R179). -/
def textShape (k : Form) (t : Trig) (f : Comp) : Shape :=
  let a := f.sa.toNat
  let b := f.sb.toNat
  match k with
  | .merge => { data := [(a, t.fmt), (b, t.fmt)], names := [a, b, f.scc.toNat], dests := [f.dst.toNat] }
  | .carry => { data := [(a, t.fmt), (b, t.fmt)], names := [a, b], dests := [f.dst.toNat], carry := true }
  | _ => (formShape k t f {} fun _ => 0#32).getD {}

/-- What the checks take from an element instruction in slot `n`. -/
def slotText (n : Nat) (i : Instr) : SlotText :=
  let build (t : Trig) (sh : Shape) (tag : BitVec 3) (init : Nat) : SlotText :=
    { num := n, instr := i
      reads := links (sh.names ++ sh.deq ++ deqList t.inreq ++ [t.tagch.toNat])
      writes := links (sh.dests ++ [0, 1, 2, 3].filter fun d => t.outreq.getLsbD d)
      expects := sh.data.filter fun x => decide (x.1 < 4)
      sends := links sh.dests
      tag := tag
      tagch := t.tagch.toNat
      carry := if sh.carry then some init else none }
  match i.compute?, i.memory? with
  | some (t, f, k, _), _ =>
    build t (textShape k t f) (if k = .cvt then f.scc.setWidth 3 else t.fmt) f.sa.toNat
  | none, some (t, m, _) => build t (memShape t m) t.fmt 7
  | none, none => { num := n, instr := i }

/-- The valid slots of a record that decode, by their text. A slot that fails the slot form is none of them, for the rule
of R224 too (DESIGN CHOICE, log entry 89). -/
def TeRecord.texts (r : TeRecord) : List SlotText :=
  (List.range r.slots.length).filterMap fun n =>
    match decodeSlot (r.slots.getD n 0#128) with
    | .ok i => some (slotText n i)
    | .error _ => none

/-- Whether an instruction is ROPEN. -/
def isRopen (i : Instr) : Bool := match i with | .ropen .. => true | _ => false

/-- Whether an instruction is RCLOSE. -/
def isRclose (i : Instr) : Bool := match i with | .rclose .. => true | _ => false

/-- The lowest slot of a record whose instruction passes a test. -/
def TeRecord.lowest (r : TeRecord) (f : Instr → Bool) : Option Nat :=
  (r.texts.find? fun x => f x.instr).map (·.num)

/-- The route of tokens that arrive at a record's TE from a direction (R174). -/
def TeRecord.route (r : TeRecord) (d : Nat) : Nat := r.router.toNat / 2 ^ (3 * d) % 8

/-- Whether a record's router word keeps a slot of an input for CARRY (R174). -/
def TeRecord.keeps (r : TeRecord) (d : Nat) : Bool := r.router.getLsbD (12 + d)

/-! ## The verdict -/

/-- A rejection: the code of R86, and what FSTAT reports of the offender (R89). -/
structure Reject where
  code : Nat
  col : Nat := 0xFF
  row : Nat := 0xFF
  slot : Nat := 0xFF
  deriving DecidableEq, Repr

/-- What the checks know: the header, the records at their places relative to the group's rectangle, the
level, width and height of that rectangle, the words of W that the tile of a place gives it, and whether a
place holds a converter. -/
structure ImageAt where
  header : ImageHeader
  records : List TeRecord
  level : Nat
  width : Nat
  height : Nat
  wsize : Nat → Nat → Nat
  converter : Nat → Nat → Bool

/-- The first record that `f` finds at fault, with the slot it names (R86). -/
def firstBad (code : Nat) (f : TeRecord → Option Nat) : List TeRecord → Option Reject
  | [] => none
  | r :: rs =>
    match f r with
    | some slot => some { code := code, col := r.col, row := r.row, slot := slot }
    | none => firstBad code f rs

/-- The first record that names a TE already named. -/
def firstTwice (seen : List (Nat × Nat)) : List TeRecord → Option Reject
  | [] => none
  | r :: rs =>
    if seen.contains (r.col, r.row) then some { code := 3, col := r.col, row := r.row }
    else firstTwice ((r.col, r.row) :: seen) rs

/-- Code 2 (R86): LEVEL and HOME. -/
def ImageAt.badLevel (m : ImageAt) : Option Reject :=
  if m.header.level ≠ m.level || m.header.home < m.header.level then some { code := 2 } else none

/-- Code 3 (R86): the moved rectangle, and a TE named twice. -/
def ImageAt.badPlace (m : ImageAt) : Option Reject :=
  if m.width < m.header.col0 + m.header.width || m.height < m.header.rowTop + m.header.height then
    some { code := 3 }
  else firstTwice [] m.records

/-- Code 4 (R148): an unallocated opcode. -/
def badOpcode (r : TeRecord) : Option Nat :=
  (List.range r.slots.length).find? fun n =>
    match decodeSlot (r.slots.getD n 0#128) with
    | .error .opcode => true
    | _ => false

/-- Whether the fields of a record header that must be zero are not (R34). -/
def TeRecord.badHeader (r : TeRecord) : Bool :=
  r.reserved != 0 || r.flags / 2 != 0 || (r.flags % 2 == 0 && r.router != 0#64)

/-- The record that R224 names, if the image's ROPEN and RCLOSE slots are not as it requires. A slot of theirs that fails
the slot form itself counts for none (DESIGN CHOICE, log entry 89). -/
def regionOffender (rs : List TeRecord) : Option (TeRecord × Nat) :=
  let both (i : Instr) : Bool := isRopen i || isRclose i
  let opens := rs.filter fun r => (r.lowest isRopen).isSome
  let closes := rs.filter fun r => (r.lowest isRclose).isSome
  let name (r : TeRecord) : TeRecord × Nat := (r, (r.lowest both).getD 0xFF)
  match opens, closes with
  | _ :: r :: _, _ => some (name r)
  | _, _ :: r :: _ => some (name r)
  | [r], [] => some (name r)
  | [], [r] => some (name r)
  | _, _ => none

/-- Code 5 (R34, R148, R224): a fault of the record's header goes before a slot's, and REJSLOT is then 0xFF
(DESIGN CHOICE, log entry 73). -/
def badForm (off : Option (TeRecord × Nat)) (r : TeRecord) : Option Nat :=
  if r.badHeader then some 0xFF
  else
    let bad := (List.range r.slots.length).find? fun n =>
      match decodeSlot (r.slots.getD n 0#128) with
      | .error .slotForm => true
      | _ => false
    let lone := match off with
      | some (q, n) => if q.col = r.col && q.row = r.row then some n else none
      | none => none
    match bad, lone with
    | some x, some y => some (Nat.min x y)
    | some x, none => some x
    | none, y => y

/-- Whether two windows have a word in common. -/
def overlap (b1 l1 b2 l2 : Nat) : Bool :=
  decide (Nat.max b1 b2 < Nat.min l1 l2)

/-- Code 6 (R86, R347): the live-in and scratch windows, held to the words of W of the TE's own tile. -/
def badWindow (wsize : Nat → Nat → Nat) (r : TeRecord) : Option Nat :=
  let top := Nat.min 8192 (wsize r.col r.row)
  if r.liveLim < r.liveBase || r.scrLim < r.scrBase || top < r.liveLim || top < r.scrLim ||
      overlap r.liveBase r.liveLim r.scrBase r.scrLim then some 0xFF
  else none

/-- Code 7 (R150): CVT on a TE that is not a converter. -/
def ImageAt.badCvt (m : ImageAt) (r : TeRecord) : Option Nat :=
  if m.converter r.col r.row then none
  else r.lowest fun i => match i with | .cvt .. => true | _ => false

/-! ## The channel graph -/

/-- The place beside another in a direction, in the group's rectangle. -/
def ImageAt.beside (m : ImageAt) (c r d : Nat) : Option (Nat × Nat) :=
  match d with
  | 0 => if 0 < r then some (c, r - 1) else none
  | 1 => if c + 1 < m.width then some (c + 1, r) else none
  | 2 => if r + 1 < m.height then some (c, r + 1) else none
  | _ => if 0 < c then some (c - 1, r) else none

/-- The record at a place. -/
def ImageAt.at_ (m : ImageAt) (c r : Nat) : Option TeRecord :=
  m.records.find? fun x => x.col == c && x.row == r

/-- The record and input queue at the far end of an output, along the routes of the image, with `n` links
left to follow; a link that leaves the image's TEs is no link of the graph (R187, R193). -/
def ImageAt.linkEnd (m : ImageAt) : Nat → Nat → Nat → Nat → Option (TeRecord × Nat)
  | 0, _, _, _ => none
  | n + 1, c, r, d =>
    match m.beside c r d with
    | none => none
    | some (c', r') =>
      match m.at_ c' r' with
      | none => none
      | some x =>
        match x.route (opposite d) with
        | 0 => some (x, opposite d)
        | k + 1 => if k < 4 then m.linkEnd n c' r' k else none

/-- The queue that an output of a record leads to. -/
def ImageAt.leadsTo (m : ImageAt) (r : TeRecord) (d : Nat) : Option (TeRecord × Nat) :=
  m.linkEnd (4 * m.records.length + 1) r.col r.row d

/-- Whether a producing slot and a consuming slot of a link disagree on the tag (R150). -/
def mismatched (tag : BitVec 3) (ch : Nat) (y : SlotText) : Bool :=
  y.tagch != ch && y.expects.any fun e => e.1 == ch && e.2 != tag

/-- The places and slots at either end of a mismatched path (R150). -/
def ImageAt.badPaths (m : ImageAt) : List (Nat × Nat × Nat) :=
  m.records.flatMap fun r =>
    r.texts.flatMap fun x =>
      x.sends.flatMap fun d =>
        match m.leadsTo r d with
        | none => []
        | some (q, ch) =>
          (q.texts.filter (mismatched x.tag ch)).flatMap fun y =>
            [(r.col, r.row, x.num), (q.col, q.row, y.num)]

/-- The lowest of some numbers. -/
def lowestOf (l : List Nat) : Option Nat := l.foldl (fun a x => some (a.elim x (Nat.min x))) none

/-- Code 8 (R150): a record at either end of a mismatched path, and its lowest slot there. -/
def badPath (bad : List (Nat × Nat × Nat)) (r : TeRecord) : Option Nat :=
  lowestOf ((bad.filter fun x => x.1 == r.col && x.2.1 == r.row).map fun x => x.2.2)

/-- An input queue of the channel graph: its TE's place and its channel. -/
abbrev Vertex := Nat × Nat × Nat

/-- An edge of the channel graph (R187): its queues, its slot, and, where a CARRY writes it into a queue
that keeps a slot, the CARRY with whether the edge leaves its initial input. -/
structure Edge where
  src : Vertex
  dst : Vertex
  slot : Nat
  carry : Bool
  initial : Bool
  deriving DecidableEq, Repr

/-- The edges of the channel graph (R187). -/
def ImageAt.edges (m : ImageAt) : List Edge :=
  m.records.flatMap fun r =>
    r.texts.flatMap fun x =>
      x.writes.flatMap fun d =>
        match m.leadsTo r d with
        | none => []
        | some (q, ch) =>
          x.reads.map fun c =>
            { src := (r.col, r.row, c), dst := (q.col, q.row, ch), slot := x.num
              carry := x.carry.isSome && q.keeps ch, initial := x.carry == some c }

/-- The vertices that `n` further steps along edges reach, with those reached already. -/
def reach (es : List Edge) : Nat → List Vertex → List Vertex
  | 0, seen => seen
  | n + 1, seen =>
    let new := ((es.filter fun e => seen.contains e.src && !seen.contains e.dst).map (·.dst)).eraseDups
    if new.isEmpty then seen else reach es n (seen ++ new)

/-- The vertices that a vertex reaches in any number of steps, itself included. -/
def reached (es : List Edge) (v : Vertex) : List Vertex := reach es (es.length + 1) [v]

/-- The edges that lie on a cycle. -/
def cyclic (es : List Edge) : List Edge := es.filter fun e => (reached es e.dst).contains e.src

/-- Whether an edge is the CARRY edge `e`, or lies with it on one cycle (R187). A cycle is any closed walk (DESIGN
CHOICE, log entry 73). -/
def sharesCycle (es : List Edge) (e f : Edge) : Bool :=
  f == e || ((reached es e.dst).contains f.src && (reached es f.dst).contains e.src)

/-- Whether `f` enters the CARRY's output queue from the initial input of the CARRY of `e`. -/
def sameInitial (e f : Edge) : Bool :=
  f.initial && f.slot == e.slot && f.src.1 == e.src.1 && f.src.2.1 == e.src.2.1 && f.dst == e.dst

/-- The edges of the cycles of a CARRY edge, where a queue on one of them has an incoming edge that lies on
no cycle through that edge (R187); each CARRY edge of a cycle is tested by itself (DESIGN CHOICE, log entry 73). -/
def badEntry (es : List Edge) (e : Edge) : List Edge :=
  let on := es.filter (sharesCycle es e)
  if es.any fun f => on.any (fun g => g.dst == f.dst) && !on.contains f && !sameInitial e f then on else []

/-- The lowest place, by column and then by row, of the TEs of some edges, with its lowest slot. -/
def lowestPlace (es : List Edge) : Option Reject :=
  match lowestOf (es.map fun e => 65536 * e.src.1 + 256 * e.src.2.1 + e.slot) with
  | some k => some { code := 9, col := k / 65536, row := k / 256 % 256, slot := k % 256 }
  | none => none

/-- Code 9 (R187): a cycle without a CARRY into a kept slot; else an entry into a CARRY's cycle. -/
def ImageAt.badCycle (m : ImageAt) : Option Reject :=
  let es := m.edges
  match lowestPlace (cyclic (es.filter fun e => !e.carry)) with
  | some x => some x
  | none => lowestPlace (((cyclic es).filter (·.carry)).flatMap (badEntry es))

/-! ## Routes (R176) -/

/-- Whether a record's router word itself is at fault (R176). -/
def ImageAt.badRouter (m : ImageAt) (r : TeRecord) : Bool :=
  r.router.toNat / 2 ^ 16 != 0 ||
    [0, 1, 2, 3].any (fun d => 4 < r.route d) ||
    [0, 1, 2, 3].any (fun d => r.route d == d + 1) ||
    [0, 1, 2, 3].any (fun d => r.route d != 0 && [0, 1, 2, 3].any fun k => k != d && r.route k == r.route d) ||
    [0, 1, 2, 3].any (fun d => r.keeps d && r.route d != 0) ||
    [0, 1, 2, 3].any fun d => r.route d != 0 && (m.beside r.col r.row (r.route d - 1)).isNone

/-- Code 10 (R176). -/
def ImageAt.badRoute (m : ImageAt) (r : TeRecord) : Option Nat :=
  if m.badRouter r then some 0xFF
  else
    (r.texts.find? fun x =>
      x.writes.any (fun o => [0, 1, 2, 3].any fun d => r.route d == o + 1) ||
        x.reads.any fun d => r.route d != 0).map (·.num)

/-- The first of some verdicts that rejects. -/
def firstReject : List (Option Reject) → Option Reject
  | [] => none
  | some r :: _ => some r
  | none :: rs => firstReject rs

/-- Codes 2 to 10 in ascending order (R86). -/
def ImageAt.verdict (m : ImageAt) : Option Reject :=
  firstReject
    [m.badLevel, m.badPlace, firstBad 4 badOpcode m.records,
     firstBad 5 (badForm (regionOffender m.records)) m.records, firstBad 6 (badWindow m.wsize) m.records,
     firstBad 7 m.badCvt m.records, firstBad 8 (badPath m.badPaths) m.records, m.badCycle,
     firstBad 10 m.badRoute m.records]

/-- Whether a header passes the checks of code 1 that concern it alone (R33, R86). -/
def ImageHeader.ok (h : ImageHeader) : Bool :=
  h.version == 1 && h.reserved == 0 && decide (h.home ≤ 3) && decide (1 ≤ h.nte) &&
    decide (h.nte ≤ 200 * 4 ^ Nat.min h.level 3) && decide (1 ≤ h.width) && decide (1 ≤ h.height) &&
    decide (64 ≤ h.bytes)

/-- A record outside the header's own rectangle (R33). -/
def ImageHeader.badRecord (h : ImageHeader) (r : TeRecord) : Option Nat :=
  if h.col0 ≤ r.col && r.col < h.col0 + h.width && h.rowTop ≤ r.row && r.row < h.rowTop + h.height then none
  else some 0xFF

/-- A header or record moved by the offsets of s(b) (R85). -/
def ImageHeader.moved (h : ImageHeader) (dc dr : Nat) : ImageHeader :=
  { h with col0 := h.col0 + dc, rowTop := h.rowTop + dr }

def TeRecord.moved (dc dr : Nat) (r : TeRecord) : TeRecord := { r with col := r.col + dc, row := r.row + dr }

/-- The records of an image, if its bytes pass the checks of code 1 (R86). -/
def parseImage (bs : List Byte) (dc dr : Nat) : Except Reject (ImageHeader × List TeRecord) :=
  let h := headerOf bs
  if !h.ok then .error { code := 1 }
  else
    match recordsOf h.nte (bs.drop 64) with
    | none => .error { code := 1 }
    | some rs =>
      let h' := h.moved dc dr
      let rs' := rs.map (TeRecord.moved dc dr)
      match firstBad 1 h'.badRecord rs' with
      | some x => .error x
      | none => .ok (h', rs')

end Sys2Proof.Machine
end

