-- ==== Sys2Proof/Machine/Sieve.lean ====
section
/-! DEFINITION. The sieve of a plot (R405 to R412): a command reads its index list, fetches or updates each
distinct row once, in the order of its first position, and hands it to every position that named it. -/

namespace Sys2Proof.Machine

/-- The rows of a command's list, in the order in which it performs them (R409). -/
def Cmd.rows (c : Cmd) : List Nat := distinctRows c.rowCount c.list []

/-- Whether the row area lies in the window of the group on the named tile (R408). -/
def State.areaOk (s : State) (tile : Nat) (c : Cmd) : Bool :=
  match s.window? c.gid (c.dataTile tile) with
  | none => false
  | some w => decide (c.dataAt + c.indexCount * c.rowBytes ≤ w.size)

/-- Whether a scratchpad byte of a range is poisoned (R350). -/
def State.spPoisoned (s : State) (tile gid off : Nat) : Nat → Bool
  | 0 => false
  | n + 1 => s.placePoisoned tile gid .sp off || s.spPoisoned tile gid (off + 1) n

/-- The 32-bit words of a list in the scratchpad (R409). -/
def State.readWords (s : State) (tile gid off : Nat) : Nat → List Nat
  | 0 => []
  | n + 1 => leNat (s.loadBytes tile gid .sp off 4) :: s.readWords tile gid (off + 4) n

/-- The index list read: READ for a GATH (R409, R411). A list is read whole. -/
def State.sieveList (s : State) (tile : Nat) (c : Cmd) : State :=
  if !s.areaOk tile c then s.elementFault tile c (errAccess 1) (Word.ofN c.dataAt)
  else if s.spPoisoned tile c.gid c.indexAt (4 * c.indexCount) then
    s.elementFault tile c errPoison (Word.ofN c.indexAt)
  else
    let c' := { c with list := s.readWords tile c.gid c.indexAt c.indexCount }
    if c.func = 0x29#7 || c'.rows.isEmpty then s.sourceRead tile c' else s.saveCmd tile c'

/-- The bytes of a row checked and read in order, `n` of `size` at a time (R410, R412). -/
def State.rowElems (s : State) (tile : Nat) (c : Cmd) (size : Nat) (need : Need) (a : Word) :
    Nat → Except Stop (List Nat × List Nat × State)
  | 0 => .ok ([], [], s)
  | n + 1 =>
    match s.element (.sieve (tile / 64)) tile c.gid .g a size need with
    | .error e => .error ⟨e, a⟩
    | .ok (place, s1) =>
      match s1.rowElems tile c size need (a + Word.ofN size) n with
      | .error x => .error x
      | .ok (ps, vs, s2) =>
        .ok (place :: ps, leNat (s1.loadBytes tile c.gid .g place size) :: vs, s2)

/-- The scratchpad offsets of the areas of a list of positions (R409). -/
def Cmd.areaOffsets (c : Cmd) (ks : List Nat) : List Nat := ks.map fun k => c.dataAt + k * c.rowBytes

/-- The state with bytes written at each of a list of scratchpad offsets, in order (R409). -/
def State.writeAreas (s : State) (tile gid : Nat) (bs : List Byte) : List Nat → State
  | [] => s
  | o :: os => (s.storeBytes tile gid .sp o bs).writeAreas tile gid bs os

/-- The elements of a row: of a GATH, which ignores EFMT, its bytes (R406). -/
def Cmd.rowElements (c : Cmd) : Nat := if c.func = 0x29#7 then c.rowBytes else c.rowBytes / (c.rowFmt.bits / 8)

/-- The elements and bytes of a row counted (R420). -/
def State.sieveCount (s : State) (tile : Nat) (c : Cmd) : State :=
  (s.countBy 5 tile 0 c.rowElements).countBy 5 tile 1 c.rowBytes

/-- The positions' areas of a row of a command, and those of its padding positions (R409). -/
def Cmd.rowAreas (c : Cmd) (u : Nat) : List Nat := c.areaOffsets (positionsOf (· == u) 0 c.list)
def Cmd.padAreas (c : Cmd) : List Nat := c.areaOffsets (positionsOf (fun u => decide (c.rowCount ≤ u)) 0 c.list)

/-- The access to a row of the table. -/
def Cmd.rowAsk (c : Cmd) (tile u : Nat) : Ask :=
  ⟨.sieve (tile / 64), tile, .g, [c.rowAddr u], c.rowBytes, c.func != 0x29#7⟩

/-- The access to row areas of a command (R261). -/
def Cmd.areaAsk (c : Cmd) (tile : Nat) (offs : List Nat) : Ask :=
  ⟨.tile (c.dataTile tile), c.dataTile tile, .sp,
    offs.flatMap fun o => rowAddrs o c.rowBytes, offs.length * c.rowBytes, c.func == 0x29#7⟩

/-- The access to the index list of a command. -/
def Cmd.listAsk (c : Cmd) (tile : Nat) : Ask := spAsk tile c.indexAt (4 * c.indexCount) false

/-- The place of a row area as an address of R288, which names its tile. -/
def Cmd.areaAddr (c : Cmd) (tile off : Nat) : Word :=
  if c.dataTile tile = tile then Word.ofN off else Word.ofN (2 ^ 43 + 2 ^ 32 * c.dataTile tile + off)

/-- What stops a sieve command at one of its row areas: a gateway of either block that drops what goes to another block's
tile, or a poisoned granule (R293, R349, R412). -/
def State.areaFault (s : State) (tile : Nat) (c : Cmd) (offs : List Nat) : Option Stop :=
  let t := c.dataTile tile
  let o := (s.ownerOf c.gid).getD 0
  if t / 16 != tile / 16 && (s.blockDrops o (t / 16) || s.blockDrops o (tile / 16)) then
    offs.head?.map fun k => ⟨errAccess 10, c.areaAddr tile k⟩
  else (offs.find? fun k => s.spPoisoned t c.gid k c.rowBytes).map fun k => ⟨errPoison, Word.ofN k⟩

/-- A row of a GATH fetched once, into the command (R409, R410). -/
def State.gatherRead (s : State) (tile : Nat) (c : Cmd) (u : Nat) : State :=
  match s.rowElems tile c 1 needLoad (c.rowAddr u) c.rowBytes with
  | .error x => s.elementFault tile c x.err x.addr
  | .ok (_, vs, s1) => s1.saveCmd tile { c with chunk := vs.map (BitVec.ofNat 32) }

/-- A fetched row of a GATH written at every position that named it (R409, R410). -/
def State.gatherRow (s : State) (tile : Nat) (c : Cmd) (u : Nat) : State :=
  match s.areaFault tile c (c.rowAreas u) with
  | some x => s.elementFault tile { c with chunk := [] } x.err x.addr
  | none =>
    ((s.writeAreas (c.dataTile tile) c.gid (c.chunk.map (BitVec.setWidth 8)) (c.rowAreas u)).sieveCount tile c).saveCmd tile
      { c with pos := c.pos + 1, chunk := [] }

/-- The padding positions of a GATH written with zeros, which ends it (R409). -/
def State.gatherPad (s : State) (tile : Nat) (c : Cmd) : State :=
  match s.areaFault tile c c.padAreas with
  | some x => s.elementFault tile c x.err x.addr
  | none =>
    (s.writeAreas (c.dataTile tile) c.gid (List.replicate c.rowBytes 0#8) c.padAreas).endCmd tile c .visible 0#6

/-- The element values of one area. -/
def State.areaElems (s : State) (tile gid off size : Nat) : Nat → List Nat
  | 0 => []
  | n + 1 => leNat (s.loadBytes tile gid .sp off size) :: s.areaElems tile gid (off + size) size n

/-- The contributions of one element applied in position order, each rounded once (R409). -/
def applyAll (rop : Nat) (f : Fmt) : List Nat → Nat × BitVec 8 → Nat × BitVec 8
  | [], r => r
  | v :: vs, r =>
    let q := if rop = 3 then (v, flagNone) else reduceElem rop f r.1 v
    applyAll rop f vs (q.1, r.2 ||| q.2)

/-- The elements of a row updated one by one: `areas` holds each position's elements in turn (R409). -/
def State.scatterElems (s : State) (tile : Nat) (c : Cmd) (areas : List (List Nat)) :
    Nat → List Nat → BitVec 8 → BitVec 8 × State
  | _, [], fl => (fl, s)
  | e, p :: ps, fl =>
    let n := c.rowFmt.bits / 8
    let old := leNat (s.loadBytes tile c.gid .g p n)
    let r := applyAll (c.rshape 53 51) c.rowFmt (areas.map fun a => a.getD e 0) (old, flagNone)
    (s.writeOver tile c.gid .g p (leBytes n r.1)).scatterElems tile c areas (e + 1) ps (fl ||| r.2)

/-- The areas of a row of a SCATA read into the command, the last of them bringing it to READ (R411); one whose flags its
last row may raise comes to READ with that (R134). -/
def State.scatterRead (s : State) (tile : Nat) (c : Cmd) (u : Nat) (last : Bool) : State :=
  let n := c.rowFmt.bits / 8
  match s.areaFault tile c (c.rowAreas u) with
  | some x => s.elementFault tile c x.err x.addr
  | none =>
    let c' := { c with chunk := ((c.rowAreas u).flatMap fun o =>
      s.areaElems (c.dataTile tile) c.gid o n (c.rowBytes / n)).map (BitVec.ofNat 32) }
    if last && !c.postsFlags then s.sourceRead tile c' else s.saveCmd tile c'

/-- A list cut into pieces of `n`. -/
def piecesOf {α : Type} (n : Nat) : Nat → List α → List (List α)
  | 0, _ => []
  | k + 1, l => l.take n :: piecesOf n k (l.drop n)

/-- One row of a SCATA: nothing of it is done unless every element may be (R409, R412). With the last row its flags
are whole, and it is at READ (R134, R411); VISIBLE follows in the next step. -/
def State.scatterRow (s : State) (tile : Nat) (c : Cmd) (u : Nat) (last : Bool) : State :=
  let n := c.rowFmt.bits / 8
  let k := c.rowBytes / n
  match s.rowElems tile c n needAmo (c.rowAddr u) k with
  | .error x =>
    if last then s.faultAfterRead tile { c with chunk := [] } x.err x.addr
    else s.elementFault tile { c with chunk := [] } x.err x.addr
  | .ok (ps, _, s1) =>
    let areas := piecesOf k (c.chunk.length / k) (c.chunk.map (·.toNat))
    let (fl, s2) := (s1.sieveCount tile c).scatterElems tile c areas 0 ps 0#8
    let c' := { c with pos := c.pos + 1, chunk := [], flags := c.flags ||| fl }
    if last && !c.readDone then s2.sourceRead tile c' else s2.saveCmd tile c'

/-- The next access of a running sieve command, and what it performs: its list, then row after row, each read and then
written, and for a GATH the padding positions last (R409, R411, R412). -/
def Cmd.sieveNext (c : Cmd) (tile : Nat) : Option (Ask × (State → Cmd → State)) :=
  if c.list.isEmpty then some (c.listAsk tile, fun a x => a.sieveList tile x)
  else
    match c.rows[c.pos]? with
    | none =>
      if c.func = 0x29#7 && !c.padAreas.isEmpty then some (c.areaAsk tile c.padAreas, fun a x => a.gatherPad tile x) else none
    | some u =>
      let last := c.pos + 1 == c.rows.length
      if c.func = 0x29#7 then
        (if c.chunk.isEmpty then some (c.rowAsk tile u, fun a x => a.gatherRead tile x u)
         else some (c.areaAsk tile (c.rowAreas u), fun a x => a.gatherRow tile x u))
      else if c.chunk.isEmpty then some (c.areaAsk tile (c.rowAreas u), fun a x => a.scatterRead tile x u last)
      else some (c.rowAsk tile u, fun a x => a.scatterRow tile x u last)

/-- One step of a running sieve command: its next access, once its request has arrived and its banks are its own (R262,
R267), and VISIBLE after the last. -/
def State.sieveStep (s : State) (tile : Nat) (c : Cmd) : State :=
  match c.sieveNext tile with
  | some (a, f) => s.ask tile c a f
  | none => s.endCmd tile c .visible 0#6

/-- The sieve commands of a tile that have not begun, oldest first (R405). -/
def State.sieveHead (s : State) (tile : Nat) : Option Cmd := ((s.ctx tile).queue .sieve).head?

/-- Whether a waiting sieve command is the next of its plot to begin (R405): fewer than 4 are in progress,
it is the oldest of its tile, and no other tile's oldest reached the queue before it. -/
def State.sieveTurn (s : State) (tile : Nat) (c : Cmd) : Bool :=
  let running := ((plotTiles tile).map fun t =>
    ((s.ctx t).cmds.filter fun x => queueOf x.func == some .sieve && x.stage != .waiting).length).sum
  decide (running < 4) && (s.sieveHead tile).map (·.id) == some c.id &&
    (plotTiles tile).all fun t =>
      match s.sieveHead t with
      | none => true
      | some x => t == tile || decide (c.since < x.since) || (c.since == x.since && decide (tile < t))

end Sys2Proof.Machine
end

