-- ==== Sys2Proof/Machine/FabricCmds.lean ====
section
/-! DEFINITION. The fabric commands FLOAD, FGO, FSTOP, FPUT, FGET and FSTAT (R83 to R89, R192, R193), and
the takeover of a TE. -/

namespace Sys2Proof.Machine

/-! ## Names -/

/-- The column and row offsets of s(b) (R83). -/
def Cmd.colOff (c : Cmd) : Nat := bits c.b 7 0
def Cmd.rowOff (c : Cmd) : Nat := bits c.b 15 8

/-- The SP offset of an image in s(a) (R83). -/
def Cmd.imageOff (c : Cmd) : Nat := bits c.a 20 0

/-- Whether an image is the one that a command names: held by TEs of the group's rectangle, and loaded from
the same offset with the same offsets (R87). -/
def Image.matches_ (m : Image) (r : Rect) (c : Cmd) : Bool :=
  m.gid == c.gid && m.offset == c.imageOff && m.colOff == c.colOff && m.rowOff == c.rowOff &&
    unitOf r.level m.leader == unitOf r.level r.unitTile && !m.tes.isEmpty

/-- The images that a command names. -/
def State.matching (s : State) (tile : Nat) (c : Cmd) : List Image :=
  match s.rect? c.gid tile with
  | none => []
  | some r => s.images.filter fun m => m.matches_ r c

/-- The words of W that the context windows give a TE of a tile (R347). -/
def State.wSize (s : State) (tile : Nat) : Nat := (s.tile tile).win.wlim - (s.tile tile).win.wbase

/-! ## FLOAD -/

/-- The state with an FLOAD rejected: its token FAULTED, the reason for FSTAT (R85, R86). -/
def State.rejectImage (s : State) (tile : Nat) (c : Cmd) (r : Reject) : State :=
  (s.modCtx tile fun x =>
    { x with rej := BitVec.ofNat 8 r.code, rejCol := BitVec.ofNat 8 r.col, rejRow := BitVec.ofNat 8 r.row,
             rejSlot := BitVec.ofNat 8 r.slot }).rejectCmd tile c

/-- Whether a place of a rectangle is a converter TE (R150). -/
def Rect.converter (r : Rect) (c w : Nat) : Bool :=
  let p := r.te c w
  p.2.2 == 0 && p.2.1 % 5 == 4

/-- The checks of an image that lies in the window (R86). A group without a fabric rectangle has no place
for it. -/
def State.judgeImage (s : State) (tile : Nat) (c : Cmd) (bs : List Byte) : Option Reject :=
  match parseImage bs c.colOff c.rowOff with
  | .error r => some r
  | .ok (h, rs) =>
    match s.rect? c.gid tile with
    | none => some { code := 3 }
    | some r =>
      ImageAt.verdict
        { header := h, records := rs, level := r.level, width := r.width, height := r.height,
          wsize := fun col row => s.wSize (r.te col row).1, converter := r.converter }

/-- The state with the banks of an image taken by its read, four in a cycle, for which it waits for nobody (R192,
R262). -/
def State.imageBanks (s : State) (tile : Nat) (c : Cmd) (n : Nat) : State :=
  let banks := s.askBanks c.gid (spAsk tile c.imageOff n false)
  (List.range banks.length).foldl (fun a i => (a.takeBank banks[i]? c.gid (s.now + i / 4)).2) s

/-- FLOAD begins: it reads the image and checks it whole (R85, R86). A poisoned byte ends it POISON
(R293). -/
def State.floadBegin (s : State) (tile : Nat) (c : Cmd) : State :=
  let a := c.imageOff
  let size := match s.window? c.gid tile with
    | some w => w.size
    | none => 0
  if size < a + 64 then s.rejectImage tile c { code := 11 }
  else if s.spPoisoned tile c.gid a 64 then s.elementFault tile c errPoison (Word.ofN a)
  else
    let n := (headerOf (s.loadBytes tile c.gid .sp a 64)).bytes
    if size < a + n then s.rejectImage tile c { code := 11 }
    else if s.spPoisoned tile c.gid a n then s.elementFault tile c errPoison (Word.ofN a)
    else
      let bs := s.loadBytes tile c.gid .sp a (Nat.max 64 n)
      match s.judgeImage tile c bs with
      | some r => s.rejectImage tile c r
      | none =>
        (s.imageBanks tile c (Nat.max 64 n)).sourceRead tile
          { c with stage := .running, pos := 0, aux := 0, list := bs.map (·.toNat) }

/-! ## The takeover of a TE (R85, R193) -/

/-- The state with a region domain ended: its contexts and entries freed, the reply slots of its unanswered
accesses with them (R197, R233). Entries of no instance go with the rest, and an access of the image that still stands at
out.m of a TE that stays has no context from now on (DESIGN CHOICE, log entry 88). -/
def State.endDomain (s : State) (m : Image) : State :=
  let open_ := (s.homeOf m).entries.filter fun x => x.img == m.id && !x.replied
  let s0 := m.tes.foldl (fun a p =>
    a.modTeAt p fun e => { e with reservedM := e.reservedM - a.repliesFor m.id false p }) s
  let s1 := open_.foldl (fun a x => a.modTeAt x.te fun e => { e with reservedM := e.reservedM - 1 })
    (s0.mapReplies m.id false fun _ => .plain)
  (s1.modHomeOf m fun h =>
    { h with ctxs := h.ctxs.filter fun k => k.img != m.id, entries := h.entries.filter fun x => x.img != m.id }).modImage
    m.id fun x =>
      { x with head := none, tail := none, chains := [], bound := false, state := .idle, ordered := false,
               reentry := 0#8, blockedSince := none, committing := false, stopAfter := false, heldAnswers := [] }

/-- The state with an image's TEs running that the discard of this cycle stopped: a takeover is among its causes
(R232). -/
def State.runAgain (s : State) (m : Image) : State :=
  if m.discarded = some s.now && m.state = .stopped then
    (m.tes.foldl (fun a p => a.modTeAt p fun e => { e with started := true }) s).modImage m.id fun x =>
      { x with started := true }
  else s

/-- The state with a TE taken from the image that holds it: the instance undone, its domain ended, and the
image gone with its last TE (R85, R231, R233). A takeover that discards an instance, or joins the discard of its
cycle, leaves nothing else of that (R232). No takeover comes while a commit is under way: the FLOAD waits (DEDUCED, log
entry 87). -/
def State.leaveImage (s : State) (p : TeId) : State :=
  match s.imageOf p with
  | none => s
  | some m =>
    let s1 := if m.discards then s.undo m else s.runAgain m
    let s2 := s1.endDomain m
    let s3 := s2.modImage m.id fun x =>
      { x with tes := x.tes.filter (· != p), endedAt := if m.metBy s.now then some s.now else x.endedAt }
    { s3 with images := s3.images.filter fun x => x.id != m.id || !x.tes.isEmpty }

/-- The TE with the configuration of a record, and nothing of what it held, its accesses at out.m, those of no instance
too, among it (R13, R85, R136; DESIGN CHOICE, log entry 88). -/
def TE.configure (e : TE) (r : TeRecord) (img : Nat) : TE :=
  { e with
    slots := r.slots, p := 0#16, x := Vector.replicate 8 0#16, lap := 0#8
    liveBase := BitVec.ofNat 14 r.liveBase, liveLim := BitVec.ofNat 14 r.liveLim
    scrBase := BitVec.ofNat 14 r.scrBase, scrLim := BitVec.ofNat 14 r.scrLim
    router := r.router, queues := Vector.replicate 6 [], taken := [], reservedM := 0, reservedF := 0
    overflowed := Vector.replicate 4 0, audited := Vector.replicate 4 false, flags := 0#8, image := some img, started := false, holding := none
    outM := [], slotPoison := 0#32 }

/-- The state with W words written from `i` upward, within the context window (R13, R347). -/
def State.loadWords (s : State) (p : TeId) (i : Nat) : List W32 → State
  | [] => s
  | v :: vs => (if i < s.wSize p.1 then s.writeW p i v else s).loadWords p (i + 1) vs

/-- The state with a TE taken over (R85): the instance it belongs to gone, its queues cleared, its new
configuration in place, and the counts round it re-synchronised (R193). -/
def State.takeOver (s : State) (p : TeId) (r : TeRecord) (img : Nat) : State :=
  let s1 := (s.leaveImage p).modCtx p.1 fun c =>
    { c with colReqs := vset c.colReqs p.2.1 ((vget c.colReqs p.2.1 []).filter fun q => q.row != p.2.2) }
  let s2 := (s1.modTeAt p fun e => e.configure r img).loadWords p 0 r.words
  (s2.modImage img fun m => { m with tes := m.tes ++ [p] }).resyncAround p

/-- The distinct CHAIN values of an image's memory-form slots (R197). -/
def chainsOf (rs : List TeRecord) : List Nat :=
  (rs.flatMap fun r => r.texts.filterMap fun x => x.instr.memory?.map fun y => y.2.1.chain.toNat).eraseDups

/-- The image that an FLOAD brings, before it holds a TE: the tile of the rectangle's top-left TE leads it (R272). -/
def newImage (id : Nat) (c : Cmd) (r : Rect) (h : ImageHeader) (rs : List TeRecord) : Image :=
  let place (x : TeRecord) : TeId := r.te x.col x.row
  { id := id, gid := c.gid, leader := (r.te 0 0).1, offset := c.imageOff, colOff := c.colOff, rowOff := c.rowOff,
    level := h.level, home := h.home, tes := [], chains := chainsOf rs
    head := (rs.find? fun x => (x.lowest isRopen).isSome).map place
    tail := (rs.find? fun x => (x.lowest isRclose).isSome).map place }

/-- Whether the image that holds a TE is committing: no discard reaches that instance (R229), and an FLOAD takes the
TE once the commit is complete (DEDUCED, log entry 87). -/
def State.commits (s : State) (p : TeId) : Bool := (s.imageOf p).any (·.committing)

/-- FLOAD_TAKEOVER (R85): the next TE of the image taken over; after the last the token is VISIBLE. -/
def State.floadTakeover (s : State) (tile : Nat) (c : Cmd) : State :=
  match parseImage (c.list.map (BitVec.ofNat 8)) c.colOff c.rowOff, s.rect? c.gid tile with
  | .ok (h, rs), some r =>
    match rs[c.pos]? with
    | none => s.endCmd tile c .visible 0#6
    | some x =>
      if s.commits (r.te x.col x.row) then s
      else
        let id := if c.aux = 0 then s.fresh.1 else c.aux
        let s1 := if c.aux = 0 then
            { s.fresh.2 with images := s.fresh.2.images ++ [newImage id c r h rs] }
          else s
        let c' := { c with pos := c.pos + 1, aux := id }
        let s2 := (s1.takeOver (r.te x.col x.row) x id).saveCmd tile c'
        if rs.length ≤ c'.pos then s2.endCmd tile c' .visible 0#6 else s2
  | _, _ => s.endCmd tile c .visible 0#6

/-! ## FGO and FSTOP (R87, R88) -/

/-- Whether the homes of some images have free chain contexts for all of them (R197). -/
def State.homesHold (s : State) (ms : List Image) : Bool :=
  ms.all fun m =>
    let sharing := ms.filter fun x => !x.bound && x.home == m.home && x.homeUnit == m.homeUnit
    decide ((s.homeOf m).ctxs.length + (sharing.map fun x => x.chains.length).sum ≤ 16)

/-- The state with an image's chain contexts allocated, if it has none yet (R197). -/
def State.bindChains (s : State) (m : Image) : State :=
  if m.bound then s
  else
    (s.modHomeOf m fun h =>
      { h with ctxs := h.ctxs ++ m.chains.map fun k => { img := m.id, chain := k } }).modImage m.id fun x =>
        { x with bound := true }

/-- The state with an image started by an FGO of a thread: its TEs run, those newly started send their
control tokens to that thread, and a stopped domain is idle again (R15, R87, R228, R233). PWBASE3, PWLIM3 and
REENTRYMAX are those of the thread when the fabric engine begins the FGO (DESIGN CHOICE, log entry 82). An image of which
a takeover has left some TEs starts them too, without a domain (DESIGN CHOICE, log entry 88). -/
def State.startImage (s : State) (tile : Nat) (c : Cmd) (m : Image) : State :=
  let th := s.thread tile c.slot
  let s1 := m.tes.foldl (fun a p => a.modTeAt p fun e =>
    if e.started then e else { e with started := true, dest := (tile, c.slot) }) (s.bindChains m)
  s1.modImage m.id fun x =>
    let y := if x.started then x
      else { x with thread := some (tile, c.slot), base3 := vget th.pwbase 3 0#64, lim3 := vget th.pwlim 3 0#32,
                    reentrymax := th.reentrymax }
    { y with started := true, state := if y.state = .stopped then .idle else y.state }

/-- FGO (R87). -/
def State.fgoBegin (s : State) (tile : Nat) (c : Cmd) : State :=
  let ms := s.matching tile c
  if ms.isEmpty || !s.homesHold ms then s.rejectCmd tile c
  else (ms.foldl (fun a m => a.startImage tile c m) s).endCmd tile c .visible 0#6

/-- FSTOP (R88): during a commit it waits, and takes effect once that is complete (R229, R233). -/
def State.fstopBegin (s : State) (tile : Nat) (c : Cmd) : State :=
  let ms := (s.matching tile c).filter fun m => m.started
  if ms.any (·.committing) then s
  else (ms.foldl (fun a m => a.discardInstance m.id { cause := none, stops := true }) s).endCmd tile c .visible 0#6

/-! ## FPUT, FGET and FSTAT (R89) -/

/-- The TE that an FPUT or FGET names, with its W index, if the index exists (R83, R89, R347). -/
def State.wTarget (s : State) (tile : Nat) (c : Cmd) : Option (TeId × Nat) :=
  match s.rect? c.gid tile with
  | none => none
  | some r =>
    let p := r.te (bits c.a 7 0) (bits c.a 15 8)
    let i := bits c.a 28 16
    if i < 8192 && i < s.wSize p.1 then some (p, i) else none

/-- FPUT (R89). -/
def State.fputBegin (s : State) (tile : Nat) (c : Cmd) : State :=
  match s.wTarget tile c with
  | none => s.rejectCmd tile c
  | some (p, i) => (s.writeW p i (BitVec.ofNat 32 (low c.b))).endCmd tile c .visible 0#6

/-- FGET (R89); a poisoned word ends it POISON (R350). -/
def State.fgetBegin (s : State) (tile : Nat) (c : Cmd) : State :=
  match s.wTarget tile c with
  | none => s.rejectCmd tile c
  | some (p, i) =>
    if s.wBad p i then s.elementFault tile c errPoison (Word.ofN i)
    else (s.replyTo tile c ((s.readW p i).setWidth 64)).endCmd tile c .visible 0#6

/-- The started TEs of a group's rectangle for a tile (R89). -/
def State.runCount (s : State) (gid tile : Nat) : Nat :=
  match s.rect? gid tile with
  | none => 0
  | some r => ((s.tiles.keys.flatMap fun t => s.tesOf t).filter fun p => r.has p && (s.teAt p).started).length

/-- The fabric commands begun and not complete in a tile, the FSTAT that asks among them (R89). -/
def Context.fabricLength (c : Context) : Nat :=
  (c.cmds.filter fun x => decide (0x30 ≤ x.func.toNat && x.func.toNat ≤ 0x35) && x.stage != .waiting).length + 1

/-- The word of FSTAT (R89). -/
def State.fstatWord (s : State) (tile : Nat) (c : Cmd) : Word :=
  let x := s.ctx tile
  Word.ofN (2 ^ 48 * x.rej.toNat + 2 ^ 40 * x.rejCol.toNat + 2 ^ 32 * x.rejRow.toNat +
    2 ^ 24 * x.rejSlot.toNat + 2 ^ 16 * Nat.min 255 x.fabricLength + Nat.min 65535 (s.runCount c.gid tile))

/-- FSTAT (R89): the word read, and the fields of the last rejection cleared. -/
def State.fstatBegin (s : State) (tile : Nat) (c : Cmd) : State :=
  let v := s.fstatWord tile c
  ((s.modCtx tile fun x => { x with rej := 0#8, rejCol := 0#8, rejRow := 0#8, rejSlot := 0#8 }).replyTo tile c
    v).endCmd tile c .visible 0#6

/-! ## The event -/

/-- FLOAD_TAKEOVER (R85): see `State.floadTakeover`. -/
def execFloadTakeover (tile cmd : Nat) (s : State) : Host.Outcome State Fault Refusal :=
  if 2048 ≤ tile then .fault .noSuchUnit
  else
    match s.cmd? tile cmd with
    | some c => if c.func = 0x30#7 && c.stage = .running then .next (s.floadTakeover tile c) else .next s
    | none => .next s

end Sys2Proof.Machine
end

