-- ==== Sys2Proof/Machine/Sequencer.lean ====
section
/-! DEFINITION. The graph sequencers (R297 to R304, R311, R312, R423): launches, the checks of a graph, its
nodes and its end. -/

namespace Sys2Proof.Machine

/-! ## Memory through the partition's table root (R423) -/

/-- The plot whose sequencer runs a partition's graphs: that of its lowest-numbered block (R299). -/
def Partition.plot (p : Partition) : Nat := p.blocks.foldl Nat.min (p.blocks.headD 0) / 4

/-- The location of a virtual address for the sequencer and the dispatcher, with every check of R326, by a walk of
its own each time (R423). -/
def State.seqLoc (s : State) (p : Partition) (va : Word) (need : Need) : Except AccessErr Nat :=
  if bits va 63 48 ≠ 0 then .error (errTranslation 6)
  else
    match s.walk (p.plot / 4) p.id false va 4 0 p.rootG with
    | .error e => .error e
    | .ok w =>
      let sz := leafSize w.level
      s.leafLoc p false ⟨false, p.id, va.toNat / sz * sz, sz, w.entry⟩ va need.learns

/-- The location of `n` bytes of one line that the sequencer may read or write: none of them poisoned, and
the way to them not lost (R320, R323). -/
def State.seqReach (s : State) (p : Partition) (va : Word) (n : Nat) (need : Need) : Except AccessErr Nat :=
  match s.seqLoc p va need with
  | .error e => .error e
  | .ok loc =>
    if s.poisonedAt loc || s.poisonedAt (loc + n - 1) then .error errPoison
    else match s.linkFault (64 * p.plot) .g loc with
      | some e => .error e
      | none => .ok loc

/-- `n` bytes from a virtual address, read within lines of 64 bytes, `k` lines at most. -/
def State.seqLines (s : State) (p : Partition) : Nat → Word → Nat → Except AccessErr (List Byte)
  | 0, _, _ => .ok []
  | k + 1, va, n =>
    if n = 0 then .ok []
    else
      let m := Nat.min n (64 - va.toNat % 64)
      match s.seqReach p va m needLoad with
      | .error e => .error e
      | .ok loc =>
        match s.seqLines p k (va + Word.ofN m) (n - m) with
        | .error e => .error e
        | .ok bs => .ok (s.mem.readBytes loc m ++ bs)

/-- `n` bytes from a virtual address. -/
def State.seqRead (s : State) (p : Partition) (va : Word) (n : Nat) : Except AccessErr (List Byte) :=
  s.seqLines p (n / 64 + 2) va n

/-- The state with a record of the sequencer in the log (R423). -/
def State.seqRecord (s : State) (p : Partition) (e : AccessErr) (va : Word) : State :=
  s.log { cause := e.code.toNat, src := 9, unit := p.plot, owner := some p.owner, addr := va.toNat,
          die := p.plot / 4 }

/-- The state with bytes written at a virtual address within one line; a write that fails is recorded
(R423). -/
def State.seqWrite (s : State) (p : Partition) (va : Word) (bs : List Byte) : State :=
  match s.seqReach p va bs.length needStore with
  | .ok loc => { s with mem := s.mem.writeBytes loc bs }
  | .error e => s.seqRecord p e va

/-! ## Node records (R301, R302) -/

/-- The offsets of a node record that some field of its kind occupies (R301, R302): of a kernel node CFG, GROUPS, CODE,
FIMG, MEMBERS, ENTRY and TOKMASK, of an armed node SET and PASSES, of a signal node VALUE. -/
def usedBytes (kind i : Nat) : Bool :=
  i < 2 || i == 3 || (0x28 ≤ i && i < 0x35) ||
    match kind with
    | 0 => i == 2 || (4 ≤ i && i < 0x16) || (0x18 ≤ i && i < 0x1C) || (0x20 ≤ i && i < 0x28)
    | 1 => 8 ≤ i && i < 0x18
    | 3 => 8 ≤ i && i < 0x10
    | _ => false

/-- The value of `n` bytes at an offset of a record. -/
def recField (bs : List Byte) (a n : Nat) : Nat := leNat ((bs.drop a).take n)

/-- Whether the entry bytes are valid ones first and at least one (R302). -/
def entriesOk : List Nat → Bool
  | [] => true
  | e :: es => (e != 0xFF && entriesOk es) || es.all fun x => x == 0xFF

/-- The bits of MEMBERS that a domain level uses (R309). -/
def memberBits (level : Nat) : Nat :=
  match level with
  | 0 => 1
  | 1 => 0xF
  | _ => 0xFFFF

/-- The node record in 64 bytes, if it is valid for a node of index `i` (R300 to R302, R309). A GROUPS, CODE, ENTRY or
PASSES outside what R302 gives for it makes it invalid too (DESIGN CHOICE, log entry 83). -/
def nodeOf (bs : List Byte) (i : Nat) : Option Node :=
  let kind := recField bs 0 1
  let npred := recField bs 1 1
  let preds := (List.range 4).map fun j => recField bs (0x28 + 2 * j) 2
  let cfg := recField bs 2 1
  let level := cfg % 8
  let members := recField bs 0x14 2
  let entry := (List.range 4).map fun j => recField bs (0x18 + j) 1
  let set : Word := Word.ofN (recField bs 8 8)
  let passes := recField bs 0x10 8
  let common :=
    decide (kind ≤ 3) && decide (npred ≤ 4) && ((preds.take npred).all fun p => decide (p < i)) &&
      ((preds.drop npred).all fun p => p == 0xFFFF) &&
      (List.range 64).all fun k => usedBytes kind k || bs.getD k 0#8 == 0#8
  let own :=
    match kind with
    | 0 =>
      decide (level ≤ 3) && cfg / 8 % 2 == 0 && decide (cfg / 16 % 4 ≤ level) && recField bs 4 4 != 0 &&
        recField bs 8 8 % 64 == 0 && members != 0 && members &&& memberBits level == members &&
        entry.headD 0xFF != 0xFF && entriesOk entry
    | 1 =>
      bits set 63 15 == 0 && bits set 11 11 == 0 && decide (setLevel set ≤ 6) && passes != 0 &&
        decide (passes < 2 ^ 48)
    | _ => true
  if common && own then
    some
      { kind := kind, preds := preds.take npred, soft := recField bs 3 1, cfg := BitVec.ofNat 8 cfg,
        groups := recField bs 4 4, code := Word.ofN (recField bs 8 8), fimg := recField bs 0x10 4,
        members := BitVec.ofNat 16 members, entry := entry.filter fun e => e != 0xFF,
        tokmask := BitVec.ofNat 64 (recField bs 0x20 8), set := set, passes := passes,
        value := Word.ofN (recField bs 8 8) }
  else none

/-- The fields of CFG (R302). -/
def Node.level (n : Node) : Nat := n.cfg.toNat % 8
def Node.fabLevel (n : Node) : Nat := n.cfg.toNat / 16 % 4
def Node.ftz (n : Node) : Bool := n.cfg.getLsbD 6
def Node.hasImage (n : Node) : Bool := n.cfg.getLsbD 7

/-! ## Code images (R35) -/

/-- The header and thread table of a code image (R35). -/
structure CodeImage where
  text : Nat
  spb : Nat
  table : List Nat
  deriving DecidableEq, Repr

/-- A number rounded up to a multiple of 64. -/
def up64 (n : Nat) : Nat := (n + 63) / 64 * 64

/-- Where the text and the sp segment of a code image begin (R35). -/
def CodeImage.textAt (c : CodeImage) : Nat := up64 (64 + 4 * c.table.length)
def CodeImage.spAt (c : CodeImage) : Nat := up64 (c.textAt + c.text)

/-- The code image at an address, `none` where its own checks fail (R35, R300). -/
def State.codeImage (s : State) (p : Partition) (va : Word) : Except AccessErr (Option CodeImage) :=
  match s.seqRead p va 64 with
  | .error e => .error e
  | .ok h =>
    let n := recField h 2 1
    match s.seqRead p (va + 64#64) (4 * n) with
    | .error e => .error e
    | .ok t =>
      let c : CodeImage :=
        { text := recField h 4 4, spb := recField h 8 4, table := (List.range n).map fun i => recField t (4 * i) 4 }
      let ok := recField h 0 2 == 1 && recField h 3 1 == 0 && recField h 0x14 44 == 0 && n != 0 && c.text % 4 == 0 &&
        c.table.all fun e => decide (e % 2 ^ 30 < c.text) && e % 4 == 0
      .ok (if ok then some c else none)

/-- Whether a kernel node's code image passes the checks of R300. A fabric image lies in the sp segment where its
header of 64 bytes does (DESIGN CHOICE, log entry 83). -/
def State.codeOk (s : State) (p : Partition) (n : Node) : Bool :=
  match s.codeImage p n.code with
  | .ok (some c) =>
    (n.entry.all fun e => decide (e < c.table.length)) &&
      (!n.hasImage || (n.fimg % 64 == 0 && decide (n.fimg + 64 ≤ c.spb)))
  | _ => false

/-! ## Launches (R297 to R300) -/

/-- The nodes of a graph from index `i`, with `k` left: the node at fault, or all of them (R300). -/
def State.nodesFrom (s : State) (p : Partition) (va : Word) (i : Nat) : Nat → Except Nat (List Node)
  | 0 => .ok []
  | k + 1 =>
    let a := va + Word.ofN (64 * i)
    match s.seqRead p a 64, s.seqLoc p a needStore with
    | .ok bs, .ok _ =>
      match nodeOf bs i with
      | none => .error i
      | some n =>
        if n.kind = 0 && !s.codeOk p n then .error i
        else
          match s.nodesFrom p va (i + 1) k with
          | .ok ns => .ok (n :: ns)
          | .error e => .error e
    | _, _ => .error i

/-- The graph of a launch record, or the node that its rejection names (R297, R300). -/
def State.graphOf (s : State) (p : Partition) (l : Launch) (rec : List Byte) : Except Nat Graph :=
  let graph : Word := Word.ofN (recField rec 0 8)
  let n := recField rec 8 2
  let flags := recField rec 0x0A 2
  if graph.toNat % 64 ≠ 0 || n = 0 || 1024 < n || flags / 4 ≠ 0 || recField rec 0x0E 2 ≠ 0 then .error 0
  else
    match s.nodesFrom p graph 0 n with
    | .error i => .error i
    | .ok ns =>
      .ok
        { id := s.nextId, part := p.id, window := l.window, graphVa := graph, seq := l.seq
          flags := BitVec.ofNat 16 flags, vector := recField rec 0x0C 2
          pwbase := Vector.ofFn fun j => Word.ofN (recField rec (0x10 + 8 * j.val) 8)
          pwlim := Vector.ofFn fun j => BitVec.ofNat 32 (recField rec (0x30 + 4 * j.val) 4)
          nodes := ns }

/-- NODE and STATUS of a status line written (R298). -/
def State.writeStatus (s : State) (p : Partition) (window : Word) (node status : Nat) : State :=
  s.seqWrite p (window + 0x4C#64) (leBytes 2 node ++ leBytes 1 status)

/-- The context without a command, whose token ends in a state with a cause, every waiting command and TWAIT judged
again (R275, R277). -/
def Context.endAway (x : Context) (c : Cmd) (st : TokState) (cause : BitVec 6) : Context :=
  let y := { x with cmds := x.cmds.filter fun y => y.id != c.id }
  match produced c.b with
  | none => y
  | some k =>
    y.modToken k fun t =>
      if t.owner = some c.id then { t with state := st, cause := cause, frozen := false, poisoned := false } else t

/-- Whether a command is a GSTART of a window that has begun. -/
def Cmd.starts (c : Cmd) (window : Word) : Bool := c.func == 0x40#7 && c.stage == .running && c.a == window

/-- The tile without the GSTART commands of a window in its swapped context, their tokens ended (R312, R346). -/
def Tile.endShadow (x : Tile) (window : Word) (st : TokState) (cause : BitVec 6) : Tile :=
  { x with shadow := (x.shadow.cmds.filter fun c => c.starts window).foldl (fun y c => y.endAway c st cause) x.shadow }

/-- The GSTART commands of a partition that wait for a launch window: their tiles and themselves. -/
def State.starters (s : State) (p : Partition) (window : Word) : List (Nat × Cmd) :=
  p.blocks.flatMap fun b =>
    (List.range 16).flatMap fun i =>
      let t := 16 * b + i
      ((s.ctx t).cmds.filter fun c => c.starts window).map fun c => (t, c)

/-- The state with the GSTART commands of a window ended, those of swapped-out groups with them (R312, R346). -/
def State.endStarters (s : State) (p : Partition) (window : Word) (st : TokState) (cause : BitVec 6) : State :=
  let s1 := (s.starters p window).foldl (fun a x => a.endCmd x.1 x.2 st cause) s
  ((p.blocks.flatMap fun b => (List.range 16).map (16 * b + ·)).filter fun t =>
    (s1.tile t).shadow.cmds.any fun c => c.starts window).foldl
      (fun a t => a.modTile t fun x => x.endShadow window st cause) s1

/-- The state with a STATUS that ends a launch written, and its GSTART commands ended as R312 gives. -/
def State.endLaunch (s : State) (p : Partition) (window : Word) (node status : Nat) : State :=
  let s1 := s.writeStatus p window node status
  if status = 2 then s1.endStarters p window .visible 0#6
  else s1.endStarters p window .faulted (if status = 4 then 0x0A#6 else 0x09#6)

/-- Whether a sequencer has room for a graph of `n` nodes (R300). -/
def Sequencer.room (q : Sequencer) (n : Nat) : Bool :=
  decide (q.graphs.length < 4) && decide ((q.graphs.map fun g => g.nodes.length).sum + n ≤ 1024)

/-- FAULTS and STATE of a node written to its record (R301). -/
def State.writeNode (s : State) (p : Partition) (g : Graph) (i faults state : Nat) : State :=
  s.seqWrite p (g.graphVa + Word.ofN (64 * i + 0x30)) (leBytes 4 (Nat.min faults 0xFFFFFFFF) ++ leBytes 1 state)

/-- Whether a sequencer does nothing more for a partition: a stop wave or a pre-emption at a node boundary holds it
(R343, R348). -/
def State.seqHeld (s : State) (p : Partition) : Bool := p.stopping || (s.seqr p.plot).boundary.contains p.id

/-- Whether the state that a sequencer keeps of a partition has been saved at a node boundary (R348). -/
def State.seqSaved (s : State) (p : Partition) : Bool := s.pkg.savedSeqs.any fun x => x.plot == p.plot && x.part == p.id

/-- A launch begun: it waits where its partition is stopped or its sequencer full, and is checked and run
otherwise (R299, R300, R343, R348). -/
def State.beginLaunch (s : State) (p : Partition) (l : Launch) : State :=
  let wait := s.modSeqr p.plot fun q => { q with waiting := q.waiting ++ [l] }
  if s.seqHeld p then wait
  else
    match s.seqRead p l.window 64 with
    | .error e => (s.seqRecord p e l.window).endLaunch p l.window 0 4
    | .ok rec =>
      match s.graphOf p l rec with
      | .error i => s.endLaunch p l.window i 4
      | .ok g =>
        if (s.seqr p.plot).room g.nodes.length then
          (List.range g.nodes.length).foldl (fun a i => a.writeNode p g i 0 0)
            (s.fresh.2.modSeqr p.plot fun q => { q with graphs := q.graphs ++ [g] })
        else wait

/-- Whether a launch window's STATUS is 1: its launch waits or its graph runs and has not been aborted (R299, R303). -/
def State.windowBusy (s : State) (p : Partition) (window : Word) : Bool :=
  let q := s.seqr p.plot
  (q.graphs.any fun g => g.part == p.id && g.window == window && g.aborted.isNone) ||
    q.waiting.any fun l => l.part == p.id && l.window == window

/-- The GSTART commands of a dropped launch ended FAULTED with the cause of its record (R423; DESIGN CHOICE:
the manual names no state for them), unless an earlier launch of the window still runs. -/
def State.dropLaunch (s : State) (p : Partition) (window : Word) (cause : BitVec 6) : State :=
  if s.windowBusy p window then s else s.endStarters p window .faulted cause

/-- STATE 0 written to every node of the graph that a launch window names, where its record can be read (R299). -/
def State.clearNodes (s : State) (p : Partition) (window : Word) : State :=
  match s.seqRead p window 64 with
  | .error _ => s
  | .ok rec =>
    let graph : Word := Word.ofN (recField rec 0 8)
    let n := recField rec 8 2
    if graph.toNat % 64 ≠ 0 || 1024 < n then s
    else
      (List.range n).foldl (fun a i =>
        match a.seqReach p (graph + Word.ofN (64 * i + 0x34)) 1 needStore with
        | .ok loc => { a with mem := a.mem.write loc 0#8 }
        | .error _ => a) s

/-- A LAUNCH of a window with a SEQ (R298, R299, R423). One whose record cannot be read or whose status line
cannot be written is dropped with a record; one that finds STATUS 1 sets OVER and changes nothing else. -/
def State.launch (s : State) (p : Partition) (window : Word) (seq : BitVec 32) : State :=
  match s.seqRead p window 64, s.seqReach p (window + 0x40#64) 16 needStore with
  | .ok _, .ok loc =>
    if s.windowBusy p window then
      s.seqWrite p (window + 0x4F#64) [s.mem.read (loc + 15) ||| 1#8]
    else
      ((s.seqWrite p (window + 0x48#64) (leBytes 4 seq.toNat ++ leBytes 2 0 ++ leBytes 1 1)).clearNodes p window).beginLaunch p
        { part := p.id, window := window, seq := seq }
  | .error e, _ => (s.seqRecord p e window).dropLaunch p window e.code
  | _, .error e => (s.seqRecord p e (window + 0x40#64)).dropLaunch p window e.code

/-- The waiting launches of a plot taken up in order while the sequencer has room, `n` of them at most: each
is taken from the list and begun anew. -/
def State.promote (s : State) (plot : Nat) : Nat → State
  | 0 => s
  | n + 1 =>
    match (s.seqr plot).waiting with
    | [] => s
    | l :: rest =>
      let s1 := s.modSeqr plot fun q => { q with waiting := rest }
      match s1.part? l.part with
      | none => s1.promote plot n
      | some p => (s1.beginLaunch p l).promote plot n

/-- The launch register of a plot's block written (R299): it belongs to the partition whose lowest-numbered
block it is. Until BOOTSTATE is 7 the write is dropped (R415). What a write with bits 63:32 set does is open: they are
dropped and the launch goes on (DESIGN CHOICE, log entry 81). -/
def State.launchRegister (s : State) (plot reg : Nat) (v : Word) : State :=
  match s.parts.find? fun p => p.blocks.foldl Nat.min (p.blocks.headD 0) == 4 * plot + reg && !p.blocks.isEmpty with
  | none => s
  | some p => if s.pkg.bootState ≠ 7#8 then s else s.launch p p.window (v.setWidth 32)

/-- The state with an MSI-X vector of the table of 2,048 raised (R303, R332); no other vector exists. -/
def State.raiseMsix (s : State) (vector : Nat) : State :=
  if vector < 2048 then s.modPkg fun k => { k with msix := k.msix ++ [vector] } else s

/-! ## Nodes (R303) -/

/-- Whether a node has completed (R303). -/
def Node.complete (n : Node) : Bool := n.state == 2 || n.state == 3

/-- Whether a node is ready (R303). -/
def Graph.ready (g : Graph) (n : Node) : Bool :=
  n.state == 0 && g.aborted.isNone && decide (n.soft ≤ n.arrivals) &&
    n.preds.all fun i => (g.nodes[i]?).any fun x => x.complete

/-- The state with a node's STATE changed, here and in its record. -/
def State.setNode (s : State) (p : Partition) (g : Graph) (i faults state : Nat) : State :=
  (s.modNode p.plot g.id i fun n => { n with state := state, faults := faults }).writeNode p g i faults state

/-- A node that is ready begins (R303): a kernel node waits for the dispatcher, an armed node arms its pool, a
signal node writes SIGNAL and raises its interrupt, and a barrier node has nothing to do. -/
def State.beginNode (s : State) (p : Partition) (g : Graph) (i : Nat) (n : Node) : State :=
  let s1 := s.setNode p g i 0 1
  match n.kind with
  | 0 => s1.modNode p.plot g.id i fun x => { x with ready := true, readyAt := s.now }
  | 1 =>
    if s1.armFails p.id n.set then s1.modNode p.plot g.id i fun x => { x with ended := 1, faults := 1 }
    else s1.arm n.set n.passes (some (p.plot, g.id, i)) none
  | 3 =>
    let s2 := s1.seqWrite p (g.window + 0x40#64) (leBytes 8 n.value.toNat)
    if g.flags.getLsbD 1 then s2.raiseMsix g.vector else s2
  | _ => s1

/-- NODE_READY (R303): see `State.beginNode`. -/
def State.nodeReady (s : State) (plot graph node : Nat) : State :=
  match (s.seqr plot).graph? graph with
  | none => s
  | some g =>
    match s.part? g.part, g.nodes[node]? with
    | some p, some n =>
      if s.seqHeld p || !g.ready n then s else s.beginNode p g node n
    | _, _ => s

/-- Whether the work of a running node is done (R303). -/
def Node.done (n : Node) (aborted : Bool) : Bool :=
  n.state == 1 &&
    match n.kind with
    | 0 => n.ended == n.placed && (n.placed == n.groups || aborted)
    | 1 => n.ended == 1
    | _ => true

/-- Whether a graph has no node to run and no group left (R303). -/
def State.graphDone (s : State) (g : Graph) : Bool :=
  (g.nodes.all fun n => decide (2 ≤ n.state)) && !(s.groups.any fun x => x.graph == g.id && !x.ended)

/-- The end of a graph whose nodes are all complete or not run: STATUS, the interrupt, the GSTART commands that
wait for it, and the launches that wait for room (R298, R300, R303, R312). Of an aborted graph STATUS says so since the
abort. -/
def State.graphEnd (s : State) (p : Partition) (id : Nat) : State :=
  match (s.seqr p.plot).graph? id with
  | none => s
  | some g =>
    if !s.graphDone g then s
    else
      let s1 := s.modSeqr p.plot fun q => { q with graphs := q.graphs.filter fun x => x.id != id }
      let s2 := match g.aborted with
        | some _ => s1
        | none =>
          let bad := (List.range g.nodes.length).find? fun i => (g.nodes[i]?).any fun (n : Node) => n.state == 3
          let s3 := match bad with
            | some i => s1.endLaunch p g.window i 3
            | none => s1.endLaunch p g.window 0 2
          if g.flags.getLsbD 0 then s3.raiseMsix g.vector else s3
      s2.promote p.plot (s2.seqr p.plot).waiting.length

/-- The STATE of a node whose work is done (R303): 3 with faults and 2 without, and 4 for a kernel node of an aborted
graph of which not every group has run. -/
def Node.outcome (n : Node) : Nat :=
  if n.kind = 0 && n.placed != n.groups then 4 else if n.faults = 0 then 2 else 3

/-- NODE_COMPLETE (R303): the node's STATE, and the graph's end with its last node. -/
def State.nodeComplete (s : State) (plot graph node : Nat) : State :=
  match (s.seqr plot).graph? graph with
  | none => s
  | some g =>
    match s.part? g.part, g.nodes[node]? with
    | some p, some n =>
      if p.stopping || s.seqSaved p || !n.done g.aborted.isSome then s else (s.setNode p g node n.faults n.outcome).graphEnd p graph
    | _, _ => s

/-- Whether a node has not yet run: it has not begun, or none of its groups has been placed. -/
def Node.idle (n : Node) : Bool := n.state == 0 || (n.kind == 0 && n.state == 1 && n.placed == 0)

/-- The state with a graph aborted, naming a node (R303): nodes not yet run take STATE 4, and the node that could
not be placed with them; STATUS becomes 5 with NODE naming it, and the GSTART commands of the window end (R312). A node
of which some groups run takes its state with the last of them, and the graph ends then. -/
def State.abort (s : State) (p : Partition) (g : Graph) (named : Nat) (unplaced : Option Nat) : State :=
  let s1 := s.modGraph p.plot g.id fun x => { x with aborted := some named }
  let s2 := (List.range g.nodes.length).foldl (fun a i =>
    match g.nodes[i]? with
    | some n => if n.idle || unplaced = some i then a.setNode p g i n.faults 4 else a
    | none => a) s1
  (if g.aborted.isSome then s2 else s2.endLaunch p g.window named 5).graphEnd p g.id

/-- The aborted graphs of a sequencer whose last group has ended, ended (R303). -/
def State.abortedEnds (s : State) (plot : Nat) : State :=
  (((s.seqr plot).graphs.filter fun g => g.aborted.isSome).map fun g => (g.part, g.id)).foldl (fun a x =>
    match a.part? x.1 with
    | some p => if p.stopping || a.seqSaved p then a else a.graphEnd p x.2
    | none => a) s

/-! ## Graph commands (R312) -/

/-- GSTART begins: the launch of its window. -/
def State.gstartBegin (s : State) (tile : Nat) (c : Cmd) : State :=
  match s.partOf c.gid with
  | none => s.rejectCmd tile c
  | some p => (s.saveCmd tile { c with stage := .running }).launch p c.a (BitVec.ofNat 32 (low c.b))

/-- GARM begins (R312). -/
def State.garmBegin (s : State) (tile : Nat) (c : Cmd) : State :=
  match s.partOf c.gid with
  | none => s.rejectCmd tile c
  | some p =>
    if p.stopping then s
    else if s.armFails p.id c.a then s.rejectCmd tile c
    else (s.saveCmd tile { c with stage := .running }).arm c.a (low c.b) none (some (tile, c.id))

/-- GDONE (R312): once the stores and atomics that its thread committed before it are visible, one arrival is delivered
to the node. -/
def State.gdoneBegin (s : State) (tile : Nat) (c : Cmd) : State :=
  match s.partOf c.gid, s.group? c.gid with
  | some p, some g =>
    let th := s.thread tile c.slot
    if p.stopping || (th.inflight.any fun f => decide (f.sid < c.aux)) ||
        th.outstanding.any fun o => o.queued.any fun q => q.amo.isSome && decide (q.after ≤ c.aux) then s
    else
      let n := bits c.a 9 0
      match s.node? g.plot g.graph n with
      | none => s.rejectCmd tile c
      | some x =>
        if x.state = 0 && x.arrivals < x.soft then
          (s.modNode g.plot g.graph n fun y => { y with arrivals := y.arrivals + 1 }).endCmd tile c .visible 0#6
        else s.rejectCmd tile c
  | _, _ => s.rejectCmd tile c

/-! ## The events -/

/-- LAUNCH_REGISTER_WRITE (R299): see `State.launchRegister`. -/
def execLaunchRegisterWrite (plot reg : Nat) (v : BitVec 64) (s : State) : Host.Outcome State Fault Refusal :=
  if 32 ≤ plot || 4 ≤ reg then .fault .noSuchUnit else .next (s.launchRegister plot reg v)

/-- NODE_READY (R303): see `State.nodeReady`. -/
def execNodeReady (plot graph node : Nat) (s : State) : Host.Outcome State Fault Refusal :=
  if 32 ≤ plot then .fault .noSuchUnit else .next (s.nodeReady plot graph node)

/-- NODE_COMPLETE (R303): see `State.nodeComplete`. -/
def execNodeComplete (plot graph node : Nat) (s : State) : Host.Outcome State Fault Refusal :=
  if 32 ≤ plot then .fault .noSuchUnit else .next (s.nodeComplete plot graph node)

end Sys2Proof.Machine
end

