-- ==== Sys2Proof/Machine/Placement.lean ====
section
/-! DEFINITION. The dispatcher (R305 to R309): where a group fits, its placement, its start and its end, and
the gating of blocks. -/

namespace Sys2Proof.Machine

/-! ## Units and tiles -/

/-- The tiles of a unit that MEMBERS names (R309). -/
def groupTiles (level unit : Nat) (mask : Nat) : List Nat :=
  match level with
  | 0 => [unit]
  | 1 => (setBits mask 0 4).map fun i => 4 * unit + i
  | 2 => (setBits mask 0 16).map fun i => 16 * unit + i
  | _ => (setBits mask 0 16).flatMap fun q => [0, 1, 2, 3].map fun i => 64 * unit + 4 * q + i

/-- The blocks that a unit of level 0 to 3 lies in or is made of. -/
def unitBlocks (level unit : Nat) : List Nat :=
  if level = 3 then [0, 1, 2, 3].map (4 * unit + ·) else [unit * 4 ^ level / 16]

/-- The units of a level that lie in a partition, in tile-number order (R306). -/
def Partition.units (p : Partition) (level : Nat) : List Nat :=
  (List.range (2048 / 4 ^ level)).filter fun u => (unitBlocks level u).all p.blocks.contains

/-- Whether a block is neither gated nor waking (R306, R308). -/
def State.awake (s : State) (block : Nat) : Bool :=
  !s.pkg.gated.contains block && !(s.pkg.waking.any fun w => w.1 == block)

/-- The groups that hold resources in the running context. -/
def State.placed (s : State) : List Group := s.groups.filter fun g => !g.ended && !g.away

/-- The groups whose context stands in shadow storage; text stores are no part of a context, so theirs stays
where it is (R345, R346). -/
def State.swappedOut (s : State) : List Group := s.groups.filter fun g => !g.ended && g.away

/-! ## What fits (R305, R306) -/

/-- The lowest start of a run of `n` free places from `lo` up to `hi`, beside the runs in use. -/
def lowestRun (n lo hi : Nat) (used : List (Nat × Nat)) : Option Nat :=
  (List.range (hi + 1)).find? fun k =>
    decide (lo ≤ k) && decide (k + n ≤ hi) && used.all fun u => decide (k + n ≤ u.1) || decide (u.1 + u.2 ≤ k)

/-- The lowest free stripe run for a window of a size on a tile: within the tile's context window, below the
fabric queue area at its top (R261, R306, R345, R347). -/
def State.fitWindow (s : State) (others : List Group) (tile size : Nat) : Option Window :=
  let w := (s.tile tile).win
  let used := (others.flatMap fun g => g.windows.filter fun x => x.tile == tile).map fun x =>
    (x.base / 2048, (x.size + 2047) / 2048)
  (lowestRun ((size + 2047) / 2048) ((w.spbase + 2047) / 2048) ((w.splim - 51200) / 2048) used).map fun k =>
    { tile := tile, base := 2048 * k, size := size }

/-- The text of a node's groups that a tile holds already, or the lowest free run of its 15 pages (R305). -/
def fitText (others : List Group) (graph node tile size : Nat) : Option (Nat × Nat × Nat) :=
  let resident := (others.filter fun g => g.graph == graph && g.node == node).findSome? fun g =>
    g.texts.find? fun x => x.1 == tile
  match resident with
  | some x => some x
  | none =>
    let used := (others.flatMap fun g => g.texts.filter fun x => x.1 == tile).map fun x =>
      (x.2.1 / 4096, (x.2.2 + 4095) / 4096)
    (lowestRun ((size + 4095) / 4096) 0 15 used).map fun k => (tile, 4096 * k, size)

/-- The lowest free thread slots of a tile. -/
def fitSlots (others : List Group) (tile n : Nat) : Option (List (Nat × Nat)) :=
  let free := [0, 1, 2, 3].filter fun k => !(others.any fun g => g.slots.contains (tile, k))
  if n ≤ free.length then some ((free.take n).map fun k => (tile, k)) else none

/-- Whether the tokens of a mask are disjoint from those of the groups on a tile (R305). -/
def fitTokens (others : List Group) (tile : Nat) (mask : BitVec 64) : Bool :=
  others.all fun g => !g.members.contains tile || (g.tokmask &&& mask) == 0#64

/-- Whether a tile takes no group whatever is free on it: it is retired, or its pool runs an armed section, or
it is a member of a joined pool and holds no group (R351, R382, R384). -/
def State.barred (s : State) (others : List Group) (tile : Nat) : Bool :=
  let p := s.pool tile
  (s.tile tile).retired || (s.pool (p.memberOf.getD tile)).armed.isSome ||
    (p.memberOf.isSome && !(others.any fun g => g.members.contains tile))

/-- Whether every tile of a mesh that a rectangle reaches is one of some tiles: those outside MEMBERS run nothing of a
group (R272, R309). -/
def Rect.within (q : Rect) (tiles : List Nat) : Bool :=
  (List.range (2 ^ q.level)).all fun i => (List.range (2 ^ q.level)).all fun j =>
    !(decide (q.col < 20 * (i + 1)) && decide (20 * i < q.col + q.width) && decide (q.row < 10 * (j + 1)) &&
        decide (10 * j < q.row + q.height)) ||
      tiles.contains (meshTe q.level q.unitTile (20 * i) (10 * j)).1

/-- The lowest free origin of a fabric rectangle on some tiles of the mesh of a unit: lowest row, then lowest column
(R306). -/
def fitRect (others : List Group) (tiles : List Nat) (level unit width height : Nat) : Option Rect :=
  let taken := others.flatMap fun g => g.rects
  let cols := 20 * 2 ^ level
  let rows := 10 * 2 ^ level
  let rect (c r : Nat) : Rect :=
    { unitTile := unit * 4 ^ level, level := level, col := c, row := r, width := width, height := height }
  let free (q : Rect) : Bool :=
    q.within tiles && (taken.isEmpty || (List.range height).all fun r => (List.range width).all fun c =>
      !(taken.any fun t => t.has (q.te c r)))
  if cols < width || rows < height then none
  else
    ((List.range (rows - height + 1)).flatMap fun r =>
      (List.range (cols - width + 1)).map fun c => rect c r).find? free

/-- The values of a list of options, if none is missing. -/
def allSome {α : Type} : List (Option α) → Option (List α)
  | [] => some []
  | none :: _ => none
  | some x :: xs => (allSome xs).map fun ys => x :: ys

/-- Whether a barrier slot is free for a group of a level on a unit (R305). -/
def fitBarrier (others : List Group) (level unit : Nat) : Bool :=
  let held := others.filter fun g => g.level == level && unitOf level g.unitTile == unit
  decide (held.length < if level = 0 then 4 else 8)

/-- What a placement takes of its unit (R305). -/
structure Fit where
  windows : List Window
  texts : List (Nat × Nat × Nat)
  slots : List (Nat × Nat)
  rects : List Rect

/-- The units in whose meshes a group has its rectangles: its own where FABLEV is DOMLEV, and below it each
unit of level FABLEV that holds a member tile (R305). -/
def rectUnits (n : Node) (unit : Nat) (tiles : List Nat) : List Nat :=
  if n.fabLevel = n.level then [unit] else (tiles.map fun t => unitOf n.fabLevel t).eraseDups

/-- `fits(u)` (R306): what a group of a node takes of a unit beside other groups, if all of it is free and no tile
is barred. `size` is the width and height of its image's rectangle, and `away` the groups that keep only their
text. -/
def State.fits (s : State) (bar : Nat → Bool) (others away : List Group) (g : Graph) (node : Nat) (n : Node) (c : CodeImage)
    (size : Nat × Nat) (unit : Nat) : Option Fit :=
  let tiles := groupTiles n.level unit n.members.toNat
  if (tiles.any fun t => bar t || !fitTokens others t n.tokmask) || !fitBarrier others n.level unit then none
  else
    match allSome (tiles.map fun t => s.fitWindow others t (up64 c.spb)),
        allSome (tiles.map fun t => fitText (others ++ away) g.id node t c.text),
        allSome (tiles.map fun t => fitSlots others t n.entry.length),
        if n.hasImage then
          allSome ((rectUnits n unit tiles).map fun u => fitRect others tiles n.fabLevel u size.1 size.2)
        else some [] with
    | some ws, some ts, some ks, some rs => some { windows := ws, texts := ts, slots := ks.flatten, rects := rs }
    | _, _, _, _ => none

/-! ## Placement (R306) -/

/-- A ready kernel node of a sequencer with groups still to place: its graph, its number and itself. -/
abbrev Candidate := Graph × Nat × Node

/-- The kernel nodes whose groups a sequencer may place now (R306, R343, R348). -/
def State.candidates (s : State) (plot : Nat) : List Candidate :=
  let q := s.seqr plot
  (q.graphs.filter fun g =>
    g.aborted.isNone && !q.boundary.contains g.part && (s.part? g.part).any fun p => !p.stopping).flatMap fun g =>
      (List.range g.nodes.length).filterMap fun i =>
        match g.nodes[i]? with
        | some n => if n.kind = 0 && n.state = 1 && n.ready && n.placed < n.groups then some (g, i, n) else none
        | none => none

/-- The node whose groups come first: the one that became ready first, ties to the lower index (R306). -/
def firstReady (l : List Candidate) : Option Candidate :=
  l.find? fun x => l.all fun y =>
    decide (x.2.2.readyAt < y.2.2.readyAt) || (x.2.2.readyAt == y.2.2.readyAt && decide (x.2.1 ≤ y.2.1))

/-- The group that a placement makes. -/
def groupOf (gid : Nat) (p : Partition) (g : Graph) (i : Nat) (n : Node) (c : CodeImage) (unit earliest : Nat)
    (f : Fit) : Group :=
  { gid := gid, part := p.id, plot := p.plot, graph := g.id, node := i, index := n.placed, level := n.level
    unitTile := unit * 4 ^ n.level, members := groupTiles n.level unit n.members.toNat, memberMask := n.members
    earliest := earliest, tokmask := n.tokmask, windows := f.windows, texts := f.texts, rects := f.rects
    slots := f.slots, codeVa := n.code, ftz := n.ftz
    entries := n.entry.map fun e =>
      let w := c.table.getD e 0
      (BitVec.ofNat 2 (w / 2 ^ 30), w % 2 ^ 30) }

/-- The state with a group placed on a unit. -/
def State.place (s : State) (p : Partition) (x : Candidate) (c : CodeImage) (unit earliest : Nat) (f : Fit) : State :=
  { s.fresh.2 with groups := s.groups ++ [groupOf s.fresh.1 p x.1 x.2.1 x.2.2 c unit earliest f] }.modNode p.plot x.1.id
    x.2.1 fun n => { n with placed := n.placed + 1 }

/-- Numbers from `k` on first, then those below it. -/
def cyclicFrom (k : Nat) (l : List Nat) : List Nat := (l.filter fun u => decide (k ≤ u)) ++ l.filter fun u => decide (u < k)

/-- The first of some units on which a group fits, with what it takes. -/
def firstFit (fit : Nat → Option Fit) : List Nat → Option (Nat × Fit)
  | [] => none
  | u :: us =>
    match fit u with
    | some f => some (u, f)
    | none => firstFit fit us

/-- The lowest gated block of a partition woken, with any other gated block of the unit that the group then
takes (R306, R308). -/
def State.wake (s : State) (blocks : List Nat) : State :=
  s.modPkg fun k =>
    { k with gated := k.gated.filter fun b => !blocks.contains b
             waking := k.waking ++ (blocks.filter k.gated.contains).map fun b => (b, s.now + 1260) }

/-- The next group placed for a candidate, on an awake unit, or on the unit of a block woken for it; or the
graph aborted, where no unit of the empty partition could hold it, one with no group and no armed or joined pool
(R303, R306). -/
def State.placeNext (s : State) (p : Partition) (x : Candidate) (c : CodeImage) (size : Nat × Nat) : State :=
  let n := x.2.2
  let fit (u : Nat) : Option Fit := s.fits (s.barred s.placed) s.placed s.swappedOut x.1 x.2.1 n c size u
  let fitEmpty (u : Nat) : Option Fit := s.fits (fun t => (s.tile t).retired) [] [] x.1 x.2.1 n c size u
  let all := p.units n.level
  let up := all.filter fun u => (unitBlocks n.level u).all s.awake
  match firstFit fit (cyclicFrom (vget (s.seqr p.plot).ptr n.level 0) up) with
  | some (u, f) =>
    (s.place p x c u 0 f).modSeqr p.plot fun q => { q with ptr := vset q.ptr n.level (u + 1) }
  | none =>
    if !(all.any fun u => (fitEmpty u).isSome) then s.abort p x.1 x.2.1 (some x.2.1)
    else if p.blocks.any fun b => s.pkg.waking.any fun w => w.1 == b then s
    else
      match lowestOf (p.blocks.filter s.pkg.gated.contains) with
      | none => s
      | some b =>
        match firstFit fit (all.filter fun u => (unitBlocks n.level u).contains b) with
        | none => s.wake [b]
        | some (u, f) => (s.wake (b :: unitBlocks n.level u)).place p x c u (s.now + 1260) f

/-- The width and height of a node's fabric image, from the header in the sp segment of its code image (R33,
R305). -/
def State.imageSize (s : State) (p : Partition) (n : Node) (c : CodeImage) : Except AccessErr (Nat × Nat) :=
  if n.hasImage then
    match s.seqRead p (n.code + Word.ofN (c.spAt + n.fimg)) 64 with
    | .ok h => .ok (recField h 10 1, recField h 11 1)
    | .error e => .error e
  else .ok (0, 0)

/-- GROUP_PLACEMENT (R306): the next group of the node that became ready first; a code image that can no
longer be read aborts its graph (R423). -/
def State.groupPlacement (s : State) (plot : Nat) : State :=
  match firstReady (s.candidates plot) with
  | none => s
  | some x =>
    match s.part? x.1.part with
    | none => s
    | some p =>
      match s.codeImage p x.2.2.code with
      | .ok (some c) =>
        match s.imageSize p x.2.2 c with
        | .ok size => s.placeNext p x c size
        | .error _ => s.abort p x.1 x.2.1 (some x.2.1)
      | _ => s.abort p x.1 x.2.1 (some x.2.1)

/-! ## Start (R307) -/

/-- DOMAIN of a group's threads on a tile, PHASE aside (R309). -/
def Group.domainOf (g : Group) (tile : Nat) : Word :=
  Word.ofN (g.memberMask.toNat * 2 ^ 16 + (g.members.filter fun t => decide (t < tile)).length * 2 ^ 10 + g.level)

/-- A thread at its start (R239, R307, R342). -/
def startThread (old : Thread) (p : Partition) (x : Graph) (g : Group) (tile : Nat) (e : BitVec 2 × Nat)
    (now : Nat) : Thread :=
  { status := .running, gid := g.gid, pc := Word.ofN e.2, resume := Word.ofN e.2, role := e.1
    group := BitVec.ofNat 32 g.index, domain := g.domainOf tile, pwbase := x.pwbase, pwlim := x.pwlim
    tvec := p.tvec, reentrymax := p.reentrymax, nextLoad := old.nextLoad, nextSid := old.nextSid
    earliest := now }

/-- The state with the threads of a group started on a tile, in slot order (R307). -/
def State.startThreads (s : State) (p : Partition) (x : Graph) (g : Group) (tile : Nat) :
    List Nat → List (BitVec 2 × Nat) → State
  | k :: ks, e :: es =>
    (s.modThread tile k fun th => startThread th p x g tile e s.now).startThreads p x g tile ks es
  | _, _ => s

/-- The state with a tile's pool as a group's start leaves it (R355); a joined pool that the tile leads is left,
and of a member it is the pool of its own that is cleared. -/
def State.startPool (s : State) (tile : Nat) : State :=
  let p := s.pool tile
  if p.memberOf.isSome then
    s.modPool tile fun q => { q with mode := 0#64, beds := [], bedPoison := [], saved := q.saved.map fun x => { x with map := ⟨[]⟩, mapPoison := [] },
                                     owners := [], lastFlow := none, lastStream := none, lastDrain := none }
  else
    (if p.joined = 0 then s else s.leavePools tile).modPool tile fun q =>
      { q with mode := 0#64, beds := [], map := ⟨[]⟩, target := 0, owners := [], lastFlow := none, lastStream := none
               lastDrain := none, mapPoison := [], bedPoison := [] }

/-- The state with one member tile made ready for a group (R149, R177, R307, R355): its text and sp segment
written, its tokens FREE, its FTZ bit set, its arbiters and its pool as a start leaves them, and the streams
that ended groups left on it undefined again. -/
def State.prepareTile (s : State) (g : Group) (text sp : List Byte) (tile : Nat) : State :=
  let base := ((g.texts.find? fun x => x.1 == tile).map fun x => x.2.1).getD 0
  let resident := s.groups.any fun h =>
    h.started && !h.ended && h.graph == g.graph && h.node == g.node && h.texts.any fun x => x.1 == tile
  let s1 := if resident then s else { s with mem := s.mem.writeBytes (locText tile base) text }
  let s2 := s1.storeBytes tile g.gid .sp 0 sp
  let s3 := s2.modCtx tile fun c =>
    { c with
      tokens := Vector.ofFn fun (k : Fin 64) =>
        if g.tokmask.getLsbD k.val then ({} : TokenSlot) else vget c.tokens k.val {}
      ftz := g.ftz, lastServed := 199, lastRow := Vector.replicate 20 9
      streams := c.streams.map fun st =>
        if (s.group? st.gid).any fun h => !h.ended && h.gid != g.gid then st else {} }
  s3.startPool tile

/-- The state with the cycle noted from which the blocks of a group hold it no longer (R308). -/
def State.noteIdle (s : State) (g : Group) : State :=
  s.modPkg fun k =>
    { k with idleSince := ((g.members.map (· / 16)).eraseDups).foldl (fun m b => m.set b s.now) k.idleSince }

/-- The state with a group given up before its start: what R423 gives a code image that can no longer be read. -/
def State.dropGroup (s : State) (p : Partition) (x : Graph) (g : Group) : State :=
  let s1 := { s with groups := s.groups.filter fun h => h.gid != g.gid }.modNode p.plot x.id g.node fun n =>
    { n with placed := n.placed - 1 }
  (s1.noteIdle g).abort p ((s1.seqr p.plot).graph? x.id |>.getD x) g.node (some g.node)

/-- GROUP_START (R307): a placed group whose blocks are awake starts on all its member tiles in one cycle. -/
def State.groupStart (s : State) (gid : Nat) : State :=
  match s.group? gid, s.partOf gid with
  | some g, some p =>
    if g.started || g.ended || g.terminated || g.away || p.stopping || s.now < g.earliest || g.members.any fun t => !s.awake (t / 16) then s
    else
      match (s.seqr g.plot).graph? g.graph with
      | none => s
      | some x =>
        match s.codeImage p g.codeVa with
        | .ok (some c) =>
          match s.seqRead p (g.codeVa + Word.ofN c.textAt) c.text, s.seqRead p (g.codeVa + Word.ofN c.spAt) c.spb with
          | .ok text, .ok sp =>
            let s1 := g.members.foldl (fun a t => a.prepareTile g text sp t) s
            let s2 := g.members.foldl (fun a t =>
              a.startThreads p x g t ((g.slots.filter fun k => k.1 == t).map (·.2)) g.entries) s1
            s2.modGroup gid fun h => { h with started := true }
          | _, _ => s.dropGroup p x g
        | _ => s.dropGroup p x g
  | _, _ => s

/-! ## End (R296, R307) -/

/-- Whether nothing of a group is in flight on a tile: its commands have ended and what they wrote is visible at package
scope, no commit of its instances has begun and not ended, and its threads' committed commands and stores are done (R229,
R296). -/
def State.quietOn (s : State) (g : Group) (tile : Nat) : Bool :=
  !((s.ctx tile).cmds.any fun c => c.gid == g.gid && !c.armed) &&
    !(s.pkg.far.any fun w => w.gid == g.gid && w.tile == tile && w.space == .g) &&
    !(s.images.any fun m => m.gid == g.gid && m.committing) &&
    (s.ctx tile).threads.toList.all fun th =>
      th.gid != g.gid ||
        (th.held.isEmpty && th.departing.isEmpty && th.inflight.isEmpty && th.outstanding.all (·.queued.isNone))

/-- Whether a group's threads have all halted and R296 holds (R307). -/
def State.groupDone (s : State) (g : Group) : Bool :=
  (g.slots.all fun x => (s.thread x.1 x.2).status == .halted) && g.members.all fun t => s.quietOn g t

/-- Whether a token of a group ended FAULTED or POISON (R296). -/
def State.groupFaulted (s : State) (g : Group) : Bool :=
  g.members.any fun t => (List.range 64).any fun k => g.tokmask.getLsbD k && (s.token t k).seen.failed

/-- The TE as the end of its group leaves it: stopped, and holding no image. -/
def TE.release (e : TE) : TE :=
  { e with image := none, started := false, holding := none, outM := [], reservedM := 0, reservedF := 0 }

/-- The state with an image gone: its instance undone without re-entry, its TEs stopped, and its contexts freed
(R197, R307). -/
def State.endImage (s : State) (m : Image) : State :=
  let s1 := (if m.discards then s.undo m else s).endDomain m
  let s2 := m.tes.foldl (fun a p =>
    (a.modTeAt p TE.release).modCtx p.1 fun c =>
      { c with colReqs := vset c.colReqs p.2.1 ((vget c.colReqs p.2.1 []).filter fun q => q.row != p.2.2) }) s1
  { s2 with images := s2.images.filter fun x => x.id != m.id }

/-- The pool without the ownerships that a group's PFLOWs took (R361). -/
def Pool.disown (q : Pool) (gid : Nat) : Pool := { q with owners := q.owners.filter fun o => o.gid != gid }

/-- The state with every resource of a group freed (R307). Its windows stay named for the commands that its
pool recorded (R384). -/
def State.freeGroup (s : State) (g : Group) : State :=
  let s1 := (s.images.filter fun m => m.gid == g.gid).foldl (fun a m => a.endImage m) s
  let s2 := g.slots.foldl (fun a x => a.modThread x.1 x.2 fun th => { th with status := .empty }) s1
  let s3 := g.members.foldl (fun a t => a.modPool t fun q => q.disown g.gid) s2
  (s3.modGroup g.gid fun h =>
    { h with ended := true, slots := [], texts := [], rects := [], tokmask := 0#64 }).noteIdle g

/-- The end of a group counted for its node (R303); FAULTS of one that has STATE 4 already is written anew (R301). -/
def State.countEnd (s : State) (g : Group) (faulted : Bool) : State :=
  let s1 := s.modNode g.plot g.graph g.node fun n => { n with ended := n.ended + 1, faults := n.faults + b2n faulted }
  match s1.part? g.part, (s1.seqr g.plot).graph? g.graph with
  | some p, some x =>
    match x.nodes[g.node]? with
    | some n => if n.state = 4 then s1.writeNode p x g.node n.faults 4 else s1
    | none => s1
  | _, _ => s1

/-- The end of a group that TERMINATE has stopped, once what it wrote is visible: it counts in FAULTS (R296, R303,
R346). -/
def State.endTerminated (s : State) (g : Group) : State :=
  if g.members.all fun t => s.quietOn g t then (s.countEnd g true).freeGroup g else s

/-- GROUP_END (R296, R307, R346). -/
def State.groupEnd (s : State) (gid : Nat) : State :=
  match s.group? gid, s.partOf gid with
  | some g, some p =>
    if g.ended || g.away || p.stopping then s
    else if g.terminated then s.endTerminated g
    else if !g.started || !s.groupDone g then s
    else (s.countEnd g (s.groupFaulted g)).freeGroup g
  | _, _ => s

/-! ## Gating (R308) -/

/-- Whether a pool of a block runs an armed section. -/
def State.blockArmed (s : State) (block : Nat) : Bool :=
  (List.range 16).any fun i =>
    let p := s.pool (16 * block + i)
    (s.pool (p.memberOf.getD (16 * block + i))).armed.isSome

/-- BLOCK_GATE (R308): a block of a partition that has held no group for 65,536 cycles, and holds no armed
pool, is gated. -/
def State.blockGate (s : State) (block : Nat) : State :=
  let held := (s.placed ++ s.swappedOut).any fun g => g.members.any fun t => t / 16 == block
  if (s.partAt (16 * block)).isNone || held || s.blockArmed block || !s.awake block ||
      s.now < s.pkg.idleSince.get 0 block + 65536 then s
  else s.modPkg fun k => { k with gated := k.gated ++ [block] }

/-- BLOCK_WAKE_COMPLETE (R308): a waking block is awake once its 1,260 cycles have passed. -/
def State.blockWake (s : State) (block : Nat) : State :=
  let due := s.pkg.waking.any fun w => w.1 == block && decide (w.2 ≤ s.now)
  (if due then s.count 9 0 8 else s).modPkg fun k =>
    { k with waking := k.waking.filter fun w => w.1 != block || decide (s.now < w.2) }

/-! ## The events -/

/-- GROUP_PLACEMENT (R306): see `State.groupPlacement`. -/
def execGroupPlacement (plot : Nat) (s : State) : Host.Outcome State Fault Refusal :=
  if 32 ≤ plot then .fault .noSuchUnit else .next (s.groupPlacement plot)

/-- GROUP_START (R307): see `State.groupStart`. -/
def execGroupStart (gid : Nat) (s : State) : Host.Outcome State Fault Refusal := .next (s.groupStart gid)

/-- GROUP_END (R307): see `State.groupEnd`. -/
def execGroupEnd (gid : Nat) (s : State) : Host.Outcome State Fault Refusal := .next (s.groupEnd gid)

/-- BLOCK_GATE (R308): see `State.blockGate`. -/
def execBlockGate (block : Nat) (s : State) : Host.Outcome State Fault Refusal :=
  if 128 ≤ block then .fault .noSuchUnit else .next (s.blockGate block)

/-- BLOCK_WAKE_COMPLETE (R308): see `State.blockWake`. -/
def execBlockWakeComplete (block : Nat) (s : State) : Host.Outcome State Fault Refusal :=
  if 128 ≤ block then .fault .noSuchUnit else .next (s.blockWake block)

end Sys2Proof.Machine
end

