-- ==== Sys2Proof/Machine/Engines.lean ====
section
/-! DEFINITION. When an engine begins a command (R277, R284, R377, R378, R405), what it does in its first
cycle, what a running command does next, the token unit (R280 to R282), and the release and termination of a
frozen command (R279). -/

namespace Sys2Proof.Machine

/-! ## Turns -/

/-- Whether a waiting command stands at the head of its queue, where its engine takes its commands in order
(R377, R378, R405). -/
def State.atHead (s : State) (tile : Nat) (c : Cmd) : Bool :=
  match queueOf c.func with
  | none | some .copy => true
  | some q => ((s.ctx tile).queue q).head?.map (·.id) == some c.id

/-- Whether the tile that receives an FGO, that of the top-left TE of the group's rectangle, takes commands (R272). -/
def State.fgoTaken (s : State) (tile : Nat) (c : Cmd) : Bool :=
  match s.rect? c.gid tile with
  | none => true
  | some r => !(s.tile (r.te 0 0).1).stopped

/-- Whether the engine of a command can take it now (R272, R284, R384, R389, R405). -/
def State.engineFree (s : State) (tile : Nat) (c : Cmd) : Bool :=
  match queueOf c.func with
  | none => c.func != 0x31#7 || s.fgoTaken tile c
  | some .config | some .flow | some .drain => (s.pool tile).armed.isNone
  | some .stream => s.streamFree tile c
  | some .copy => (s.ctx tile).copyRoom
  | some .sieve => s.sieveTurn tile c

/-! ## The token unit (R280 to R282) -/

/-- TRESET: every named token in a final state is FREE (R281, R282). -/
def State.tokenReset (s : State) (tile : Nat) (c : Cmd) : State :=
  (((List.range 64).filter fun k => bit c.a k).foldl (fun a k =>
    if (a.token tile k).seen.final then
      a.modToken tile k fun t =>
        { t with state := .free, cause := 0#6, frozen := false, owner := none, poisoned := false }
    else a) s).endCmd tile c .visible 0#6

/-- The code of a token's state (R282). -/
def TokState.code (t : TokState) : Nat :=
  match t with
  | .free => 0
  | .pending => 1
  | .read => 2
  | .visible => 3
  | .skipped => 4
  | .faulted => 5
  | .poison => 6

/-- The word of TQUERY (R282). -/
def TokenSlot.query (t : TokenSlot) : Word :=
  Word.ofN (2 ^ 32 * t.prog + 2 ^ 17 * t.func.toNat + 2 ^ 16 * b2n t.frozen +
    2 ^ 8 * t.causeSeen.toNat + t.seen.code)

/-- TQUERY (R282). -/
def State.tokenQuery (s : State) (tile : Nat) (c : Cmd) : State :=
  (s.replyTo tile c (s.token tile (bits c.a 5 0)).query).endCmd tile c .visible 0#6

/-! ## Beginning -/

/-- The first cycle of a command whose tokens are satisfied, by its function (R47). -/
def State.commandStart (s : State) (tile : Nat) (c : Cmd) : State :=
  match c.func.toNat with
  | 0x00 | 0x01 | 0x02 | 0x03 | 0x08 => s.configBegin tile c
  | 0x04 | 0x05 => s.flowBegin tile c
  | 0x06 | 0x07 => s.drainBegin tile c
  | 0x09 => s.pstat tile c
  | 0x14 => s.sstop tile c
  | 0x10 | 0x11 | 0x12 | 0x13 | 0x15 | 0x16 | 0x17 => s.streamBegin tile c
  | 0x30 => s.floadBegin tile c
  | 0x31 => s.fgoBegin tile c
  | 0x32 => s.fstopBegin tile c
  | 0x33 => s.fputBegin tile c
  | 0x34 => s.fgetBegin tile c
  | 0x35 => s.fstatBegin tile c
  | 0x38 => s.endCmd tile c .visible 0#6
  | 0x39 => s.tokenReset tile c
  | 0x3A => s.tokenQuery tile c
  | 0x40 => s.gstartBegin tile c
  | 0x41 => s.garmBegin tile c
  | 0x42 => s.gdoneBegin tile c
  | _ => s.saveCmd tile { c with stage := .running }

/-- ENGINE_COMMAND_BEGIN (R277, R278): a waiting command whose turn it is begins once its consumed tokens are
satisfied; one that finds a consumed token FAULTED or POISON below FINAL performs nothing. -/
def State.commandBegin (s : State) (tile : Nat) (c : Cmd) : State :=
  if c.stage ≠ .waiting || (s.tile tile).stopped || !s.atHead tile c then s
  else if c.upstream then s.endCmd tile c .faulted 0x09#6
  else if !c.decided || !s.engineFree tile c then s
  else s.commandStart tile c

/-! ## Running on -/

/-- Whether a command moves bytes for the copy engine (4) or the sieve (5), as R420's units are numbered. -/
def Cmd.mover (c : Cmd) : Option Nat :=
  match c.func.toNat with
  | 0x21 | 0x22 | 0x23 => some 4
  | 0x29 | 0x2A => some 5
  | _ => none

/-- Whether a running copy or sieve command has elements in flight: read, and not yet written (R343). -/
def Cmd.inHand (c : Cmd) : Bool := c.mover.isSome && c.stage == .running && !c.chunk.isEmpty

/-- The state with the elements in flight of a command performed: a copy's chunk, or a sieve's row (R343, R412). -/
def State.performInHand (s : State) (tile : Nat) (c : Cmd) : State :=
  if c.mover == some 4 then s.copyPut tile c else s.sieveStep tile c

/-- ENGINE_COMMAND_COMPLETE (R275, R294, R380, R409): the next piece of work of a running copy, sieve or drain
command, with which it reaches READ, VISIBLE, FAULTED or POISON; a throttled die moves no bytes (R418), and on a
stopped tile only the elements in flight are performed (R343). The other engines' commands move on by their own
events. -/
def State.commandStep (s : State) (tile : Nat) (c : Cmd) : State :=
  match c.stage with
  | .ending st cause => if s.lags tile c.id then s else s.endCmd tile c st cause
  | .running =>
    if c.mover.isSome && s.throttled (dieOf tile) then s
    else if (s.tile tile).stopped then (if c.inHand then s.performInHand tile c else s)
    else
      match c.func.toNat with
      | 0x21 | 0x22 | 0x23 => s.copyStep tile c
      | 0x29 | 0x2A => s.sieveStep tile c
      | 0x06 | 0x07 => s.drainStep tile c
      | _ => s
  | _ => s

/-! ## Frozen commands (R279) -/

/-- The state with the streams of a frozen SGO fetching again. -/
def State.thawStreams (s : State) (tile id : Nat) : State :=
  s.modCtx tile fun x =>
    { x with streams := x.streams.map fun st => if st.starter == id then { st with frozen := none } else st }

/-- The state with a frozen command released: it resumes at the faulting element (R279). -/
def State.releaseCmd (s : State) (tile : Nat) (c : Cmd) : State :=
  match c.stage with
  | .frozen _ _ =>
    let s1 := s.saveCmd tile { c with stage := .running }
    let s2 := match produced c.b with
      | none => s1
      | some k => s1.modToken tile k fun t => if t.owner = some c.id then { t with frozen := false } else t
    if c.func = 0x13#7 then s2.thawStreams tile c.id else s2
  | _ => s

/-- The state with a command ended FAULTED by the supervisor, with a cause; the streams of an SGO stop with it,
and the pool command that takes their elements (R279, R390). -/
def State.killCmd (s : State) (tile : Nat) (c : Cmd) (cause : BitVec 6) : State :=
  if c.func = 0x13#7 then
    let own := (List.range 8).filter fun i => (s.stream tile i).running && (s.stream tile i).starter == c.id
    let s1 := own.foldl (fun a i => a.haltStream tile i cause.toNat) s
    match s1.cmd? tile c.id with
    | some x => s1.finishCmd tile x .faulted cause
    | none => s1
  else s.finishCmd tile c .faulted cause

/-- The state with a single frozen command terminated: FAULTED with the cause of its fault (R279). -/
def State.terminateCmd (s : State) (tile : Nat) (c : Cmd) : State :=
  match c.stage with
  | .frozen cause _ => s.killCmd tile c cause
  | _ => s

/-! ## The events -/

/-- A change of one command of a tile, where it exists. -/
def withCmd (tile cmd : Nat) (f : Cmd → State) (s : State) : Host.Outcome State Fault Refusal :=
  if 2048 ≤ tile then .fault .noSuchUnit
  else
    match s.cmd? tile cmd with
    | some c => .next (f c)
    | none => .next s

/-- ENGINE_COMMAND_BEGIN (R277): see `State.commandBegin`. -/
def execEngineCommandBegin (tile cmd : Nat) (s : State) : Host.Outcome State Fault Refusal :=
  withCmd tile cmd (fun c => s.commandBegin tile c) s

/-- ENGINE_COMMAND_COMPLETE (R275): see `State.commandStep`. -/
def execEngineCommandComplete (tile cmd : Nat) (s : State) : Host.Outcome State Fault Refusal :=
  withCmd tile cmd (fun c => s.commandStep tile c) s

/-- RELEASE_FROZEN_COMMAND (R279): see `State.releaseCmd`. -/
def execReleaseFrozenCommand (tile cmd : Nat) (s : State) : Host.Outcome State Fault Refusal :=
  withCmd tile cmd (fun c => s.releaseCmd tile c) s

/-- TERMINATE_FROZEN_COMMAND (R279): see `State.terminateCmd`. -/
def execTerminateFrozenCommand (tile cmd : Nat) (s : State) : Host.Outcome State Fault Refusal :=
  withCmd tile cmd (fun c => s.terminateCmd tile c) s

end Sys2Proof.Machine
end

