-- ==== Sys2Proof/Machine/Links.lean ====
section
/-! DEFINITION. The units that serve the elements: the column units (R149), the control-token collector
(R177), and the audit and recovery of neighbour links (R189 to R191). -/

namespace Sys2Proof.Machine

/-! ## Column units -/

/-- The row that a column unit serves next, after the row it granted last (R149). -/
def nextRow (reqs : List ColReq) (last : Nat) : Option Nat :=
  ((List.range 10).map fun i => (last + 1 + i) % 10).find? fun r => reqs.any fun q => q.row == r

/-- The requests of a column without the first of one row. -/
def dropFirst (row : Nat) : List ColReq → List ColReq
  | [] => []
  | q :: qs => if q.row = row then qs else q :: dropFirst row qs

/-- COLUMN_UNIT_REPLY (R149, R161): the next request of a column accepted, and its reply put into the slot
of in.f that its firing reserved. -/
def State.columnReplied (s : State) (tile col : Nat) : State :=
  let c := s.ctx tile
  let reqs := vget c.colReqs col []
  match nextRow reqs (vget c.lastRow col 9) with
  | none => s
  | some row =>
    match reqs.find? fun q => q.row == row with
    | none => s
    | some q =>
      let p : TeId := (tile, col, row)
      let (v, fl) := columnReply q.func (s.tileFtz tile) q.operand
      let s1 := s.modCtx tile fun x =>
        { x with colReqs := vset x.colReqs col (dropFirst row reqs), lastRow := vset x.lastRow col row }
      let s2 := s1.modImage q.img fun m => if q.inRegion then { m with columnOut := m.columnOut - 1 } else m
      let active := (s2.image? q.img).any fun m => m.active
      (s2.modTeAt p fun e => { e with reservedF := e.reservedF - 1 }).enqueue p 5
        { data := v, fmt := 0#3, utag := q.utag, flags := fl,
          region := if q.inRegion && active then some q.img else none }

/-! ## The control-token collector -/

/-- The key of the TE whose token the collector takes next: round robin in (col, row) order after the one
it served last (R177). -/
def nextServed (l : List CtlToken) (last : Nat) : Option Nat :=
  ((List.range 200).map fun i => (last + 1 + i) % 200).find? fun k => l.any fun c => teKey c.col c.row == k

/-- The tokens of a collector without the first of one TE. -/
def dropToken (k : Nat) : List CtlToken → List CtlToken
  | [] => []
  | c :: cs => if teKey c.col c.row = k then cs else c :: dropToken k cs

/-- The state with a control token at its thread, or, where that has halted, dropped and recorded (R15, R51,
R177). -/
def State.handToken (s : State) (t : CtlToken) : State :=
  if s.threadLives t.tile t.slot t.gid then
    s.modThread t.tile t.slot fun th =>
      { th with evt := th.evt ||| (1#16 <<< t.bit.toNat), flags := th.flags ||| t.flags }
  else
    s.log { cause := 0x19, src := 1, unit := t.source, owner := s.ownerOf t.gid, col := t.col, row := t.row,
            aux := t.bit.toNat + 256 * t.flags.toNat, die := dieOf t.source }

/-- The state with a control token on its way to another tile's thread, on channel 4 (R177, R273). -/
def State.forwardToken (s : State) (tile : Nat) (t : CtlToken) : State :=
  s.present tile
    { vc := 4, owner := (s.ownerOf t.gid).getD 0, path := pathBetween tile t.tile, payload := .token t }

/-- CONTROL_TOKEN_DELIVERY (R15, R51, R177): one token that is due reaches its thread, or sets out to the tile
of its thread, its TE's slot returned. A stopped tile's collector waits (R343). -/
def State.deliverControl (s : State) (tile : Nat) : State :=
  let c := s.ctx tile
  let due := c.collector.filter fun t => decide (t.due ≤ s.now) && !(s.tile tile).stopped
  match nextServed due c.lastServed with
  | none => s
  | some k =>
    match due.find? fun t => teKey t.col t.row == k with
    | none => s
    | some t =>
      let s1 := (s.modCtx tile fun x =>
        { x with collector := dropToken k x.collector, lastServed := k }).modTe tile t.col t.row fun e =>
          { e with ctlTokens := e.ctlTokens - 1 }
      let c1 := { t with source := tile }
      if t.tile = tile then s1.handToken c1 else s1.forwardToken tile c1

/-- The control tokens that have come from other tiles and are due handed to their threads (R177). -/
def State.takeTokens (s : State) (tile : Nat) : State :=
  let l := (s.tile tile).incoming
  (l.filter fun t => decide (t.due ≤ s.now)).foldl (fun a t => a.handToken t)
    (s.modTile tile fun x => { x with incoming := l.filter fun t => decide (s.now < t.due) })

/-! ## Audit and recovery (R189 to R191) -/

/-- The number of a link's direction. -/
def dirOf (d : LinkDir) : Nat :=
  match d with
  | .n => 0
  | .e => 1
  | .s => 2
  | .w => 3

/-- The sending TE of a link. -/
def linkTe (l : LinkAt) : TeId := (l.tile, l.col, l.row)

/-- The unit of a link (R191, R351). -/
def linkUnit (l : LinkAt) : CounterId := linkUnitOf (linkTe l) (dirOf l.dir)

/-- Whether a link names a TE of the package. -/
def linkOk (l : LinkAt) : Bool := decide (l.tile < 2048) && decide (l.col < 20) && decide (l.row < 10)

/-- The state with one output of a TE changed. -/
def State.modOutput (s : State) (p : TeId) (f : TE → TE) : State := s.modTeAt p f

/-- Whether a TE itself keeps the free count of an output: the output leads to a queue, and no route of the TE
passes another's tokens on through it, whose origin keeps the count (R172, R175). -/
def State.keepsCount (s : State) (p : TeId) (d : Nat) : Bool :=
  (s.finalOf maxHops p d 0).isSome && ((s.teAt p).routedTo d).isNone

/-- The state with an audit of an output begun: the sender pushes its marker, and then nothing until the report
(R190). -/
def State.beginAudit (s : State) (l : LinkAt) : State :=
  (s.count (linkUnit l).unit (linkUnit l).index 1).modOutput (linkTe l) fun e =>
    { e with auditing := vset e.auditing (dirOf l.dir) (some s.now) }

/-- LINK_AUDIT (R190): an audit begins, unless one is under way. -/
def State.linkAudit (s : State) (l : LinkAt) : State :=
  let d := dirOf l.dir
  if !s.keepsCount (linkTe l) d || (vget (s.teAt (linkTe l)).auditing d none).isSome then s else s.beginAudit l

/-- The tokens that the queue at the far end of an output has dropped (R191). -/
def State.droppedAt (s : State) (p : TeId) (d : Nat) : Nat :=
  match s.finalOf maxHops p d 0 with
  | some (q, ch, _) => vget (s.teAt q).overflowed ch 0
  | none => 0

/-- The events that an audit finds at an output (R191): each return that the sender's count lacks, and a count too high
where no token was lost, which is an event of its own. A parity failure and a dropped token were counted as they
happened. -/
def State.auditEvents (s : State) (p : TeId) (d : Nat) : Nat :=
  let n := vget (s.teAt p).credit d 0
  (s.trueFree p d - n) + b2n (decide (s.trueFree p d < n) && s.droppedAt p d == 0)

/-- Several corrected events of one unit. -/
def State.correctedEvents (s : State) (u : CounterId) (n : Nat) : State :=
  (List.range n).foldl (fun (a : State) _ => a.correctedEvent u) s

/-- AUDIT_REPORT (R190, R191): the receiver's true free count replaces the sender's; every event that it finds counts
against the link. -/
def State.auditReport (s : State) (l : LinkAt) : State :=
  let d := dirOf l.dir
  let p := linkTe l
  if (vget (s.teAt p).auditing d none).isNone then s
  else
    let s1 := s.resync p d
    let s2 := match s1.finalOf maxHops p d 0 with
      | some (q, ch, _) =>
        s1.modTeAt q fun x => if vget x.overflowed ch 0 = 0 then x else { x with audited := vset x.audited ch true }
      | none => s1
    s2.correctedEvents (linkUnit l) (s.auditEvents p d)

/-- LINK_PARITY_FAILURE (R189): a return lost, a count whose parity fails, which counts at once, stops the link and
starts an audit (R191), or a count that changes unseen. -/
def State.parityFailure (s : State) (l : LinkAt) (f : LinkFault) : State :=
  let d := dirOf l.dir
  match f with
  | .returnLost => s.modOutput (linkTe l) fun e => e.modCredit d (· - 1)
  | .countParity =>
    ((s.beginAudit l).modOutput (linkTe l) fun e => { e with creditBad := vset e.creditBad d true }).correctedEvent
      (linkUnit l)
  | .silentCount n => s.modOutput (linkTe l) fun e => e.modCredit d fun _ => n

/-- QUEUE_OVERFLOW (R191): after the audit that follows a drop, the receiving instance is discarded and re-entered; with
none open, the image stops and the supervisor receives a LINK record. The record's UNIT, POS and SUB name the receiving
tile, TE and queue (DESIGN CHOICE, log entry 92). -/
def State.queueOverflow (s : State) (p : TeId) (d : Nat) : State :=
  if !vget (s.teAt p).audited d false then s
  else
    let s1 := s.modTeAt p fun e => { e with overflowed := vset e.overflowed d 0, audited := vset e.audited d false }
    match (s1.imageOf p).filter fun m => m.endedAt != some s.now with
    | none => s1
    | some m =>
      if m.metBy s1.now then s1.discardInstance m.id { cause := some 0x13 }
      else
        (s1.stopImage m).log { cause := 0x13, src := 12, unit := p.1, owner := none, sub := d, col := p.2.1, row := p.2.2,
                               die := dieOf p.1 }

/-! ## The events -/

/-- COLUMN_UNIT_REPLY (R149): see `State.columnReplied`. -/
def execColumnUnitReply (tile col : Nat) (s : State) : Host.Outcome State Fault Refusal :=
  if 2048 ≤ tile || 20 ≤ col then .fault .noSuchUnit else .next (s.columnReplied tile col)

/-- CONTROL_TOKEN_DELIVERY (R177): see `State.deliverControl`. -/
def execControlTokenDelivery (tile : Nat) (s : State) : Host.Outcome State Fault Refusal :=
  if 2048 ≤ tile then .fault .noSuchUnit else .next (s.deliverControl tile)

/-- LINK_AUDIT (R190): see `State.linkAudit`. -/
def execLinkAudit (l : LinkAt) (s : State) : Host.Outcome State Fault Refusal :=
  if linkOk l then .next (s.linkAudit l) else .fault .noSuchUnit

/-- AUDIT_REPORT (R190): see `State.auditReport`. -/
def execAuditReport (l : LinkAt) (s : State) : Host.Outcome State Fault Refusal :=
  if linkOk l then .next (s.auditReport l) else .fault .noSuchUnit

/-- LINK_PARITY_FAILURE (R189): see `State.parityFailure`. -/
def execLinkParityFailure (l : LinkAt) (f : LinkFault) (s : State) : Host.Outcome State Fault Refusal :=
  if linkOk l then .next (s.parityFailure l f) else .fault .noSuchUnit

/-- QUEUE_OVERFLOW (R191): see `State.queueOverflow`. -/
def execQueueOverflow (tile col row : Nat) (d : LinkDir) (s : State) : Host.Outcome State Fault Refusal :=
  if 2048 ≤ tile || 20 ≤ col || 10 ≤ row then .fault .noSuchUnit
  else .next (s.queueOverflow (tile, col, row) (dirOf d))

end Sys2Proof.Machine
end

