-- ==== Sys2Proof/Machine/Far.lean ====
section
/-! DEFINITION. The ends of far writes (R320, R323, R331, R335): performed at the controller of the other die, or
ended as a LINK error. -/

namespace Sys2Proof.Machine

/-- The image whose chain made a far write, where it still runs, with the TE. -/
def State.farImage (s : State) (w : FarWrite) : Option (Image × TeId) :=
  match w.maker with
  | .chain img col row _ => (s.liveImage? img).map fun m => (m, (w.tile, col, row))
  | _ => none

/-- The state with an image stopped for an atomic of its chain that sent no value, and the slot that waited for that
free (R212, R331). -/
def State.farUnanswered (s : State) (w : FarWrite) (a : FarAmo) : State :=
  match s.farImage w with
  | none => s
  | some (m, p) => (s.stopImage m).unanswered p a

/-- A chain's atomic performed at the controller of another die, on what memory holds: the old value, and the state
(R215, R335). -/
def State.amocFar (s : State) (place : Nat) (a : FarAmo) : W32 × State :=
  let old : W32 := BitVec.ofNat 32 (s.mem.readLe place 4)
  (old, { s with mem := s.mem.writeLe place 4 (amocValue a.amo old a.data).toNat })

/-- Whether a command is to end in a state that a fault has fixed. -/
def Cmd.hasFailed (c : Cmd) : Bool :=
  match c.stage with
  | .ending st _ => st.failed
  | _ => false

/-- The engine command that made a far write, while nothing has ended it. -/
def State.farCmd? (s : State) (w : FarWrite) : Option Cmd :=
  (w.maker.cmd?.bind fun id => s.cmd? w.tile id).filter fun c => !c.hasFailed

/-- The state without the elements that follow a far write in its command's order: an engine stops before the element
that it may not write (R293). -/
def State.dropLater (s : State) (w : FarWrite) : State :=
  s.modPkg fun p =>
    { p with far := p.far.filter fun x => !(x.tile == w.tile && x.maker == w.maker && decide (w.pos ≤ x.pos)) }

/-- The state with an SGO that goes on ended by poison at a far element of a stream of its own that has ended (R391). -/
def State.lateBad (s : State) (tile : Nat) (c : Cmd) : State :=
  (s.modCmd tile c.id fun x => { x with aux := if x.aux = 0 then badPoison else x.aux }).sgoCheck tile c.id

/-- What a far write that is not performed for poison does to its maker: a record goes to the log, an engine stops before
the element, and the image of an atomic stops (R212, R293, R323, R391). -/
def State.refuseFar (s : State) (w : FarWrite) : State :=
  match s.farCmd? w, w.maker with
  | some c, .stream _ i =>
    let s1 := s.dropLater w
    if (s1.stream w.tile i).running && (s1.stream w.tile i).starter == c.id then
      s1.streamFault w.tile i ⟨errPoison, w.va⟩
    else (s1.engineLog w.tile c 0x05 w.va.toNat).lateBad w.tile c
  | some c, _ => (s.dropLater w).elementFault w.tile { c with pos := w.pos, chunk := [] } errPoison w.va
  | none, _ =>
    let s1 := s.farRecord w 0x05 0
    match w.atomic with
    | none => s1
    | some a => s1.farUnanswered w a

/-- The state with a far write performed, unless it meets a poisoned granule; an atomic answers its TE (R215, R323). -/
def State.landFar (s : State) (w : FarWrite) : State :=
  if s.farPoisoned w then s.refuseFar w
  else
    match w.atomic with
    | none => s.landBytes w
    | some a =>
      let r := s.amocFar w.place a
      match r.2.farImage w with
      | none => r.2
      | some (m, p) => r.2.sendOld m p a r.1

/-- The state with a far write that gets no acknowledgement ended: whether it is performed is a free choice, a record
names its plane, its command ends FAULTED with cause LINK, and the image of an atomic that returns stops (R320,
R331). -/
def State.farFail (s : State) (w : FarWrite) : State :=
  let (n, s1) := s.draw
  let done := Config.freeBit n && !s1.farPoisoned w
  let s2 := if done then
      (match w.atomic with
       | none => s1.landBytes w
       | some a => (s1.amocFar w.place a).2)
    else s1
  let s3 := s2.farRecord w 0x13 (planeOf w.tile w.space w.place)
  match w.maker with
  | .access _ _ => s3
  | .command _ _ _ | .stream _ _ =>
    match s3.farCmd? w with
    | none => s3
    | some c => (s3.dropLater w).killCmd w.tile { c with pos := w.pos, chunk := [] } 0x13#6
  | .chain _ _ _ _ => if w.atomic.any FarAmo.returning then s3.farUnanswered w (w.atomic.getD ⟨0#3, 0#32, true, false⟩) else s3

/-- The state with the far writes that a test names taken off and ended one after the other, `n` at most: the end of one
may drop others. -/
def State.endEach (s : State) (test : FarWrite → Bool) (f : State → FarWrite → State) : Nat → State
  | 0 => s
  | n + 1 =>
    match s.pkg.far.find? test with
    | none => s
    | some w => (f (s.modPkg fun p => { p with far := p.far.erase w }) w).endEach test f n

/-- The state with the far writes that a test names ended in order. -/
def State.endFar (s : State) (test : FarWrite → Bool) (f : State → FarWrite → State) : State :=
  s.endEach test f s.pkg.far.length

/-- Whether a far write gets no acknowledgement: its way is lost, or 2^20 cycles have passed (R320, R331). -/
def State.farOverdue (s : State) (w : FarWrite) : Bool :=
  w.away && (s.wayLost w.tile w.space w.place || (w.space == .g && decide (w.since + 2 ^ 20 ≤ s.now)))

/-- The far writes at the start of a package's turn: those that get no acknowledgement end, and those whose time has
come are performed, in order (R331, R335). -/
def State.farTurn (s : State) : State :=
  (s.endFar s.farOverdue State.farFail).endFar (fun w => decide (w.due ≤ s.now)) State.landFar

end Sys2Proof.Machine
end

