-- ==== Sys2Proof/Machine/Network.lean ====
section
/-! DEFINITION. The control network (R252 to R254, R269), and what happens on the links between dies and
packages (R320, R329, R331). -/

namespace Sys2Proof.Machine

/-! ## The heads at a switch (R253) -/

/-- AGE_MAX of an egress (R269). -/
def Egress.ageMax (g : Egress) : Nat := bits g.settings 7 0

/-- The round-robin weight of an ingress port at an egress (R269). -/
def Egress.weight (g : Egress) (port : Nat) : Nat := bits g.settings (11 + 4 * port) (8 + 4 * port)

/-- A head of a queue: its ingress port, the queue, and the packet. -/
structure Head where
  port : Nat
  queue : Nat
  pkt : Packet
  deriving DecidableEq, Repr

/-- The class of a queue: the seventh holds channel 0's replies (R253). -/
def queueClass (queue : Nat) : Nat := if queue = 6 then 0 else queue

/-- The queue that a packet stands in (R253). -/
def Packet.queue (p : Packet) : Nat := if p.reply then 6 else p.vc

/-- The cycles from the grant of an egress to the next switch's request, by the level of the lower of the two
(R255, R260). -/
def hopCycles (level : Nat) : Nat :=
  match level with
  | 1 => 5
  | 2 => 7
  | _ => 9

/-- The queues of a port, the higher class first, and of class 0 the replies first (R253, R254). -/
def queueOrder : List Nat := [6, 0, 4, 3, 2, 1, 5]

/-- The classes, highest first (R254). -/
def classOrder : List Nat := [0, 4, 3, 2, 1, 5]

/-- The packets of a queue. -/
def Switch.queue (w : Switch) (port q : Nat) : List Packet :=
  vget (vget w.queues port (Vector.replicate 7 [])) q []

/-- The switch with one queue changed. -/
def Switch.modQueue (w : Switch) (port q : Nat) (f : List Packet → List Packet) : Switch :=
  { w with queues := vset w.queues port (vset (vget w.queues port (Vector.replicate 7 [])) q (f (w.queue port q))) }

/-- Where an egress leads: the level, unit and ingress port of the next switch (R253). -/
def nextHop (level unit egress : Nat) : Nat × Nat × Nat :=
  if egress = 5 then (level + 1, unit / 4, unit % 4) else (level - 1, 4 * unit + egress, 5)

/-- The flits of a packet that its sender has sent by a cycle: it sends one in each (R253). -/
def Packet.sent (p : Packet) (now : Nat) : Nat := Nat.min p.flits (now + 1 - p.sentAt)

/-- The flits of a queue that its sender does not count as free in a cycle: those that it has sent to it, and those that
have left it too lately (R172, R253). -/
def Switch.used (w : Switch) (now port q : Nat) : Nat :=
  ((w.queue port q).map fun p => p.sent now).sum +
    (w.returns.filter fun r => r.1 == port && r.2.1 == q && decide (now < r.2.2)).length

/-- Whether a queue of a switch has room for a packet by its sender's count, 16 flits in all (R253). -/
def Switch.fits (w : Switch) (now port : Nat) (p : Packet) : Bool := decide (w.used now port p.queue + p.flits ≤ 16)

/-- Whether the next hop's queue of the same kind has room for a whole packet (R253). -/
def State.roomFor (s : State) (level unit egress : Nat) (p : Packet) : Bool :=
  p.path.length ≤ 1 ||
    let (l, u, port) := nextHop level unit egress
    (s.switch l u).fits s.now port p

/-- The switch with the head of a queue gone in a cycle: its flits leave one by one, each is counted free two cycles
later, as R172 counts a slot, and the next packet is the head once they have left (R253, R254). -/
def Switch.takeHead (w : Switch) (now port q flits : Nat) : Switch :=
  { w.modQueue port q fun l =>
      match l.tail with
      | [] => []
      | p :: ps => { p with at_ := Nat.max p.at_ (now + flits) } :: ps with
    returns := (w.returns.filter fun r => decide (now < r.2.2)) ++
      (List.range flits).map fun i => (port, q, now + i + 2) }

/-- The head of a queue, if it has arrived and requests an egress (R253). -/
def State.headAt (s : State) (level unit egress port queue : Nat) : Option Head :=
  match (s.switch level unit).queue port queue with
  | [] => none
  | p :: _ =>
    if decide (p.at_ ≤ s.now) && p.path.head? = some (8 * level + egress) && s.roomFor level unit egress p then
      some ⟨port, queue, p⟩
    else none

/-- The heads that request an egress, by port and then by class (R254's H). -/
def State.heads (s : State) (level unit egress : Nat) : List Head :=
  (List.range 6).flatMap fun port => queueOrder.filterMap fun q => s.headAt level unit egress port q

/-- Whether a packet's age is the AGE_MAX of the egress it wants. -/
def Switch.saturated (w : Switch) (p : Packet) : Bool :=
  match p.path with
  | [] => false
  | e :: _ => (vget w.egress (e % 8) {}).ageMax == p.age

/-- Whether an express request head waits behind the express reply head that has arrived at its port (R253). -/
def Switch.behindReply (w : Switch) (now : Nat) (h : Head) : Bool :=
  h.queue == 0 &&
    match w.queue h.port 6 with
    | [] => false
    | r :: _ => decide (r.at_ ≤ now) && !w.saturated r && !w.saturated h.pkt

/-! ## Arbitration (R254) -/

/-- The head that an egress grants, and whether its age promoted it (R254). -/
def Egress.choose (g : Egress) (w : Switch) (now : Nat) (hs : List Head) : Option (Head × Bool) :=
  match hs.find? fun h => g.ageMax == h.pkt.age with
  | some h => some (h, true)
  | none =>
    let free := hs.filter fun h => !w.behindReply now h
    match classOrder.find? fun v => free.any fun h => queueClass h.queue == v with
    | none => none
    | some v =>
      match ((List.range 6).map fun i => (vget g.ptr v 0 + i) % 6).find? fun p =>
          free.any fun h => h.port == p && queueClass h.queue == v with
      | none => none
      | some p => (free.find? fun h => h.port == p && queueClass h.queue == v).map fun h => (h, false)

/-- The egress after a grant by round robin: its pointer and credit of the class (R254). -/
def Egress.advance (g : Egress) (h : Head) : Egress :=
  let v := queueClass h.queue
  let c := (if h.port = vget g.ptr v 0 then vget g.credit v 0 else g.weight h.port) - 1
  let p := if c = 0 then (h.port + 1) % 6 else h.port
  { g with ptr := vset g.ptr v p, credit := vset g.credit v (if c = 0 then g.weight p else c) }

/-- The ages of the heads that were not granted, one more, to AGE_MAX at most (R254). -/
def Switch.ageHeads (w : Switch) (ageMax : Nat) : List Head → Switch
  | [] => w
  | h :: hs =>
    (w.modQueue h.port h.queue fun q =>
      match q with
      | [] => []
      | p :: ps => { p with age := Nat.min (p.age + 1) ageMax } :: ps).ageHeads ageMax hs

/-- The cycles from the grant of a slice egress to the result (R260). -/
def grantToResult (level : Nat) : Nat :=
  match level with
  | 1 => 17
  | 2 => 26
  | 3 => 37
  | _ => 52

/-- The cycles from the grant of a reply's first egress, of a switch of a level, to its result (R260). -/
def downCycles (level : Nat) : Nat :=
  match level with
  | 1 => 3
  | 2 => 8
  | 3 => 15
  | _ => 24

/-- The cycles from the grant of the last egress of a request to its reply's first request (R259, R260): the
whole less the ways in and out of the die root for what leaves the tree there. -/
def replyAfter (level egress tile : Nat) (space : Space) (place : Nat) : Nat :=
  if egress = 4 then grantToResult level - downCycles level else latencyOf tile space place - 2 * downCycles 4

/-- A TE without the first of its requests that is on its way, whose reserved slot is free again (R349). -/
def TE.dropRequest (e : TE) : TE :=
  match e.outM.find? fun r => r.net == .onWay with
  | none => e
  | some r => { e with outM := e.outM.erase r, reservedM := e.reservedM - 1 }

/-- The requests of a TE with the first that is on its way at its home. -/
def arriveFirst : List ChainReq → List ChainReq
  | [] => []
  | r :: rs => if r.net = .onWay then { r with net := .arrived } :: rs else r :: arriveFirst rs

/-- The state with an engine's request at its end: the access that it was made for is a stage further (R267). -/
def State.engineArrived (s : State) (tile : Nat) (who : EngineId) : State :=
  match who with
  | .command id => s.modCmd tile id fun c => if c.ask = .onWay then { c with ask := .arrived } else c
  | .element i began k =>
    s.modStream tile i fun st => if st.began = began then { st with onWay := st.onWay.erase k } else st
  | .sub i began n =>
    s.modStream tile i fun st =>
      if st.began = began then
        { st with subs := st.subs.map fun u => if u.sub == n && u.ask == .onWay then { u with ask := .arrived } else u }
      else st

/-- The state with the reply to an engine's request on its way: the data of a read of up to 64 bytes, or a completion
(R252, R266). -/
def State.engineReply (s : State) (level egress : Nat) (p : Packet) (target : Nat) (space : Space) (place bytes : Nat)
    (write : Bool) : State :=
  let n := if write || 64 < bytes then 1 else flitsOf bytes
  if space = .sp then
    s.present target { vc := 2, flits := n, owner := p.owner, path := pathBetween target p.tile, payload := .plain }
  else
    s.replyFrom p.tile false space place (s.now + replyAfter level egress p.tile space place) p.owner .plain n

/-- The state with a packet's payload at its end: a load's reply sets out, after any wait for its bank, and, at its
own end, leaves three cycles to its result (R259, R260, R265); a store may be performed; a chain access is at its home,
and a reply of that in the slot of in.m that waits for it; an arrival reaches its barrier slot; a control token reaches
the tile (R177, R256, R421). -/
def State.arrive (s : State) (level egress : Nat) (p : Packet) : State :=
  match p.payload with
  | .load tile slot k =>
    match (s.thread tile slot).outstanding.find? fun o => o.id == k with
    | none => s
    | some o =>
      let b := s.takeBank (if o.space = .sh then s.bankOf tile (s.thread tile slot).gid .sh o.place else none)
        (s.thread tile slot).gid
      b.2.replyFrom tile (p.vc == 0) o.space o.place (s.now + replyAfter level egress tile o.space o.place + b.1)
        p.owner (.loadReply tile slot k)
  | .loadReply tile slot k =>
    s.modThread tile slot fun th =>
      { th with outstanding := th.outstanding.map fun o =>
          if o.id == k then { o with inNet := false, due := s.now + downCycles 1 } else o }
  | .store tile slot sid =>
    s.modThread tile slot fun th =>
      { th with inflight := th.inflight.map fun f => if f.sid == sid then { f with inNet := false } else f }
  | .chain tile col row =>
    s.modTe tile col row fun e =>
      { e with outM := arriveFirst e.outM }
  | .chainReply img col row t =>
    if (s.teAt (p.tile, col, row)).image = some img then s.fillM (p.tile, col, row) t else s
  | .engine who target space place bytes write =>
    (s.engineReply level egress p target space place bytes write).engineArrived p.tile who
  | .stop part block => s.modPart part fun x => { x with reached := x.reached ++ [block] }
  | .arrival gid _ _ => s.modGroup gid fun g => { g with arrivals := g.arrivals ++ [s.now] }
  | .token c => s.modTile c.tile fun x => { x with incoming := x.incoming ++ [{ c with due := s.now + downCycles 1 }] }
  | .plain => s

/-- The block into or out of which an egress leads: those of the block switches' parent ports and of the plot
switches' children have gateways (R349). -/
def gatewayBlock (level unit egress : Nat) : Option Nat :=
  if level = 2 && egress == 5 then some unit else if level = 3 && decide (egress < 4) then some (4 * unit + egress) else none

/-- Whether the gateway at an egress drops a packet: its identifier is not the block's (R349). -/
def State.stopsPacket (s : State) (level unit egress : Nat) (p : Packet) : Bool :=
  match gatewayBlock level unit egress with
  | none => false
  | some b => s.blockDrops p.owner b

/-- The state with the gateway's record of a packet, with both owner identifiers (R349, R352). -/
def State.packetRecord (s : State) (level unit egress : Nat) (p : Packet) : State :=
  let o := ((gatewayBlock level unit egress).map fun b => s.pkg.blockOwner.get 128 b).getD 128
  s.log { cause := 0x14, src := 13, unit := p.tile, owner := some p.owner, aux := 128 * o + p.owner, die := dieOf p.tile }

/-- A packet that a gateway drops (R349): a load traps ACCESS, a committed store ends, the image of a chain access or a
control token stops as for FSTOP, and each is recorded. An access
of an engine whose request is dropped ends where it is checked (R293). A reply that no request waits for, and a packet
without effect, just go. -/
def State.dropPacket (s : State) (level unit egress : Nat) (p : Packet) : State :=
  let s1 := s.packetRecord level unit egress p
  let stopImage (t : TeId) (a : State) : State :=
    match a.imageOf t with
    | none => a
    | some m => a.discardInstance m.id { cause := none, stops := true }
  match p.payload with
  | .load tile slot k | .loadReply tile slot k =>
    match (s.thread tile slot).outstanding.find? fun o => o.id == k with
    | none => s1
    | some o =>
      (s1.modThread tile slot fun th =>
        { th with outstanding := th.outstanding.filter fun x => x.id != k }).takeTrap tile slot
          (memTrap (errAccess 10) o.va 0#32)
  | .store tile slot sid => s1.modThread tile slot fun th => th.landed sid
  | .chain tile col row => stopImage (tile, col, row) (s1.modTe tile col row TE.dropRequest)
  | .chainReply _ col row _ =>
    stopImage (p.tile, col, row) (s1.modTe p.tile col row fun e => { e with reservedM := e.reservedM - 1 })
  | .token c => stopImage (c.source, c.col, c.row) s1
  | .arrival _ _ _ => s1
  | .engine who _ _ _ _ _ => s.engineArrived p.tile who
  | .stop .. | .plain => s

/-- The state with a granted packet past an egress: at its end, in the next hop's queue, or dropped there by a gateway
(R253, R349). -/
def State.pass (s : State) (level unit egress queue : Nat) (p : Packet) : State :=
  if s.stopsPacket level unit egress p then s.dropPacket level unit egress p
  else
    match p.path.tail with
    | [] => s.arrive level egress p
    | rest =>
      let (l, u, port) := nextHop level unit egress
      s.setSwitch l u ((s.switch l u).modQueue port queue fun q =>
        q ++ [{ p with path := rest, age := 0, sentAt := s.now, at_ := s.now + hopCycles (Nat.min level l) }])

/-- The egress with a settings word that was written in an earlier cycle in effect: every pointer at port 0 with
its full credit (R254, R269). -/
def Egress.settle (g : Egress) (now : Nat) : Egress :=
  match g.written with
  | none => g
  | some (c, v) =>
    if now ≤ c then g
    else
      let g' : Egress := { g with settings := v, written := none }
      { g' with ptr := Vector.replicate 6 0, credit := Vector.replicate 6 (g'.weight 0) }

/-- The switch with the written settings words that are due in effect. -/
def Switch.settle (w : Switch) (now : Nat) : Switch := { w with egress := w.egress.map fun g => g.settle now }

/-- EGRESS_ARBITRATION (R253, R254): one cycle of an egress. While data flits of a granted packet pass, it
grants nothing; else it grants one of the heads that request it, and in either case the others age. -/
def State.arbitrate (s : State) (level unit egress : Nat) : State :=
  let w := (s.switch level unit).settle s.now
  let g := vget w.egress egress {}
  let hs := (s.setSwitch level unit w).heads level unit egress
  let put (g' : Egress) (w' : Switch) : Switch := { w' with egress := vset w'.egress egress g' }
  if 0 < g.busy then
    s.setSwitch level unit (put { g with busy := g.busy - 1 } (w.ageHeads g.ageMax hs))
  else
    match g.choose w s.now hs with
    | none => s.setSwitch level unit (w.ageHeads g.ageMax hs)
    | some (h, promoted) =>
      let g' := { (if promoted then g else g.advance h) with busy := h.pkt.flits - 1 }
      let w1 := w.ageHeads g.ageMax (hs.filter fun x => x.port != h.port || x.queue != h.queue)
      let s1 := s.setSwitch level unit (put g' (w1.takeHead s.now h.port h.queue h.pkt.flits))
      let n := 6 * (4096 * level + unit) + egress
      let s2 := s1.count 7 n (queueClass h.queue)
      (if promoted then s2.count 7 n 6 else s2).pass level unit egress h.queue h.pkt

/-- Whether a switch of levels 1 to 4 exists, with an egress. -/
def switchOk (level unit egress : Nat) : Bool :=
  decide (1 ≤ level) && decide (level ≤ 4) && decide (unit < 2048 / 4 ^ level) && decide (egress < 6)

/-- The settings word that a write stores (R269): reserved bits dropped, AGE_MAX at least 4, each weight at
least 1. -/
def settingsWord (v : Word) : BitVec 64 :=
  let weight (p : Nat) : Nat := Nat.max 1 (bits v (11 + 4 * p) (8 + 4 * p))
  Word.ofN (Nat.max 4 (bits v 7 0) + ((List.range 6).map fun p => weight p * 2 ^ (8 + 4 * p)).sum)

/-- SWITCH_SETTINGS_WRITE (R254, R269): the word takes effect in the next cycle; ages stand. -/
def State.writeSettings (s : State) (level unit egress : Nat) (v : Word) : State :=
  let w := (s.switch level unit).settle s.now
  s.setSwitch level unit
    { w with egress := vset w.egress egress { (vget w.egress egress {}) with written := some (s.now, settingsWord v) } }

/-! ## Entering the network (R253, R256) -/

/-- The presented packets that the queues of a memory interface take, each of 16 flits, in order, and those that
wait; `full` lists the queues that an earlier packet waits for (R253). -/
def fillQueues (queued : List Packet) (full : List Nat) : List Packet → List Packet × List Packet
  | [] => (queued, [])
  | p :: ps =>
    let n := ((queued.filter fun x => x.queue == p.queue).map (·.flits)).sum
    if full.contains p.queue || 16 < n + p.flits then
      let r := fillQueues queued (p.queue :: full) ps
      (r.1, p :: r.2)
    else fillQueues (queued ++ [p]) full ps

/-- The heads of the queues of a memory interface that may go, in the order of the list. -/
def linkHeads (ok : Packet → Bool) : List Nat → List Packet → List Packet
  | _, [] => []
  | seen, p :: ps =>
    (if !seen.contains p.queue && ok p then [p] else []) ++ linkHeads ok (p.queue :: seen) ps

/-- The store of a thread that a packet carries: its slot and its number in the thread. -/
def Packet.store? (p : Packet) : Option (Nat × Nat) :=
  match p.payload with
  | .store _ slot sid => some (slot, sid)
  | _ => none

/-- Whether one head goes before another at a tile's link (R256): stores of one thread in program order, and every other
two by the order in which they were presented. -/
def Packet.older (p q : Packet) : Bool :=
  match p.store?, q.store? with
  | some (i, m), some (j, n) => if i = j then decide (m < n) else decide (p.stamp < q.stamp)
  | _, _ => decide (p.stamp < q.stamp)

/-- The oldest of a list of heads. -/
def oldestOf : List Packet → Option Packet
  | [] => none
  | p :: ps =>
    match oldestOf ps with
    | none => some p
    | some q => some (if q.older p then q else p)

/-- A cycle of a tile's link: it takes the oldest presented head whose queue in the quad switch has room, and a
packet of n flits holds it for n cycles (R253, R255, R256). The rule ranks the stores of a thread; the other heads go by
the order in which they were presented, the stores of different threads too (DESIGN CHOICE, log entry 95). -/
def State.linkTurn (s : State) (tile : Nat) : State :=
  let x := s.tile tile
  let r := fillQueues x.interface [] x.presented
  let w := s.switch 1 (tile / 4)
  if 0 < x.linkBusy then s.setTile tile { x with interface := r.1, presented := r.2, linkBusy := x.linkBusy - 1 }
  else
    match oldestOf (linkHeads (fun p => decide (p.at_ ≤ s.now) && w.fits s.now (tile % 4) p) [] r.1) with
    | none => s.setTile tile { x with interface := r.1, presented := r.2 }
    | some p =>
      (s.setTile tile { x with interface := r.1.erase p, presented := r.2, linkBusy := p.flits - 1 }).setSwitch 1 (tile / 4)
        (w.modQueue (tile % 4) p.queue fun q => q ++ [{ p with sentAt := s.now, at_ := s.now + 2 }])

/-- The waiting packets of a switch that are due put into their queues, where there is room, in order: the link of a port
carries one flit in a cycle (R253, R258). `full` lists the ports and queues that an earlier one waits for. -/
def admitAll (now : Nat) (w : Switch) (full : List (Nat × Nat)) : List (Nat × Packet) → Switch
  | [] => w
  | (port, p) :: rest =>
    if p.at_ ≤ now && !full.contains (port, p.queue) && decide (vget w.linkFree port 0 ≤ now) && w.fits now port p then
      admitAll now
        { w.modQueue port p.queue fun q => q ++ [{ p with sentAt := now }] with
          linkFree := vset w.linkFree port (now + p.flits) } full rest
    else
      admitAll now { w with waiting := w.waiting ++ [(port, p)] }
        (if p.at_ ≤ now then (port, p.queue) :: full else full) rest

/-- The packets of a slice or of a die root's port 5 that enter their switch (R253). -/
def State.enterSwitch (s : State) (level unit : Nat) : State :=
  let w := s.switch level unit
  if w.waiting.isEmpty then s else s.setSwitch level unit (admitAll s.now { w with waiting := [] } [] w.waiting)

/-! ## Requests that get no reply (R331) -/

/-- Whether a place lies beside another die, in another package or in host memory. -/
def crossDie (tile : Nat) (space : Space) (place : Nat) : Bool :=
  match space with
  | .sp | .sh => false
  | .h => true
  | .g => 2 ^ 60 ≤ place || dieOfPa place != dieOf tile

/-- Whether a request that left in cycle `since` ends for want of a reply: its way is lost, or, to another die
or package, 2^20 cycles have passed (R320, R331). -/
def State.replyOverdue (s : State) (tile : Nat) (space : Space) (place since : Nat) (lost : Bool) : Bool :=
  crossDie tile space place &&
    (if lost then s.wayLost tile space place else space == .g && decide (since + 2 ^ 20 ≤ s.now))

/-- The LINK error of R331: reason 1 for the timeout, 2 for a lost way (R341). -/
def linkError (pairLost : Bool) : AccessErr := errLink (if pairLost then 2 else 1)

/-- A load or returning atomic whose reply never arrives: it traps LINK (R99, R331), as a memory fault of the region that
is open at that moment, its own or a later one (DESIGN CHOICE, log entry 90). -/
def State.loadTimeout (s : State) (tile slot k : Nat) (pairLost : Bool) : State :=
  match (s.thread tile slot).outstanding.find? fun o => o.id == k && o.inNet with
  | none => s
  | some o =>
    if s.replyOverdue tile o.space o.place (o.due - latencyOf tile o.space o.place) pairLost then
      (s.modThread tile slot fun th =>
        { th with outstanding := th.outstanding.filter fun x => x.id != o.id }).takeTrap tile slot
          (memTrap (linkError pairLost) o.va 0#32)
    else s

/-- A committed store or atomic whose acknowledgement never arrives: whether it is performed is a free choice,
and a record names the plane (R331). -/
def State.storeTimeout (s : State) (tile slot : Nat) (space : Space) (pairLost : Bool) : State :=
  let th := s.thread tile slot
  match th.streamOf space with
  | [] => s
  | f :: _ =>
    if f.passed then s.endFar (fun w => w.tile == tile && w.maker == .access slot f.sid && s.farOverdue w) State.farFail
    else if s.replyOverdue tile space f.buf.place f.since pairLost then
      let (n, s1) := s.draw
      let s2 := if Config.freeBit n then s1.perform tile slot th.gid f.buf else s1
      (s2.modThread tile slot fun x => x.landed f.sid).log
        { cause := 0x13, src := 12, unit := tile, owner := s.ownerOf th.gid, sub := slot, addr := f.buf.va.toNat,
          aux := planeOf tile space f.buf.place, die := dieOf tile }
    else s

/-- The next request of an engine command: its tile, the buffer that translates it, its space and its address within
that. -/
def State.nextRequests (s : State) (tile : Nat) (c : Cmd) : List (TlbId × Nat × Space × Word) :=
  let e := c.pos / c.srcBytes
  match c.func.toNat with
  | 0x21 | 0x22 | 0x23 =>
    if c.chunk.isEmpty then [(.tile tile, copyTile tile c.sspace c.a, c.sspace, copyOffset c.sspace (c.srcAddr e))]
    else [(.tile tile, copyTile tile c.dspace c.dstBase, c.dspace, copyOffset c.dspace (c.dstAddr e))]
  | 0x29 | 0x2A => (c.rows[c.pos]?).toList.map fun u => (.sieve (tile / 64), tile, .g, c.rowAddr u)
  | 0x13 =>
    ((List.range 8).filter fun i => (s.stream tile i).running && (s.stream tile i).starter == c.id).filterMap fun i =>
      let st := s.stream tile i
      (st.addr st.fetched).map fun a => (.tile tile, tile, st.spaceOf, a)
  | _ => []

/-- An engine command whose request gets no reply ends FAULTED with cause LINK (R331). -/
def State.commandTimeout (s : State) (tile : Nat) (c : Cmd) (pairLost : Bool) : State :=
  let overdue (r : TlbId × Nat × Space × Word) : Bool :=
    (s.placeAt r.1 r.2.1 c.gid r.2.2.1 r.2.2.2).any fun p => s.replyOverdue tile r.2.2.1 p c.asked pairLost
  let late (w : FarWrite) : Bool := w.tile == tile && w.maker.cmd? == some c.id && s.farOverdue w
  if s.pkg.far.any late then s.endFar late State.farFail
  else if c.stage = .running && (s.nextRequests tile c).any overdue then
    (s.engineLog tile c 0x13 0).killCmd tile c 0x13#6
  else s

/-- REQUEST_TIMEOUT (R331). -/
def State.requestTimeout (s : State) (t : TimeoutTarget) (pairLost : Bool) : State :=
  match t with
  | .load tile slot k => s.loadTimeout tile slot k pairLost
  | .store tile slot space => s.storeTimeout tile slot (spaceOf space) pairLost
  | .command tile cmd =>
    match s.cmd? tile cmd with
    | none => s
    | some c => s.commandTimeout tile c pairLost
  | .chain tile col row =>
    let late (w : FarWrite) : Bool :=
      w.tile == tile && s.farOverdue w &&
        match w.maker with
        | .chain _ c r _ => c == col && r == row
        | _ => false
    (s.endFar late State.farFail).chainTimeout (tile, col, row) fun place since =>
      s.replyOverdue tile .g place since pairLost

/-- Whether the target of a timeout names a tile and slot of the package. -/
def timeoutOk (t : TimeoutTarget) : Bool :=
  match t with
  | .load tile slot _ | .store tile slot _ => decide (tile < 2048) && decide (slot < 4)
  | .command tile _ => decide (tile < 2048)
  | .chain tile col row => decide (tile < 2048) && decide (col < 20) && decide (row < 10)

/-! ## Requests of other packages (R329, R107) -/

/-- The atomic operation of a code (R105). -/
def amoOfCode (c : BitVec 3) : AmoOp :=
  match c.toNat with
  | 0 => .add
  | 1 => .and
  | 2 => .or
  | 3 => .xor
  | 4 => .min
  | 5 => .max
  | 6 => .swap
  | _ => .cas

/-- Whether the supervisor has granted the region of the target to the request's owner (R329), and the map
gives the target a stack address (R322). -/
def State.admits (s : State) (r : RemoteReq) : Bool :=
  s.pkg.remoteGrants.contains (r.pkg, r.owner, locPa r.pa / 2 ^ 30) && s.frameOk (locPa r.pa)

/-- The state with a reply sent to another package: 0 with the bytes, 1 refused, 2 poison. -/
def State.replyRemote (s : State) (r : RemoteReq) (status : Nat) (bs : List Byte) : State :=
  s.modPkg fun p => { p with remoteReplies := p.remoteReplies ++ [(r.pkg, status, bs)] }

/-- The state with the record of a request that was dropped or met poison (R323, R329). -/
def State.logRemote (s : State) (r : RemoteReq) (cause src : Nat) : State :=
  s.log { cause := cause, src := src, unit := dieOfPa (locPa r.pa), owner := none, addr := locPa r.pa,
          aux := 128 * r.pkg + r.owner, die := dieOfPa (locPa r.pa) }

/-- Whether the sender of a request waits for a value. -/
def wantsValue (r : RemoteReq) : Bool :=
  match r.kind with
  | .load => true
  | .store => false
  | .amo _ returning => returning

/-- An admitted request performed at its controller (R107, R329). -/
def State.serveRemote (s : State) (r : RemoteReq) : State :=
  let a := locPa r.pa
  match r.kind with
  | .load => s.replyRemote r 0 (s.mem.readBytes a r.size)
  | .store => ({ s with mem := s.mem.writeLe a r.size r.data.toNat }).replyRemote r 0 []
  | .amo op returning =>
    let old := s.mem.readLe a 8
    let new := (amoOfCode op).apply 64 old r.data.toNat r.compare.toNat
    ({ s with mem := s.mem.writeLe a 8 new }).replyRemote r 0 (if returning then leBytes 8 old else [])

/-- Whether the way from the I/O die that a request of another package has come to, to the die of its target, is lost;
which of the two I/O dies that is, its sender knows: a free choice (R318, R320, R329). -/
def State.remoteLost (s : State) (r : RemoteReq) : Bool × State :=
  let die := dieOfPa (locPa r.pa)
  if s.ioWayLost die 0 || s.ioWayLost die 1 then
    (s.ioWayLost die (b2n (Config.freeBit s.draw.1)), s.draw.2)
  else (false, s)

/-- The answer to a request of another package that has reached its die: refused without a grant, with a record unless
the sender traps; not performed on a poisoned granule (R323); else performed. -/
def State.answerRemote (s : State) (r : RemoteReq) : State :=
  if !s.admits r then
    (if wantsValue r then s else s.logRemote r 0x14 13).replyRemote r 1 []
  else if s.poisonedAt (locPa r.pa) then
    (if wantsValue r then s else s.logRemote r 0x05 11).replyRemote r 2 []
  else s.serveRemote r

/-- REMOTE_REQUEST_ARRIVAL (R329): answered, or, where its way is lost, neither performed nor answered, so that its
sender ends it as R331 says (R320). -/
def State.remoteArrival (s : State) (r : RemoteReq) : State :=
  let x := s.remoteLost r
  if x.1 then x.2 else x.2.answerRemote r

/-! ## UCIe (R318, R320) -/

/-- The die that a module leads to, and the module at its far end (R318; log entry 10). -/
def farModule (die md : Nat) : Nat × Nat :=
  let k := md / 2
  let other := if k < die then k else k + 1
  (other, (pairModules other die).getD (md % 2) 0)

/-- The state with a module of a die retired. -/
def State.loseModule (s : State) (die md : Nat) : State :=
  s.modPkg fun p =>
    let d := vget p.dies die {}
    { p with dies := vset p.dies die { d with lost := if d.lost.contains md then d.lost else md :: d.lost } }

/-- The state with the record of a lost way between two dies, an I/O die numbered 8 or 9 (R320). -/
def State.logLost (s : State) (die other : Nat) : State :=
  s.log { cause := 0x13, src := 12, unit := die, owner := none, aux := other, die := die }

/-- UCIE_RETRAIN_FAILURE (R320): the module is retired at both ends, and a way that has lost all its modules is
recorded. Modules 14 and 15 of a die lead to the I/O die of its half, and the four between the I/O dies are named as
those of die 8 (R318; DESIGN CHOICE, log entry 10). -/
def State.retrainFailure (s : State) (die md : Nat) : State :=
  if die = 8 then
    let s1 := s.modPkg fun p => { p with ioLost := if p.ioLost.contains md then p.ioLost else md :: p.ioLost }
    let gone (x : State) : Bool := [0, 1, 2, 3].all fun m => x.pkg.ioLost.contains m
    if gone s1 && !gone s then s1.logLost 8 9 else s1
  else if 14 ≤ md then
    let s1 := s.loseModule die md
    if s1.ioWayLost die (die / 4) && !s.ioWayLost die (die / 4) then s1.logLost die (8 + die / 4) else s1
  else
    let (other, far) := farModule die md
    let s1 := (s.loseModule die md).loseModule other far
    if s1.pairLost die other && !s.pairLost die other then s1.logLost die other else s1

/-- Whether a UCIe module exists: 16 of each compute die, and 4 between the I/O dies (R318). -/
def moduleOk (die md : Nat) : Bool := (decide (die < 8) && decide (md < 16)) || (die == 8 && decide (md < 4))

/-- UCIE_FLIT_REPLAY (R320, R351): a replay only delays the link, and is counted as corrected. -/
def State.flitReplay (s : State) (die md : Nat) : State := s.correctedEvent ⟨unitUcie, 16 * die + md, 0⟩

/-! ## The events -/

/-- EGRESS_ARBITRATION (R254): see `State.arbitrate`. -/
def execEgressArbitration (level unit egress : Nat) (s : State) : Host.Outcome State Fault Refusal :=
  if switchOk level unit egress then .next (s.arbitrate level unit egress) else .fault .noSuchUnit

/-- SWITCH_SETTINGS_WRITE (R269): see `State.writeSettings`. -/
def execSwitchSettingsWrite (level unit egress : Nat) (v : BitVec 64) (s : State) :
    Host.Outcome State Fault Refusal :=
  if switchOk level unit egress then .next (s.writeSettings level unit egress v) else .fault .noSuchUnit

/-- REQUEST_TIMEOUT (R331): see `State.requestTimeout`. -/
def execRequestTimeout (t : TimeoutTarget) (pairLost : Bool) (s : State) : Host.Outcome State Fault Refusal :=
  if timeoutOk t then .next (s.requestTimeout t pairLost) else .fault .noSuchUnit

/-- REMOTE_REQUEST_ARRIVAL (R329): see `State.remoteArrival`. -/
def execRemoteRequestArrival (r : RemoteReq) (s : State) : Host.Outcome State Fault Refusal :=
  .next (s.remoteArrival r)

/-- UCIE_RETRAIN_FAILURE (R320): see `State.retrainFailure`. -/
def execUcieRetrainFailure (die md : Nat) (s : State) : Host.Outcome State Fault Refusal :=
  if moduleOk die md then .next (s.retrainFailure die md) else .fault .noSuchUnit

/-- UCIE_FLIT_REPLAY (R320): see `State.flitReplay`. -/
def execUcieFlitReplay (die md : Nat) (s : State) : Host.Outcome State Fault Refusal :=
  if moduleOk die md then .next (s.flitReplay die md) else .fault .noSuchUnit

end Sys2Proof.Machine
end

