-- ==== Sys2Proof/Machine/Crypto.lean ====
section
/-! DEFINITION. The algorithms of R416 and R417: SHA-384, and ECDSA over the 384-bit Brainpool curve of RFC 5639
in its non-twisted form. The manual names the algorithms; their constants are those of the standards that define
them (PRESUMED, log entry 15). -/

namespace Sys2Proof.Machine

/-- The big-endian value of an octet string. -/
def beNat (bs : List Byte) : Nat := leNat bs.reverse

/-- The octets of a value, most significant first. -/
def beBytes (n v : Nat) : List Byte := (leBytes n v).reverse

/-! ## SHA-384 -/

/-- The eight words that the hash begins with. -/
def shaStart : List Word :=
  [0xCBBB9D5DC1059ED8#64, 0x629A292A367CD507#64, 0x9159015A3070DD17#64, 0x152FECD8F70E5939#64,
   0x67332667FFC00B31#64, 0x8EB44A8768581511#64, 0xDB0C2E0D64F98FA7#64, 0x47B5481DBEFA4FA4#64]

/-- The constants of the 80 rounds. -/
def shaConstants : List Word :=
  [0x428A2F98D728AE22#64, 0x7137449123EF65CD#64, 0xB5C0FBCFEC4D3B2F#64, 0xE9B5DBA58189DBBC#64,
   0x3956C25BF348B538#64, 0x59F111F1B605D019#64, 0x923F82A4AF194F9B#64, 0xAB1C5ED5DA6D8118#64] ++
  [0xD807AA98A3030242#64, 0x12835B0145706FBE#64, 0x243185BE4EE4B28C#64, 0x550C7DC3D5FFB4E2#64,
   0x72BE5D74F27B896F#64, 0x80DEB1FE3B1696B1#64, 0x9BDC06A725C71235#64, 0xC19BF174CF692694#64] ++
  [0xE49B69C19EF14AD2#64, 0xEFBE4786384F25E3#64, 0x0FC19DC68B8CD5B5#64, 0x240CA1CC77AC9C65#64,
   0x2DE92C6F592B0275#64, 0x4A7484AA6EA6E483#64, 0x5CB0A9DCBD41FBD4#64, 0x76F988DA831153B5#64] ++
  [0x983E5152EE66DFAB#64, 0xA831C66D2DB43210#64, 0xB00327C898FB213F#64, 0xBF597FC7BEEF0EE4#64,
   0xC6E00BF33DA88FC2#64, 0xD5A79147930AA725#64, 0x06CA6351E003826F#64, 0x142929670A0E6E70#64] ++
  [0x27B70A8546D22FFC#64, 0x2E1B21385C26C926#64, 0x4D2C6DFC5AC42AED#64, 0x53380D139D95B3DF#64,
   0x650A73548BAF63DE#64, 0x766A0ABB3C77B2A8#64, 0x81C2C92E47EDAEE6#64, 0x92722C851482353B#64] ++
  [0xA2BFE8A14CF10364#64, 0xA81A664BBC423001#64, 0xC24B8B70D0F89791#64, 0xC76C51A30654BE30#64,
   0xD192E819D6EF5218#64, 0xD69906245565A910#64, 0xF40E35855771202A#64, 0x106AA07032BBD1B8#64] ++
  [0x19A4C116B8D2D0C8#64, 0x1E376C085141AB53#64, 0x2748774CDF8EEB99#64, 0x34B0BCB5E19B48A8#64,
   0x391C0CB3C5C95A63#64, 0x4ED8AA4AE3418ACB#64, 0x5B9CCA4F7763E373#64, 0x682E6FF3D6B2B8A3#64] ++
  [0x748F82EE5DEFB2FC#64, 0x78A5636F43172F60#64, 0x84C87814A1F0AB72#64, 0x8CC702081A6439EC#64,
   0x90BEFFFA23631E28#64, 0xA4506CEBDE82BDE9#64, 0xBEF9A3F7B2C67915#64, 0xC67178F2E372532B#64] ++
  [0xCA273ECEEA26619C#64, 0xD186B8C721C0C207#64, 0xEADA7DD6CDE0EB1E#64, 0xF57D4F7FEE6ED178#64,
   0x06F067AA72176FBA#64, 0x0A637DC5A2C898A6#64, 0x113F9804BEF90DAE#64, 0x1B710B35131C471B#64] ++
  [0x28DB77F523047D84#64, 0x32CAAB7B40C72493#64, 0x3C9EBE0A15C9BEBC#64, 0x431D67C49C100D4C#64,
   0x4CC5D4BECB3E42B6#64, 0x597F299CFC657E2A#64, 0x5FCB6FAB3AD6FAEC#64, 0x6C44198C4A475817#64]

/-- The message word that follows a window of sixteen. -/
def shaNext (ws : List Word) : Word :=
  let w1 := ws.getD 1 0#64
  let w14 := ws.getD 14 0#64
  (w14.rotateRight 19 ^^^ w14.rotateRight 61 ^^^ (w14 >>> 6)) + ws.getD 9 0#64 +
    (w1.rotateRight 1 ^^^ w1.rotateRight 8 ^^^ (w1 >>> 7)) + ws.getD 0 0#64

/-- One round on the eight working words, with its constant and its message word. -/
def shaRound (k w : Word) : List Word → List Word
  | [a, b, c, d, e, f, g, h] =>
    let t1 := h + (e.rotateRight 14 ^^^ e.rotateRight 18 ^^^ e.rotateRight 41) + ((e &&& f) ^^^ (~~~e &&& g)) + k + w
    let t2 := (a.rotateRight 28 ^^^ a.rotateRight 34 ^^^ a.rotateRight 39) + ((a &&& b) ^^^ (a &&& c) ^^^ (b &&& c))
    [t1 + t2, a, b, c, d + t1, e, f, g]
  | l => l

/-- The rounds of a block. -/
def shaRounds : List Word → List Word → List Word → List Word
  | [], _, h => h
  | k :: ks, ws, h => shaRounds ks (ws.tail ++ [shaNext ws]) (shaRound k (ws.headD 0#64) h)

/-- The sixteen words of a block of 128 octets. -/
def blockWords (bs : List Byte) : List Word := (List.range 16).map fun i => Word.ofN (beNat ((bs.drop (8 * i)).take 8))

/-- The hash after `n` blocks of 128 octets. -/
def shaBlocks : Nat → List Byte → List Word → List Word
  | 0, _, h => h
  | n + 1, bs, h =>
    shaBlocks n (bs.drop 128) (List.zipWith (· + ·) h (shaRounds shaConstants (blockWords (bs.take 128)) h))

/-- A message padded to whole blocks: a 1 bit, zeros, and its length in bits. -/
def shaPad (m : List Byte) : List Byte :=
  m ++ [0x80#8] ++ List.replicate ((239 - m.length % 128) % 128) 0#8 ++ beBytes 16 (8 * m.length)

/-- SHA-384 of an octet string, as 48 octets (R416). -/
def sha384 (m : List Byte) : List Byte :=
  ((shaBlocks ((shaPad m).length / 128) (shaPad m) shaStart).take 6).flatMap fun w => beBytes 8 w.toNat

/-! ## The curve -/

/-- The prime of the curve's field. -/
def curveP : Nat :=
  0x8CB91E82A3386D280F5D6F7E50E641DF152F7109ED5456B412B1DA197FB71123ACD3A729901D1A71874700133107EC53

/-- The coefficient A of the curve. -/
def curveA : Nat :=
  0x7BC382C63D8C150C3C72080ACE05AFA0C2BEA28E4FB22787139165EFBA91F90F8AA5814A503AD4EB04A8C7DD22CE2826

/-- The coefficient B of the curve. -/
def curveB : Nat :=
  0x04A8C7DD22CE28268B39B55416F0447C2FB77DE107DCD2A62E880EA53EEB62D57CB4390295DBC9943AB78696FA504C11

/-- The x coordinate of the base point. -/
def curveGx : Nat :=
  0x1D1C64F068CF45FFA2A63A81B7C13F6B8847A3E77EF14FE3DB7FCAFE0CBD10E8E826E03436D646AAEF87B2E247D4AF1E

/-- The y coordinate of the base point. -/
def curveGy : Nat :=
  0x8ABE1D7520F9C2A45CB1EB8E95CFD55262B70B29FEEC5864E19C054FF99129280E4646217791811142820341263C5315

/-- The order of the base point, a prime. -/
def curveN : Nat :=
  0x8CB91E82A3386D280F5D6F7E50E641DF152F7109ED5456B31F166E6CAC0425A7CF3AB6AF6B7FC3103B883202E9046565

/-- A power modulo a number, over the low `k` bits of the exponent. -/
def powMod (m : Nat) : Nat → Nat → Nat → Nat
  | 0, _, _ => 1
  | k + 1, x, e => (if e % 2 = 1 then x else 1) * powMod m k (x * x % m) (e / 2) % m

/-- The inverse modulo a prime of 384 bits. -/
def invMod (m x : Nat) : Nat := powMod m 384 (x % m) (m - 2)

/-- A point of the curve; `none` is the point at infinity. -/
abbrev CurvePoint := Option (Nat × Nat)

/-- A difference modulo a number, of values below it. -/
def subMod (m x y : Nat) : Nat := (x + (m - y)) % m

/-- The third point of the line of a slope through a point and one of an x coordinate, mirrored. -/
def chord (slope x y x2 : Nat) : CurvePoint :=
  let x3 := subMod curveP (subMod curveP (slope * slope % curveP) x) x2
  some (x3, subMod curveP (slope * subMod curveP x x3 % curveP) y)

/-- The sum of two points. -/
def addPoints : CurvePoint → CurvePoint → CurvePoint
  | none, q => q
  | p, none => p
  | some (x1, y1), some (x2, y2) =>
    if x1 = x2 then
      if (y1 + y2) % curveP = 0 then none
      else chord ((3 * x1 * x1 + curveA) * invMod curveP (2 * y1) % curveP) x1 y1 x2
    else chord (subMod curveP y2 y1 * invMod curveP (subMod curveP x2 x1) % curveP) x1 y1 x2

/-- A multiple of a point, over the low `k` bits of the factor. -/
def mulPoint : Nat → Nat → CurvePoint → CurvePoint
  | 0, _, _ => none
  | k + 1, e, p => addPoints (if e % 2 = 1 then p else none) (mulPoint k (e / 2) (addPoints p p))

/-- The base point. -/
def basePoint : CurvePoint := some (curveGx, curveGy)

/-- Whether a pair of coordinates is a point of the curve. -/
def onCurve (x y : Nat) : Bool :=
  decide (x < curveP) && decide (y < curveP) && y * y % curveP == (x * x * x + curveA * x + curveB) % curveP

/-! ## ECDSA -/

/-- The number that stands for a message: its hash, which is as long as the order. -/
def messageNumber (m : List Byte) : Nat := beNat (sha384 m)

/-- Whether 96 octets are a valid signature under a key, x then y, over a message (R416). -/
def signatureOk (key msg sig : List Byte) : Bool :=
  let r := beNat (sig.take 48)
  let s := beNat ((sig.drop 48).take 48)
  let x := beNat (key.take 48)
  let y := beNat ((key.drop 48).take 48)
  let w := invMod curveN s
  key.length == 96 && sig.length == 96 && onCurve x y && decide (0 < r) && decide (r < curveN) && decide (0 < s) &&
    decide (s < curveN) &&
    match addPoints (mulPoint 384 (messageNumber msg * w % curveN) basePoint) (mulPoint 384 (r * w % curveN) (some (x, y))) with
    | none => false
    | some (a, _) => a % curveN == r

/-- A private key or a per-signature secret brought into the range 1 to the order less 1. -/
def keyOf (k : Nat) : Nat := 1 + k % (curveN - 1)

/-- The public key of a private key, x then y. -/
def publicKey (d : Nat) : List Byte :=
  match mulPoint 384 (keyOf d) basePoint with
  | none => []
  | some (x, y) => beBytes 48 x ++ beBytes 48 y

/-- The signature of a message under a private key, with a secret of its own: r then s (R416, R417). -/
def signMessage (d k : Nat) (msg : List Byte) : List Byte :=
  let r := match mulPoint 384 (keyOf k) basePoint with
    | none => 0
    | some (x, _) => x % curveN
  let s := invMod curveN (keyOf k) * (messageNumber msg + r * keyOf d) % curveN
  beBytes 48 r ++ beBytes 48 s

end Sys2Proof.Machine
end

