-- ==== Sys2Proof/Machine/Preempt.lean ====
section
/-! DEFINITION. Pre-emption (R343 to R348): the stop of a partition, the swap of its contexts, its resume, the
termination of a group and of a partition's groups, and the pre-emption at a node boundary. -/

namespace Sys2Proof.Machine

/-- The tiles of a partition (R349). -/
def Partition.tiles (p : Partition) : List Nat := p.blocks.flatMap fun b => (List.range 16).map (16 * b + ·)

/-! ## The stop (R343) -/

/-- The state with a stop wave on its way from a block's die root to the block, on channel 5 (R252, R343). -/
def State.sendStop (s : State) (p : Partition) (block : Nat) : State :=
  s.enterAt 4 (unitOf 4 (16 * block)) 5
    { vc := 5, owner := p.owner, tile := 16 * block, path := (downPath (16 * block) 4).take 2, at_ := s.now + 1,
      payload := .stop p.id block }

/-- STOP_WORD_WRITE (R343): the stop wave of a partition begins, toward every block. -/
def State.stopWord (s : State) (part : Nat) : State :=
  match s.part? part with
  | none => s
  | some p => p.blocks.foldl (fun a b => a.sendStop p b) (s.modPart part fun q => { q with stopping := true, reached := [] })

/-- The open region of a thread discarded and counted for a cause that raises no trap; at the limit of R228 the
thread traps REENTRY_LIMIT. A thread in supervisor state has no region (R217). -/
def State.discardCounted (s : State) (tile slot : Nat) (cause : BitVec 6) : State :=
  let th := s.thread tile slot
  if th.status ≠ .running || th.sup then s
  else if th.reentrymax.toNat ≤ th.reentry.toNat + 1 || th.reentry = 0xFF#8 then
    s.takeTrap tile slot { code := cause, style := .memory }
  else s.discard tile slot cause

/-- A thread as the stop wave finds it: its open region is discarded and counted, whether or not its barrier arrival
has been sent (R235, R343). -/
def State.stopWaveThread (s : State) (tile slot : Nat) : State := s.discardCounted tile slot 0x18#6

/-- The image of an instance that a stop wave meets: one that may commit does, and any other is discarded and
counted (R233, R235). -/
def State.stopWaveImage (s : State) (m : Image) : State :=
  if s.commitReady m then s.commitInstance m.id else s.discardInstance m.id { cause := some 0x18 }

/-- The open instances with a TE on a tile. -/
def State.instancesOn (s : State) (tile : Nat) : List Image :=
  s.images.filter fun m => m.discards && (s.liveImage? m.id).isSome && m.tes.any fun p => p.1 == tile

/-- The state with the translations of a partition dropped from the buffers that a tile uses, and from its die's
walker (R344). -/
def State.dropTlbs (s : State) (part tile : Nat) : State :=
  let keep (ls : List Leaf) : List Leaf := ls.filter fun l => l.part != part
  let s1 := s.setTlb (.tile tile) (keep (s.tlb (.tile tile)))
  let s2 := s1.setTlb (.quad (tile / 4)) (keep (s1.tlb (.quad (tile / 4))))
  let s3 := s2.setTlb (.sieve (tile / 64)) (keep (s2.tlb (.sieve (tile / 64))))
  s3.modPkg fun k => { k with walkers := k.walkers.set (dieOf tile) (keep (k.walkers.get [] (dieOf tile))) }

/-- The state with a tile stopped. -/
def State.stopTile (s : State) (part tile : Nat) : State :=
  let s1 := [0, 1, 2, 3].foldl (fun a k => a.stopWaveThread tile k) s
  let s2 := (s1.instancesOn tile).foldl (fun a m => a.stopWaveImage m) s1
  (s2.modTile tile fun x => { x with stopped := true }).dropTlbs part tile

/-- Whether nothing of a thread is on its way that a stop waits for: its committed accesses are performed and its
committed commands have left, unless a full queue holds the next, and its loads have written their results
(R235, R343). -/
def State.threadQuiet (s : State) (tile : Nat) (th : Thread) : Bool :=
  th.inflight.isEmpty && (th.departing.head?.all fun c => !s.hasRoom tile c) &&
    th.outstanding.all fun o => o.src != .load && o.src != .value

/-- Whether no chain access of a TE is on its way to its home (R343). -/
def TE.quiet (e : TE) : Bool := e.outM.all fun r => r.net != .onWay

/-- Whether every released load of the images that a tile leads has had its reply, and no commit of theirs is under
way (R235, R343). -/
def State.repliesDone (s : State) (tile : Nat) : Bool :=
  s.images.all fun m => m.leader != tile || (s.liveImage? m.id).isNone ||
    (!m.committing && (s.homeOf m).entries.all fun x => x.img != m.id || x.value.isNone || x.replied)

/-- Whether the elements in flight of a tile's copies are performed, and nothing that the tile wrote is on its way to
another die or the host (R343). -/
def State.writesDone (s : State) (tile : Nat) : Bool :=
  ((s.ctx tile).cmds.all fun c => !c.inHand) && s.pkg.far.all fun w => w.tile != tile

/-- Whether a stopped tile may report: nothing of its threads is on its way, its division has written its result, its
column units, chain accesses and memory interface are quiet, and its writes are performed (R343). -/
def State.tileReports (s : State) (tile : Nat) : Bool :=
  let x := s.tile tile
  x.stopped && x.divider.isNone && x.presented.isEmpty && x.interface.isEmpty && x.incoming.isEmpty &&
    (x.ctx.threads.toList.all fun th => s.threadQuiet tile th) && (x.ctx.colReqs.toList.all List.isEmpty) &&
    (x.ctx.tes.items.all fun e => e.2.quiet) && s.repliesDone tile && s.writesDone tile

/-- Whether no packet of a partition's tiles is on its way (R343). -/
def State.netQuiet (s : State) (p : Partition) : Bool :=
  s.switches.items.all fun w => w.2.packets.all fun k => !p.blocks.contains (k.tile / 16)

/-! ## The end of a group (R346) -/

/-- The stores that a thread has committed performed, in their order (R221); those that have left the die are on their
way already (R335). -/
def State.performAll (s : State) (tile slot gid : Nat) : List InFlight → State
  | [] => s
  | f :: fs => (if f.passed then s else s.perform tile slot gid f.buf).performAll tile slot gid fs

/-- A thread of a terminated group: what it has committed is performed, its atomics that return among that, and the
thread is gone. -/
def State.endThread (s : State) (tile slot : Nat) : State :=
  let th := s.thread tile slot
  let s1 := (s.giveUp tile slot (th.held ++ th.departing)).performAll tile slot th.gid th.inflight
  let s2 := th.outstanding.foldl (fun a o => match o.queued with
    | some q => if q.amo.isSome then a.readNow tile slot o q else a
    | none => a) s1
  s2.modThread tile slot fun x =>
    { x with status := .empty, buffered := [], held := [], departing := [], inflight := [], outstanding := [], waiting := false }

/-- A command of a terminated group ended FAULTED, with the cause of its own fault where it was frozen, and a
record with cause PREEMPT (R346); its token says so once every element that it performed is visible at its scope
(R317). -/
def State.preemptCmd (s : State) (tile id : Nat) : State :=
  match s.cmd? tile id with
  | none => s
  | some c =>
    let cause := match c.stage with
      | .frozen k _ => k
      | _ => 0x18#6
    let s1 := (s.engineLog tile c 0x18 0).killCmd tile c cause
    match (s1.cmd? tile id).filter fun x => x.stage != .ending .faulted cause with
    | none => s1
    | some x => s1.endCmd tile x .faulted cause

/-- The commands of a group on a tile ended. -/
def State.preemptCmds (s : State) (gid tile : Nat) : State :=
  (((s.ctx tile).cmds.filter fun c => c.gid == gid && !c.armed).map (·.id)).foldl (fun a i => a.preemptCmd tile i) s

/-- The state with a group of the running context stopped by TERMINATE, and ended once what it wrote is visible (R296,
R303, R346). -/
def State.terminateLive (s : State) (g : Group) : State :=
  let s1 := (s.images.filter fun m => m.gid == g.gid).foldl (fun a m => a.stopTes m) s
  let s2 := g.slots.foldl (fun a x => if (a.thread x.1 x.2).gid = g.gid then a.endThread x.1 x.2 else a) s1
  let s3 := g.members.foldl (fun a t => a.preemptCmds g.gid t) s2
  (s3.modGroup g.gid fun h => { h with terminated := true }).endTerminated g

/-- A home without the contexts and entries of some images. -/
def Home.without (h : Home) (f : Nat → Bool) : Home :=
  { h with ctxs := h.ctxs.filter fun k => !f k.img, entries := h.entries.filter fun x => !f x.img }

/-- The context with every waiting command judged against its tokens (R277). -/
def Context.judged (x : Context) : Context := { x with cmds := x.cmds.map (judgeAll x.tokens) }

/-- The context without the threads and commands of a group; their tokens end FAULTED with cause PREEMPT, or
with the cause of their own fault; the TEs of its images are stopped, its streams stop, and what its PFLOWs owned is
owned no longer (R346, R361). -/
def Context.dropGroup (x : Context) (g : Group) (imgs : List Nat) : Context :=
  let gone := x.cmds.filter fun c => c.gid == g.gid && !c.armed
  let cause (id : Nat) : BitVec 6 :=
    match gone.find? fun c => c.id == id with
    | some c => match c.stage with | .frozen k _ => k | _ => 0x18#6
    | none => 0x18#6
  Context.judged { x with
    threads := x.threads.map fun th => if th.gid == g.gid then { th with status := .empty } else th
    cmds := x.cmds.filter fun c => !(c.gid == g.gid && !c.armed)
    tes := ⟨x.tes.items.map fun e => if e.2.image.any imgs.contains then (e.1, e.2.release) else e⟩
    home := x.home.without imgs.contains
    streams := x.streams.map fun st =>
      if st.running && gone.any fun c => c.id == st.starter then { st with running := false, buffer := [], frozen := none }
      else st
    pool := x.pool.disown g.gid
    tokens := x.tokens.map fun t =>
      match t.owner with
      | none => t
      | some id =>
        if (t.state.busy) && gone.any (fun c => c.id == id) then
          { t with state := .faulted, cause := cause id, frozen := false, poisoned := false }
        else t }

/-- The state with a group whose context stands in shadow storage ended by TERMINATE: a record with cause PREEMPT for
each of its commands, its chain contexts freed (R197, R346), and its blocks idle (R308). -/
def State.terminateAway (s : State) (g : Group) : State :=
  let imgs := (s.images.filter fun m => m.gid == g.gid).map (·.id)
  let s1 := g.members.foldl (fun a t =>
    (((a.tile t).shadow.cmds.filter fun c => c.gid == g.gid && !c.armed).foldl (fun b c => b.engineLog t c 0x18 0) a).modTile
      t fun x => { x with shadow := x.shadow.dropGroup g imgs }) s
  let s2 := { s1 with images := s1.images.filter fun m => m.gid != g.gid }.modPkg fun k =>
    { k with homesAway := ⟨k.homesAway.items.map fun (h : Nat × Home) => (h.1, h.2.without imgs.contains)⟩ }
  ((s2.countEnd g true).modGroup g.gid fun h =>
    { h with ended := true, away := false, slots := [], texts := [], rects := [], tokmask := 0#64 }).noteIdle g

/-- TERMINATE (R346): a group, placed or running, stops, ends and counts in FAULTS. -/
def State.terminate (s : State) (gid : Nat) : State :=
  match s.group? gid with
  | none => s
  | some g =>
    if g.ended then s else if g.away then s.terminateAway g
    else if g.terminated then s.endTerminated g
    else s.terminateLive g

/-! ## The partition reset (R413) -/

/-- A tile's context as the reset of its partition leaves it: every token FREE, no command or stream left of an armed
section, the pool as R355 gives, the TEs invalid. -/
def Context.resetPart (x : Context) : Context :=
  { x with
    tokens := Vector.replicate 64 {}
    cmds := []
    tes := ⟨[]⟩
    collector := []
    colReqs := Vector.replicate 20 []
    home := {}
    streams := x.streams.map fun st => { st with running := false, buffer := [], frozen := none }
    pool := { x.pool with mode := 0#64, beds := [], map := ⟨[]⟩, joined := 0, target := 0, memberOf := none, saved := none,
                          owners := [], fed := none, lastFlow := none, lastStream := none, lastDrain := none, armed := none
                          flowPort := [], mapPoison := [], bedPoison := [] } }

/-- The state with the armed section of a tile's pool ended as one that has failed (R384). -/
def State.failArmed (s : State) (tile : Nat) : State :=
  match (s.pool tile).armed with
  | none => s
  | some a => ((s.clearArmed tile).modPool tile fun q => { q with armed := none }).sectionDone { a with failed := true }

/-- PARTITION_RESET performed (R413), on the running and on the swapped contexts. -/
def State.resetPart (s : State) (p : Partition) : State :=
  let s1 := (s.groups.filter fun g => g.part == p.id && !g.ended).foldl (fun a g => a.terminate g.gid) s
  let s2 := p.tiles.foldl (fun a t => a.failArmed t) s1
  (p.tiles.foldl (fun a t => a.modTile t fun x =>
    { x with ctx := x.ctx.resetPart, shadow := x.shadow.resetPart }) s2).modPart p.id fun q => { q with pendingReset := false }

/-- PARTITION_RESET (R413): at once, or, while a stop wave is in progress, once the partition is stopped. -/
def State.partitionReset (s : State) (part : Nat) : State :=
  match s.part? part with
  | none => s
  | some p =>
    if p.stopping && !p.stopped then s.modPart part fun q => { q with pendingReset := true } else s.resetPart p

/-! ## The die reset (R413) -/

/-- Whether a die has no partition but stopped ones. -/
def State.dieQuiet (s : State) (die : Nat) : Bool :=
  s.parts.all fun p => p.stopped || !(p.blocks.any fun b => b / 16 == die)

/-- The state with every unit of a die at its reset value, CYCLE at 0, the event counter in step with die 0's and
never behind what the die has stamped, and the memory of its tiles, slices and two stacks reading as at reset (R353,
R413). -/
def State.resetDie (s : State) (die : Nat) : State :=
  let inDie (level unit : Nat) : Bool := unit * 4 ^ level / 256 == die
  let owns (loc : Nat) : Bool :=
    if loc < 2 ^ 41 then dieOfPa loc == die
    else if loc < 2 ^ 48 then
      let level := (loc - 2 ^ 42) / 2 ^ 40
      inDie level ((loc - 2 ^ 42) % 2 ^ 40 / 2 ^ 25)
    else if loc < 2 ^ 49 then (loc - 2 ^ 48) / 2 ^ 21 / 256 == die
    else if loc < 2 ^ 53 then (loc - 2 ^ 49) / 2 ^ 16 / 256 == die
    else false
  let d : Die := { cycleBase := s.now, eventBase := Nat.max (vget s.pkg.dies 0 {}).eventBase (vget s.pkg.dies die {}).eventBase }
  { s with
    mem := ⟨s.mem.cells.filter fun c => !owns c.1⟩
    poison := s.poison.filter fun l => !owns l
    tiles := ⟨s.tiles.items.filter fun x => x.1 / 256 != die⟩
    homes := ⟨s.homes.items.filter fun x => !inDie (x.1 / 4096) (x.1 % 4096)⟩
    switches := ⟨s.switches.items.filter fun x => !inDie (x.1 / 4096) (x.1 % 4096)⟩
    seqs := ⟨s.seqs.items.filter fun x => x.1 / 4 != die⟩
    pkg := { s.pkg with
      dies := vset s.pkg.dies die d
      counters := s.pkg.counters.filter fun c => counterDie c.1 != some die
      corrected := s.pkg.corrected.filter fun c => counterDie c.unit != some die
      retired := s.pkg.retired.filter fun c => counterDie c != some die
      gated := s.pkg.gated.filter fun b => b / 16 != die
      waking := s.pkg.waking.filter fun b => b.1 / 16 != die
      blockOwner := ⟨s.pkg.blockOwner.items.filter fun b => b.1 / 16 != die⟩
      idleSince := ⟨s.pkg.idleSince.items.filter fun b => b.1 / 16 != die⟩
      savedSeqs := s.pkg.savedSeqs.filter fun q => q.plot / 4 != die
      homesAway := ⟨s.pkg.homesAway.items.filter fun x => !inDie (x.1 / 4096) (x.1 % 4096)⟩
      walkers := ⟨s.pkg.walkers.items.filter fun x => x.1 != die⟩
      banks := ⟨s.pkg.banks.items.filter fun x => counterDie ⟨8, x.1, 0⟩ != some die⟩
      quadTlb := ⟨s.pkg.quadTlb.items.filter fun x => x.1 / 64 != die⟩
      sieveTlb := ⟨s.pkg.sieveTlb.items.filter fun x => x.1 / 4 != die⟩
      far := s.pkg.far.filter fun w => dieOf w.tile != die } }

/-- Whether a die holds a block of a partition (R413). -/
def State.dieHeld (s : State) (die : Nat) : Bool := s.parts.any fun p => p.blocks.any fun b => b / 16 == die

/-- DIE_RESET (R413): while the die holds no partition; requested while a stop wave is in progress on its blocks,
it takes effect once the partition is stopped. -/
def State.dieReset (s : State) (die : Nat) : State :=
  let stopping := s.parts.any fun p => p.stopping && !p.stopped && p.blocks.any fun b => b / 16 == die
  if stopping then
    s.modPkg fun k => { k with dies := vset k.dies die { (vget k.dies die {}) with pendingReset := true } }
  else if s.dieHeld die then s
  else s.resetDie die

/-! ## Stopped (R343) -/

/-- The state with a partition whose tiles have all reported stopped: what its last accesses have brought into the
translation buffers is dropped (R344), its record is written, and the resets that waited for it follow: that of a die
once no partition of the die still runs (R413). -/
def State.partStopped (s : State) (p : Partition) : State :=
  let s1 := ((p.tiles.foldl (fun a t => a.dropTlbs p.id t) s).modPart p.id fun q => { q with stopped := true }).log
    { cause := 0x18, src := 14, unit := p.id, owner := some p.owner, die := (p.blocks.headD 0) / 16 }
  let s2 := if p.pendingReset then s1.resetPart p else s1
  (((p.blocks.map (· / 16)).eraseDups).filter fun d => (vget s.pkg.dies d {}).pendingReset && s2.dieQuiet d).foldl
    (fun a d => ((a.groups.filter fun g => !g.ended && g.members.any fun t => dieOf t == d).foldl
      (fun b g => b.terminate g.gid) a).resetDie d) s2

/-- STOP_WAVE_ARRIVAL (R343): the wave stops a tile; once every tile reports, and nothing of theirs is on its way, the
partition is stopped. -/
def State.stopWave (s : State) (part tile : Nat) : State :=
  match s.part? part with
  | none => s
  | some p =>
    if !p.stopping || p.stopped || !p.blocks.contains (tile / 16) then s
    else
      let s1 := if (s.tile tile).stopped then s else s.stopTile part tile
      if (p.tiles.all fun t => s1.tileReports t) && s1.netQuiet p then s1.partStopped p else s1

/-! ## Swap and resume (R346) -/

/-- A home with the contexts and entries of some images, in their order, besides those it has. -/
def Home.with_ (h x : Home) (f : Nat → Bool) : Home :=
  { h with ctxs := h.ctxs ++ x.ctxs.filter fun k => f k.img, entries := h.entries ++ x.entries.filter fun e => f e.img }

/-- The state with the contexts of a partition's images exchanged at the homes in the slices (R345). -/
def State.swapHomes (s : State) (part : Nat) : State :=
  let mine (img : Nat) : Bool := (s.image? img).any fun m => (s.group? m.gid).any fun g => g.part == part
  ((s.homes.keys ++ s.pkg.homesAway.keys).eraseDups).foldl (fun a k =>
    let h := a.homes.get {} k
    let w := a.pkg.homesAway.get {} k
    { a with homes := a.homes.set k ((h.without mine).with_ w mine) }.modPkg fun x =>
      { x with homesAway := x.homesAway.set k ((w.without mine).with_ h mine) }) s

/-- SWAP (R346): each tile's context exchanged with the one in its shadow storage, and the slice homes' contexts with
it; a group that is placed and has not started goes with its context. The context window that the supervisor has
selected for a tile stays selected (DESIGN CHOICE, log entry 86). -/
def State.swap (s : State) (part : Nat) : State :=
  match s.part? part with
  | none => s
  | some p =>
    if !p.stopped then s
    else
      let s1 := p.tiles.foldl (fun a t => a.modTile t fun x => { x with ctx := x.shadow, shadow := x.ctx }) (s.swapHomes part)
      { s1 with groups := s1.groups.map fun g =>
          if g.part == part && !g.ended then { g with away := !g.away } else g }

/-- A thread as RESUME leaves it: at its resume point with age 0 (R346), its first word waiting for every result in
flight (R55). -/
def Thread.resumed (th : Thread) (now : Nat) : Thread :=
  { th with age := 0, yielded := none, fresh := true, producers := [], lastSet := none
            earliest := Nat.max th.earliest (now + 1) }

/-- RESUME (R343, R346, R348): the partition's tiles run again, the waiting launches go on, and the sequencers
place its groups again. -/
def State.resume (s : State) (part : Nat) : State :=
  match s.part? part with
  | none => s
  | some p =>
    let plots := (p.blocks.map (· / 4)).eraseDups
    let s0 := (plots.foldl (fun a q =>
      a.modSeqr q fun x => { x with boundary := x.boundary.filter (· != part) }) s).modPkg fun k =>
        { k with savedSeqs := k.savedSeqs.filter fun x => x.part != part }
    if !p.stopped then plots.foldl (fun a q => a.promote q (a.seqr q).waiting.length) s0
    else
      let s1 := p.tiles.foldl (fun a t => a.modTile t fun x =>
        { x with stopped := false, ctx := { x.ctx with threads := x.ctx.threads.map fun th => th.resumed s.now } }) s0
      let s2 := s1.modPart part fun q => { q with stopping := false, stopped := false }
      plots.foldl (fun a q => a.promote q (a.seqr q).waiting.length) s2

/-! ## The node boundary (R348) -/

/-- The state with a sequencer's state saved for each partition that it places no group of, once the partition's
running groups have ended (R348). -/
def State.boundarySave (s : State) (plot : Nat) : State :=
  let q := s.seqr plot
  q.boundary.foldl (fun a part =>
    if (a.groups.any fun g => g.plot == plot && g.part == part && !g.ended) ||
        (a.pkg.savedSeqs.any fun x => x.plot == plot && x.part == part) then a
    else
      a.modPkg fun k =>
        { k with savedSeqs := ⟨plot, part, q.ptr, q.graphs.filter fun g => g.part == part⟩ :: k.savedSeqs }) s

/-- NODE_BOUNDARY_PREEMPTION (R348): the sequencer begins no node and no graph of the partition and places no further
group, and once its running groups have ended its state is saved. -/
def State.nodeBoundary (s : State) (plot part : Nat) : State :=
  (s.modSeqr plot fun q =>
    { q with boundary := if q.boundary.contains part then q.boundary else part :: q.boundary }).boundarySave plot

/-! ## The events -/

/-- STOP_WORD_WRITE (R343): see `State.stopWord`. -/
def execStopWordWrite (part : Nat) (s : State) : Host.Outcome State Fault Refusal := .next (s.stopWord part)

/-- STOP_WAVE_ARRIVAL (R343): see `State.stopWave`. -/
def execStopWaveArrival (part tile : Nat) (s : State) : Host.Outcome State Fault Refusal :=
  if 2048 ≤ tile then .fault .noSuchUnit else .next (s.stopWave part tile)

/-- SWAP (R346): see `State.swap`. -/
def execSwap (part : Nat) (s : State) : Host.Outcome State Fault Refusal := .next (s.swap part)

/-- RESUME (R346): see `State.resume`. -/
def execResume (part : Nat) (s : State) : Host.Outcome State Fault Refusal := .next (s.resume part)

/-- TERMINATE (R346): see `State.terminate`. -/
def execTerminate (gid : Nat) (s : State) : Host.Outcome State Fault Refusal := .next (s.terminate gid)

/-- NODE_BOUNDARY_PREEMPTION (R348): see `State.nodeBoundary`. -/
def execNodeBoundaryPreemption (plot part : Nat) (s : State) : Host.Outcome State Fault Refusal :=
  if 32 ≤ plot then .fault .noSuchUnit else .next (s.nodeBoundary plot part)

/-- PARTITION_RESET (R413): see `State.partitionReset`. -/
def execPartitionReset (part : Nat) (s : State) : Host.Outcome State Fault Refusal := .next (s.partitionReset part)

/-- DIE_RESET (R413): see `State.dieReset`. -/
def execDieReset (die : Nat) (s : State) : Host.Outcome State Fault Refusal :=
  if 8 ≤ die then .fault .noSuchUnit else .next (s.dieReset die)

end Sys2Proof.Machine
end

