-- ==== Sys2Proof/Machine/Package.lean ====
section
/-! DEFINITION. The supervisor, the host and the management processor: invalidation (R328), the management map
(R332), the host's requests (R333, R415), errors (R234, R350), reset and boot (R413 to R416), attestation (R417)
and power (R418, R419). -/

namespace Sys2Proof.Machine

/-! ## Invalidation (R328) -/

/-- Whether an invalidation names an address that a partition's groups translate in G or, with `host`, in H. -/
def scopeNames (r : InvalScope) (p : Partition) (host : Bool) (va : Nat) : Bool :=
  match r with
  | .range part h lo hi => part == p.id && h == host && decide (lo ≤ va) && decide (va < hi)
  | .owner o => o == p.owner
  | .everything => true

/-- Whether an invalidation removes a buffered leaf. -/
def State.removes (s : State) (r : InvalScope) (l : Leaf) : Bool :=
  match r with
  | .range part h lo hi => part == l.part && h == l.host && decide (lo < l.base + l.size) && decide (l.base < hi)
  | .owner o => if l.host then (s.part? l.part).any fun p => p.owner == o else bits l.entry 53 47 == o
  | .everything => true

/-- Whether an invalidation removes a pointer that a walker holds. A pointer names no owner: it is its partition's. -/
def State.removesPointer (s : State) (r : InvalScope) (l : Leaf) : Bool :=
  match r with
  | .owner o => (s.part? l.part).any fun p => p.owner == o
  | _ => s.removes r l

/-- The state with the matching leaves and pointers removed from every buffer. -/
def State.dropLeaves (s : State) (r : InvalScope) : State :=
  let keep (ls : List Leaf) : List Leaf := ls.filter fun l => !s.removes r l
  let keepPtr (ls : List Leaf) : List Leaf := ls.filter fun l => !s.removesPointer r l
  { s with
    tiles := ⟨s.tiles.items.map fun x => (x.1, { x.2 with tlb := keep x.2.tlb })⟩
    pkg := { s.pkg with
      quadTlb := ⟨s.pkg.quadTlb.items.map fun x => (x.1, keep x.2)⟩
      sieveTlb := ⟨s.pkg.sieveTlb.items.map fun x => (x.1, keep x.2)⟩
      walkers := ⟨s.pkg.walkers.items.map fun x => (x.1, keepPtr x.2)⟩ } }

/-- An invalidation as the accesses in flight meet it (R328): what it names, and the leaves that it removes. -/
structure Removal where
  scope : InvalScope
  leaves : List Leaf

/-- What an invalidation removes from the buffers. -/
def State.removal (s : State) (r : InvalScope) : Removal :=
  ⟨r, ((s.tiles.items.flatMap fun x => x.2.tlb) ++ (s.pkg.quadTlb.items.flatMap (·.2)) ++
    s.pkg.sieveTlb.items.flatMap (·.2)).filter fun l => s.removes r l⟩

/-- Whether an access to an address of a partition may have used a removed entry: the invalidation names the address,
or a leaf that it has removed holds it. -/
def Removal.hits (v : Removal) (p : Partition) (host : Bool) (va : Nat) : Bool :=
  scopeNames v.scope p host va ||
    v.leaves.any fun l => l.part == p.id && l.host == host && decide (l.base ≤ va) && decide (va < l.base + l.size)

/-- Whether a buffered access used a removed entry. -/
def staleAccess (v : Removal) (p : Partition) (b : Buffered) : Bool :=
  (b.space == .g || b.space == .h) && v.hits p (b.space == .h) b.va.toNat

/-- Whether a thread's open region buffers a store or atomic that used a removed entry. -/
def State.holdsStale (s : State) (v : Removal) (th : Thread) : Bool :=
  match s.partOf th.gid with
  | none => false
  | some p => th.buffered.any (staleAccess v p)

/-- The entries of a home that use a removed entry for an image. -/
def State.staleEntries (s : State) (v : Removal) (m : Image) : List Entry :=
  match s.partOf m.gid with
  | none => []
  | some p => (s.homeOf m).entries.filter fun x =>
      x.img == m.id && chainSpace x.req.op == .g && v.hits p false (m.base3 + x.req.addr.setWidth 64).toNat

/-- Whether an open instance holds an access that used a removed entry. -/
def State.instanceStale (s : State) (v : Removal) (m : Image) : Bool :=
  (s.staleEntries v m).any fun x => x.req.inRegion

/-- The thread slots of the package that hold something, each with its tile. -/
def State.threadPlaces (s : State) : List (Nat × Nat) := s.tiles.keys.flatMap fun t => [0, 1, 2, 3].map fun k => (t, k)

/-- What an invalidation has still to see performed or dropped: the committed accesses, the loads on their way, the
chain accesses and the far writes that use a removed entry (R328). -/
def State.staleWork (s : State) (v : Removal) : Invalidation :=
  { stores := s.threadPlaces.flatMap fun x =>
      let th := s.thread x.1 x.2
      match s.partOf th.gid with
      | none => []
      | some p => (th.inflight.filter fun f => staleAccess v p f.buf).map fun f => (x.1, x.2, f.sid)
    loads := s.threadPlaces.flatMap fun x =>
      let th := s.thread x.1 x.2
      match s.partOf th.gid with
      | none => []
      | some p => (th.outstanding.filter fun o =>
          o.src == .load && (o.space == .g || o.space == .h) && v.hits p (o.space == .h) o.va.toNat).map
            fun o => (x.1, x.2, o.id)
    entries := (s.images.filter fun m => (s.liveImage? m.id).isSome).flatMap fun m =>
      (s.staleEntries v m).map fun x => (m.home, m.homeUnit, x.id)
    writes := (s.pkg.far.filter fun w => (s.partOf w.gid).any fun p => v.hits p (w.space == .h) w.va.toNat).map (·.id) }

/-- Whether an invalidation still waits for an access (R328). -/
def State.staleLeft (s : State) (v : Invalidation) : Bool :=
  (v.stores.any fun x => (s.thread x.1 x.2.1).inflight.any fun f => f.sid == x.2.2) ||
    (v.loads.any fun x => (s.thread x.1 x.2.1).outstanding.any fun o => o.id == x.2.2) ||
    (v.entries.any fun x => (s.homeAt x.1 x.2.1).entries.any fun e => e.id == x.2.2) ||
    s.pkg.far.any fun w => v.writes.contains w.id

/-- The state with the invalidations that wait for no access complete (R328). -/
def State.completeInvalidations (s : State) : State :=
  s.modPkg fun k => { k with invalidations := k.invalidations.filter s.staleLeft }

/-- TRANSLATION_INVALIDATION (R328): the leaves are removed; open regions that buffer such a store are discarded
and counted, for a cause to which R337 gives no code; instances that hold such an access are discarded as for an
uncorrectable error, and those that may commit do so first; and the invalidation waits for the rest. -/
def State.invalidate (s : State) (r : InvalScope) : State :=
  let v := s.removal r
  let (c, s2) := (s.dropLeaves r).drawCode
  let code := BitVec.ofNat 6 c
  let s3 := s2.threadPlaces.foldl (fun b x =>
    if b.holdsStale v (b.thread x.1 x.2) then b.discardCounted x.1 x.2 code else b) s2
  let s4 := (s3.images.filter fun m => m.discards && (s3.liveImage? m.id).isSome && s3.instanceStale v m).foldl
    (fun a m =>
      if a.commitReady m then a.commitInstance m.id
      else (a.discardInstance m.id { cause := none }).correctedEvent ⟨unitTE, 1024 * m.leader, 0⟩) s3
  (s4.modPkg fun k => { k with invalidations := k.invalidations ++ [s4.staleWork v] }).completeInvalidations

/-! ## The management map (R332) -/

/-- GRANULE_SCRUB (R323): a whole granule of a memory, a slice or a scratchpad written, and its poison gone. -/
def State.scrub (s : State) (loc : Nat) (v : List Byte) : State :=
  let n := if loc < 2 ^ 41 then 32 else 64
  if granuleOf loc ≠ loc || v.length ≠ n || 2 ^ 49 ≤ loc then s
  else { s with mem := s.mem.writeBytes loc v, poison := s.poison.filter (· != loc) }

/-- Whether no partition holds a block (R349). -/
def State.blockFree (s : State) (b : Nat) : Bool := s.parts.all fun p => !p.blocks.contains b

/-- Whether a block holds no running partition: none, or one that is stopped (R349). -/
def State.blockStill (s : State) (b : Nat) : Bool := s.parts.all fun p => !p.blocks.contains b || p.stopped

/-- A partition created: at most 128, over free blocks, once the package is ready (R349, R414). -/
def State.createPartition (s : State) (part owner : Nat) (blocks : List Nat) : State :=
  if s.pkg.bootState ≠ 7#8 || 128 ≤ s.parts.length || (s.part? part).isSome || blocks.isEmpty || 128 ≤ owner ||
      !blocks.Nodup || blocks.any fun b => decide (128 ≤ b) || !s.blockFree b then s
  else
    { s with parts := s.parts ++ [({ id := part, owner := owner, blocks := blocks } : Partition)] }.modPkg fun k =>
      { k with blockOwner := blocks.foldl (fun m b => m.set b owner) k.blockOwner
               idleSince := blocks.foldl (fun m b => m.set b s.now) k.idleSince }

/-- A partition's event ring set: a size that is a power of two times 32 bytes (R352). -/
def Ring.set (r : Ring) (base size tail : Nat) : Ring :=
  if size = 32 * 2 ^ (size / 32).log2 then { r with base := base, size := size, tail := tail } else r

/-- The range of a slice granted to a partition; an empty range takes the grant away (R92, R265). -/
def Partition.grant (p : Partition) (level unit lo hi : Nat) : Partition :=
  let others := p.grants.filter fun g => g.1 != level || g.2.1 != unit
  { p with grants := if lo < hi then (level, unit, lo, hi) :: others else others }

/-- The first offset of a quad slice that no grant may reach: the slice's last 832 KiB are the shadow storage of
its four tiles (R345; DESIGN CHOICE, log entry 70). -/
def shadowBase : Nat := 2 ^ 21 - 4 * 212992

/-- The end of what a partition may be granted of a slice (R265, R345). -/
def grantEnd (level : Nat) : Nat := if level = 1 then shadowBase else sliceSize level

/-- The places of the bytes of a context window, in the order in which a spill stores them: its part of the
scratchpad (R347; DESIGN CHOICE, log entry 70). -/
def CtxWindow.spBytes (w : CtxWindow) (tile : Nat) : List Nat :=
  (List.range (Nat.min w.splim 0x200000 - w.spbase)).map fun i => locSp tile (w.spbase + i)

/-- The keys of the W words of a context window, TE by TE. -/
def CtxWindow.words (w : CtxWindow) : List Nat :=
  (List.range 200).flatMap fun k => (List.range (Nat.min w.wlim 8192 - w.wbase)).map fun i => 8192 * k + w.wbase + i

/-- The bytes of device memory that the spill of a context window takes. -/
def CtxWindow.bytes (w : CtxWindow) : Nat :=
  Nat.min w.splim 0x200000 - w.spbase + 800 * (Nat.min w.wlim 8192 - w.wbase)

/-- Whether a range of device memory has a stack address at every byte (R322). -/
def State.framesOk (s : State) (pa n : Nat) : Bool :=
  decide (pa + n ≤ 2 ^ 41) && s.frameOk pa && s.frameOk (pa + n - 1)

/-- What a spill of a context window stores, byte by byte, none for one of a poisoned granule or word, which is not
read (R323, R347, R350). -/
def State.windowBytes (s : State) (tile : Nat) (w : CtxWindow) : List (Option Byte) :=
  let x := s.tile tile
  ((w.spBytes tile).map fun l => if s.poisonedAt l then none else some (s.mem.read l)) ++
    w.words.flatMap fun k =>
      (leBytes 4 (x.w.get 0#32 k).toNat).map fun b => if x.wPoison.contains k then none else some b

/-- The state with a byte of a context window moved to a location: a poisoned granule takes none (R323), and one whose
byte could not be read is poisoned (R350; DESIGN CHOICE, log entry 70). -/
def State.moveByte (s : State) (l : Nat) (b : Option Byte) : State :=
  if s.poisonedAt l then s
  else
    match b with
    | some v => { s with mem := s.mem.write l v }
    | none => { s with poison := insertNat (granuleOf l) s.poison }

/-- The state with the record of a spill or a fill that has met poison (R323, R352). -/
def State.moveRecord (s : State) (tile pa : Nat) (met : Bool) : State :=
  if met then
    s.log { cause := 0x05, src := 10, unit := tile, owner := (s.partAt tile).map (·.owner), addr := pa, die := dieOf tile }
  else s

/-- The state with a context window of a tile spilled to device memory from an address on (R347; DESIGN CHOICE, log
entry 70). -/
def State.spillWindow (s : State) (tile ctx pa : Nat) : State :=
  let w := vget (s.tile tile).windows ctx {}
  if !s.framesOk pa w.bytes then s
  else
    let bs := s.windowBytes tile w
    let ls := (List.range bs.length).map (locPa pa + ·)
    ((ls.zip bs).foldl (fun (a : State) x => a.moveByte x.1 x.2) s).moveRecord tile pa
      ((bs.any Option.isNone) || ls.any s.poisonedAt)

/-- The tile with a W word filled from four bytes, or poisoned where one could not be read (R350). -/
def Tile.fillWord (x : Tile) (k : Nat) (bs : List (Option Byte)) : Tile :=
  if bs.any Option.isNone then { x with wPoison := insertNat k x.wPoison }
  else
    { x with w := x.w.set k (BitVec.ofNat 32 (leNat (bs.map fun b => b.getD 0#8)))
             wPoison := x.wPoison.filter (· != k) }

/-- The state with a context window of a tile filled from device memory: a poisoned granule is not read, and one of
the scratchpad takes no byte (R323, R347; DESIGN CHOICE, log entry 70). -/
def State.fillWindow (s : State) (tile ctx pa : Nat) : State :=
  let w := vget (s.tile tile).windows ctx {}
  if !s.framesOk pa w.bytes then s
  else
    let bs := (List.range w.bytes).map fun i =>
      if s.poisonedAt (locPa pa + i) then none else some (s.mem.read (locPa pa + i))
    let sp := w.spBytes tile
    let s1 := (sp.zip bs).foldl (fun (a : State) x => a.moveByte x.1 x.2) s
    (s1.modTile tile fun x => (w.words.zip (List.range w.words.length)).foldl
      (fun (t : Tile) k => t.fillWord k.1 ((bs.drop (sp.length + 4 * k.2)).take 4)) x).moveRecord tile pa
        ((bs.any Option.isNone) || sp.any s.poisonedAt)

/-- The supervisor's resume of a stopped image: its counter is 0 and its TEs run again (R212, R228, R233). -/
def State.resumeImage (s : State) (img : Nat) : State :=
  match s.liveImage? img with
  | none => s
  | some m =>
    if m.state ≠ .stopped then s
    else
      (m.tes.foldl (fun a p => a.modTeAt p fun e => { e with started := true }) s).modImage img fun x =>
        { x with state := .idle, reentry := 0#8, started := true }

/-- An abort by the supervisor (R303). -/
def State.abortGraph (s : State) (plot graph : Nat) : State :=
  match (s.seqr plot).graph? graph with
  | none => s
  | some g =>
    match s.part? g.part with
    | none => s
    | some p => if g.aborted.isSome then s else s.abort p g 0 none

/-- MANAGEMENT_REGISTER_WRITE (R332). The address of a launch window is taken as it is, a multiple of 128 or not (DESIGN
CHOICE, log entry 84). -/
def State.manage (s : State) (w : MgmtWrite) : State :=
  match w with
  | .blockOwner b o =>
    if b < 128 && o < 128 && s.blockStill b then s.modPkg fun k => { k with blockOwner := k.blockOwner.set b o } else s
  | .createPartition part owner blocks => s.createPartition part owner blocks
  | .partWindow part va => s.modPart part fun p => { p with window := va }
  | .partRoot part host pa =>
    if pa % 4096 ≠ 0 || 2 ^ 41 ≤ pa then s
    else s.modPart part fun p => if host then { p with rootH := pa } else { p with rootG := pa }
  | .partHandler part tvec => s.modPart part fun p => { p with tvec := tvec }
  | .partReentryMax part v => s.modPart part fun p => { p with reentrymax := v }
  | .partRing part base size tail => s.modPart part fun p => { p with ring := p.ring.set base size tail }
  | .grant part level unit lo hi =>
    if 1 ≤ level && level ≤ 4 && unit < 2048 / 4 ^ level && hi ≤ grantEnd level then
      s.modPart part fun p => p.grant level unit lo hi
    else s
  | .contextWindow tile ctx wbase wlim spbase splim =>
    if tile < 2048 then
      s.modTile tile fun x => { x with windows := vset x.windows ctx ⟨wbase, wlim, spbase, splim⟩ }
    else s
  | .selectContext tile ctx => if tile < 2048 && ctx < 4 then s.modTile tile fun x => { x with window := ctx } else s
  | .remoteGrant pkg owner region allow =>
    s.modPkg fun k =>
      let others := k.remoteGrants.filter fun g => g != (pkg, owner, region)
      { k with remoteGrants := if allow then (pkg, owner, region) :: others else others }
  | .packageRing base size tail => s.modPkg fun k => { k with ring := k.ring.set base size tail }
  | .packageNumber n => if n ≤ 575 then s.modPkg fun k => { k with number := n } else s
  | .handlerPage tile offset v =>
    if tile < 2048 && offset + v.length ≤ 4096 then
      { s with mem := s.mem.writeBytes (locText tile (61440 + offset)) v }
    else s
  | .abortGraph plot graph => s.abortGraph plot graph
  | .resumeImage img => s.resumeImage img
  | .raiseSvn v =>
    s.modPkg fun k => { k with raisedSvn := if k.raisedSvn.toNat < v.toNat then v else k.raisedSvn }
  | .msixEntry vector addr data =>
    if vector < 2048 then s.modPkg fun k => { k with msixTable := k.msixTable.set vector ⟨addr, data⟩ } else s
  | .hdmDecoder index base size =>
    if 5 ≤ s.pkg.bootState.toNat && s.pkg.bootState.toNat ≤ 7 && base + size ≤ 2 ^ 41 then
      s.modPkg fun k => { k with hdm := k.hdm.set index (base, size) }
    else s
  | .spillWindow tile ctx pa => if tile < 2048 && ctx < 4 then s.spillWindow tile ctx pa else s
  | .fillWindow tile ctx pa => if tile < 2048 && ctx < 4 then s.fillWindow tile ctx pa else s

/-- THROT: D − 1 of each die, four bits for each, die 0 lowest (R419). -/
def Package.throt (k : Package) : Nat :=
  ((List.range 8).map fun d => ((vget k.dies d {}).duty - 1) % 16 * 16 ^ d).sum

/-- A telemetry register (R419), by its place: PKGPWR, DIEPWR0 to DIEPWR7, TEMP0 to TEMP7, THROT. -/
def Package.telemetry (k : Package) (i : Nat) : Nat :=
  if i = 0 then k.pkgPower.toNat
  else if i ≤ 8 then (vget k.dies (i - 1) {}).power.toNat
  else if i ≤ 16 then (vget k.dies (i - 9) {}).temp.toNat
  else if i = 17 then k.throt
  else 0

/-- The unit number under which the supervisor reads the telemetry registers. -/
def unitTelemetry : Nat := 10

/-- COUNTER_READ (R419, R420): the supervisor has the value of a counter, and the counter is clear; or the value of
a telemetry register. -/
def State.readCounter (s : State) (c : CounterId) : State :=
  s.modPkg fun k =>
    if c.unit = unitTelemetry then { k with supervisorValue := Word.ofN (k.telemetry c.index) }
    else { k with supervisorValue := Word.ofN (s.counter c), counters := k.counters.filter fun x => x.1 != c }

/-! ## The host (R332, R333, R415) -/

/-- The state with a completion sent to the host: whether it succeeds, and its bytes. -/
def State.replyHost (s : State) (ok : Bool) (bs : List Byte) : State :=
  s.modPkg fun k => { k with hostReplies := k.hostReplies ++ [(ok, bs)] }

/-- Whether an HDM decoder leads to a range of device memory (R332; PRESUMED, log entry 71). -/
def State.decoded (s : State) (pa n : Nat) : Bool :=
  s.pkg.hdm.items.any fun d => decide (d.2.1 ≤ pa) && decide (pa + n ≤ d.2.1 + d.2.2)

/-- Whether the `n` bytes from a device physical address may be served to the host: the package is ready (R415), an
HDM decoder leads to them (R332), each has a stack address (R322), and none is poisoned (R323). -/
def State.hostMay (s : State) (pa : Nat) (n : Nat) : Bool :=
  s.pkg.bootState == 7#8 && s.decoded pa n &&
    (List.range n).all fun i =>
      decide (pa + i < 2 ^ 41) && s.frameOk (pa + i) && !s.poisonedAt (pa + i) && !s.ioWayLost (dieOfPa (pa + i)) 0

/-- HOST_CXL_MEM_WRITE (R333): performed before its completion; Unsupported Request where it may not be. -/
def State.hostWrite (s : State) (pa : Nat) (v : List Byte) : State :=
  if s.hostMay pa v.length then { s with mem := s.mem.writeBytes pa v }.replyHost true []
  else s.replyHost false []

/-- HOST_CXL_MEM_READ (R333). -/
def State.hostRead (s : State) (pa n : Nat) : State :=
  if s.hostMay pa n then s.replyHost true (s.mem.readBytes pa n) else s.replyHost false []

/-- HOST_CONFIG_REQUEST (R415): answered in every boot state; what configuration space holds is not the
manual's: a free value. -/
def State.hostConfig (s : State) : State :=
  let (n, s1) := s.draw
  s1.replyHost true (leBytes 4 (Config.freeWord n).toNat)

/-! ## Boot (R414 to R416) -/

/-- A digest as a field holds it: the hash's number, little-endian (R6, R416; DEDUCED, log entry 15). -/
def digestField (m : List Byte) : List Byte := (sha384 m).reverse

/-- Whether the boot ROM accepts a firmware image (R416). -/
def State.firmwareOk (s : State) (img : List Byte) : Bool :=
  let field (a n : Nat) : List Byte := (img.drop a).take n
  let body := img.drop 256
  let key := field 0xA0 96
  decide (256 < img.length) && beNat (sha384 key) == Config.fusedKeyHash.toNat &&
    signatureOk key (field 0 0x40) (field 0x40 96) && field 0x10 48 == digestField body &&
    decide (Nat.max Config.fusedSvn.toNat s.pkg.raisedSvn.toNat ≤ leNat (field 8 4)) &&
    leNat (field 0 4) == 0x4C464231 && leNat (field 4 2) == 1 && leNat (field 6 2) == 0 &&
    leNat (field 0x0C 4) == body.length && decide (body.length ≤ 2 ^ 24)

/-- The state with a boot step done, or failed with an error code (R414). -/
def State.bootTo (s : State) (code : Nat) : State := s.modPkg fun k => { k with bootState := BitVec.ofNat 8 code }
def State.bootFail (s : State) (err : Nat) : State :=
  s.modPkg fun k => { k with bootState := 0xFF#8, bootError := BitVec.ofNat 8 err }

/-- The state with a firmware image running: it has derived an attestation key, which the identity key certifies
(R416, R417). -/
def State.runFirmware (s : State) (img : List Byte) : State :=
  let (n, s1) := s.draw
  (s1.modPkg fun k =>
    let key := publicKey (Config.attestKey k.boots)
    { k with firmwareDigest := BitVec.ofNat 384 (leNat ((img.drop 0x10).take 48))
             firmwareSvn := BitVec.ofNat 32 (leNat ((img.drop 8).take 4))
             certificate := key ++ signMessage Config.identityKey (Config.signSecret n) key }).bootTo 1

/-- Whether a die has lost both modules of one of its pairs, the pair to the I/O die among them, or the I/O dies
the modules between them (R318, R414). -/
def State.anyPairLost (s : State) : Bool :=
  ((List.range 8).any fun d => (List.range 8).any fun k =>
    let lost := (vget s.pkg.dies d {}).lost
    lost.contains (2 * k) && lost.contains (2 * k + 1)) || [0, 1, 2, 3].all fun m => s.pkg.ioLost.contains m

/-- Zero with valid ECC in every SRAM word and HBM granule of the package (R414, step 4). -/
def State.clearArrays (s : State) : State :=
  { s with
    mem := ⟨s.mem.cells.filter fun c => decide (2 ^ 53 ≤ c.1)⟩
    poison := s.poison.filter fun l => decide (2 ^ 53 ≤ l)
    tiles := ⟨s.tiles.items.map fun x => (x.1, { x.2 with ctx := {}, shadow := {}, w := ⟨[]⟩, wPoison := [] })⟩ }

/-- BOOT_STEP (R414): the next step of bring-up; a step that is not the next changes nothing. -/
def State.bootStep (s : State) (b : BootInput) : State :=
  match s.pkg.bootState.toNat, b with
  | 0, .firmware slotA slotB =>
    if s.firmwareOk slotA then s.runFirmware slotA
    else if s.firmwareOk slotB then s.runFirmware slotB
    else s.bootFail 1
  | 1, .synchronise =>
    (s.modPkg fun k => { k with dies := k.dies.map fun d => { d with cycleBase := s.now, eventBase := s.now } }).bootTo 2
  | 2, .ucie failed =>
    let s1 := failed.foldl (fun a f => if moduleOk f.1 f.2 then a.retrainFailure f.1 f.2 else a) s
    if s1.anyPairLost then s1.bootFail 2 else s1.bootTo 3
  | 3, .memory ok il =>
    if !ok then s.bootFail 3
    else if 64 < il then s
    else (s.clearArrays.modPkg fun k => { k with il := il }).bootTo 4
  | 4, .hostLink ok => if ok then s.bootTo 5 else s.bootFail 4
  | 5, .scalePorts down => (s.modPkg fun k => { k with downPorts := down.filter fun p => decide (p < 36) }).bootTo 6
  | 6, .ready => s.bootTo 7
  | _, _ => s

/-- COLD_RESET (R413): every unit at its reset value. The fused minimum SVN never falls (R416), the memory of the
host and of other packages is not the package's, and the numbers of the model's own free values go on. -/
def State.coldReset (s : State) : State :=
  { State.reset with
    mem := ⟨s.mem.cells.filter fun c => decide (2 ^ 53 ≤ c.1)⟩
    nextId := s.nextId
    free := s.free
    pkg := { State.reset.pkg with raisedSvn := s.pkg.raisedSvn, boots := s.pkg.boots + 1 } }

/-! ## Attestation (R417) -/

/-- The octets of the partition map: each block's owner identifier, 128 where it has none, and each grant with the
owner identifier of its partition. The
manual names what the map holds and not its layout (DESIGN CHOICE, log entry 15). -/
def State.partitionMap (s : State) : List Byte :=
  ((List.range 128).map fun b => BitVec.ofNat 8 (s.pkg.blockOwner.get 128 b)) ++
    s.parts.flatMap fun p => p.grants.flatMap fun g =>
      leBytes 1 p.owner ++ leBytes 1 g.1 ++ leBytes 2 g.2.1 ++ leBytes 4 g.2.2.1 ++ leBytes 4 g.2.2.2

/-- ATTESTATION_NONCE_WRITE (R417): once BAR0 is usable, the report and its signature stand in the mailbox. -/
def State.attest (s : State) (nonce : BitVec 256) : State :=
  if s.pkg.bootState.toNat < 5 || 7 < s.pkg.bootState.toNat then s
  else
    let (n, s1) := s.draw
    let body := leBytes 32 nonce.toNat ++ leBytes 48 s.pkg.firmwareDigest.toNat ++ leBytes 4 s.pkg.firmwareSvn.toNat ++
      digestField s.partitionMap ++ leBytes 2 s.pkg.number
    s1.modPkg fun k =>
      { k with report := body ++ signMessage (Config.attestKey k.boots) (Config.signSecret n) body }

/-! ## Power (R418, R419) -/

/-- The duty value that a sample gives a die: 4 above 105 °C, and 4 to 16 otherwise (R418). -/
def dutyOf (p : PowerReading) : Nat := if 105 < p.temp.toNat then 4 else Nat.max 4 (Nat.min 16 p.duty)

/-- POWER_SAMPLE (R418, R419): the telemetry of a die and its duty; at 115 °C a stop wave to every partition, and a
record. -/
def State.powerSample (s : State) (p : PowerReading) : State :=
  let s1 := s.modPkg fun k =>
    { k with pkgPower := p.pkgPower
             dies := vset k.dies p.die { (vget k.dies p.die {}) with power := p.diePower, temp := p.temp, duty := dutyOf p } }
  if p.temp.toNat < 115 then s1
  else
    (s1.parts.foldl (fun a q => a.stopWord q.id) s1).log
      { cause := 0x18, src := 14, unit := p.die, owner := none, aux := p.temp.toNat, die := p.die }

/-! ## Errors (R234, R350) -/

/-- The number of a poisoned entry added to a list. -/
def addNat (k : Nat) (l : List Nat) : List Nat := if l.contains k then l else k :: l

/-- A register found bad: of a region that has written it, the region is discarded; else it is poisoned. -/
def State.badReg (s : State) (tile slot : Nat) (r : BitVec 5) : State :=
  let th := s.thread tile slot
  if r = 0#5 then s
  else if !th.sup && th.wroteR.getLsbD r.toNat then s.discardCounted tile slot 0x05#6
  else s.setThread tile slot { th with poisonR := th.poisonR ||| (1#32 <<< r.toNat) }

/-- A predicate found bad. -/
def State.badPred (s : State) (tile slot : Nat) (p : BitVec 4) : State :=
  let th := s.thread tile slot
  if p = 0#4 then s
  else if !th.sup && th.wroteP.getLsbD p.toNat then s.discardCounted tile slot 0x05#6
  else s.setThread tile slot { th with poisonP := th.poisonP ||| (1#16 <<< p.toNat) }

/-- An instance discarded for an uncorrectable error in its data, which the error window of its unit counts
(R231). -/
def State.badInstance (s : State) (img : Nat) (u : CounterId) : State :=
  match s.liveImage? img with
  | none => s
  | some m => if m.metBy s.now then (s.discardInstance img { cause := some 0x05 }).correctedEvent u else s

/-- A physical W word found bad: of a scratch window in an open instance, it discards the instance; else it is
poisoned. -/
def State.badWord (s : State) (tile col row index : Nat) : State :=
  let p : TeId := (tile, col, row)
  let e := s.teAt p
  let inScratch (i : Nat) : Bool := s.wKey p i == 8192 * teKey col row + index
  let open_ := ((List.range (e.scrLim.toNat - e.scrBase.toNat)).map (e.scrBase.toNat + ·)).any inScratch
  match (s.imageOf p).filter fun m => m.metBy s.now with
  | some m =>
    if open_ then s.badInstance m.id ⟨unitTE, 1024 * tile + teKey col row, 0⟩
    else s.modTile tile fun x => { x with wPoison := addNat (8192 * teKey col row + index) x.wPoison }
  | none => s.modTile tile fun x => { x with wPoison := addNat (8192 * teKey col row + index) x.wPoison }

/-- A tile with its two contexts exchanged. -/
def Tile.exchanged (x : Tile) : Tile := { x with ctx := x.shadow, shadow := x.ctx }

/-- The tile of a place of an error that a tile's context holds. -/
def errTile : ErrLoc → Nat
  | .granule _ | .fabricRun _ => 0
  | .wWord t .. | .slotHalf t .. | .sReg t .. | .pReg t .. | .held t .. | .accum t _ | .mapEntry t _ | .bedWord t _
  | .tokenSlot t _ | .threadRegion t _ | .trapRegs t _ => t
  | .snapshot _ t .. => t
  | .inShadow l => errTile l

/-- UNCORRECTABLE_ERROR (R234, R350). A place in a swapped context is that of its tile's other context, whose
entries it poisons. The discard that an error in region data causes (R228) has the code of POISON, 0x05 (DESIGN CHOICE,
log entry 39). -/
def State.uncorrectable (s : State) (l : ErrLoc) : State :=
  match l with
  | .granule loc => if loc < 2 ^ 49 then { s with poison := insertNat (granuleOf loc) s.poison } else s
  | .wWord t c r i => s.badWord t c r i
  | .slotHalf t c r k => s.modTeAt (t, c, r) fun e => { e with slotPoison := e.slotPoison ||| (1#32 <<< k) }
  | .sReg t k r => s.badReg t k r
  | .pReg t k p => s.badPred t k p
  | .held t cell entry => s.modPool t fun p => { p with heldPoison := addNat (heldKey cell entry) p.heldPoison }
  | .accum t i => s.modPool t fun p => { p with accPoison := addNat i p.accPoison }
  | .mapEntry t k => s.modPool t fun p => { p with mapPoison := addNat k p.mapPoison }
  | .bedWord t k =>
    s.modPool t fun p =>
      match p.beds[k]? with
      | some w => { p with bedPoison := addNat (bedFirst w) p.bedPoison }
      | none => p
  | .tokenSlot t k => s.modToken t k fun x => { x with poisoned := true }
  | .threadRegion t k => s.discardCounted t k 0x05#6
  | .fabricRun img =>
    match s.image? img with
    | none => s
    | some m => s.badInstance img ⟨unitTE, 1024 * m.leader, 0⟩
  | .trapRegs t k => s.modThread t k fun th => { th with trapsPoisoned := true }
  | .snapshot img t c r =>
    s.modImage img fun m =>
      if m.active && m.tes.contains (t, c, r) && !m.snapPoison.contains (t, c, r) then
        { m with snapPoison := (t, c, r) :: m.snapPoison }
      else m
  | .inShadow x => ((s.modTile (errTile x) Tile.exchanged).uncorrectable x).modTile (errTile x) Tile.exchanged

/-- Whether a place of an error is one of those that a swapped context holds (R345). -/
def errSwapped (l : ErrLoc) : Bool :=
  match l with
  | .slotHalf .. | .sReg .. | .pReg .. | .held .. | .accum .. | .mapEntry .. | .bedWord .. | .tokenSlot .. | .trapRegs .. =>
    true
  | _ => false

/-- Whether a place of an error lies in the package. -/
def errOk (l : ErrLoc) : Bool :=
  match l with
  | .granule _ | .fabricRun _ | .snapshot .. => true
  | .wWord t c r i => decide (t < 2048) && decide (c < 20) && decide (r < 10) && decide (i < 8192)
  | .slotHalf t c r k => decide (t < 2048) && decide (c < 20) && decide (r < 10) && decide (k < 32)
  | .sReg t k _ | .pReg t k _ | .threadRegion t k | .trapRegs t k => decide (t < 2048) && decide (k < 4)
  | .held t cell entry => decide (t < 2048) && decide (cell < 2048) && decide (entry < 16)
  | .accum t i => decide (t < 2048) && decide (i < 2048)
  | .mapEntry t k => decide (t < 2048) && decide (k < 2048)
  | .bedWord t k => decide (t < 2048) && decide (k < 64)
  | .tokenSlot t k => decide (t < 2048) && decide (k < 64)
  | .inShadow x => errSwapped x && errOk x

/-! ## The events -/

/-- TRANSLATION_INVALIDATION (R328): see `State.invalidate`. -/
def execTranslationInvalidation (r : InvalScope) (s : State) : Host.Outcome State Fault Refusal :=
  .next (s.invalidate r)

/-- GRANULE_SCRUB (R323): see `State.scrub`. -/
def execGranuleScrub (loc : Nat) (v : List (BitVec 8)) (s : State) : Host.Outcome State Fault Refusal :=
  .next (s.scrub loc v)

/-- MANAGEMENT_REGISTER_WRITE (R332): see `State.manage`. -/
def execManagementRegisterWrite (w : MgmtWrite) (s : State) : Host.Outcome State Fault Refusal := .next (s.manage w)

/-- COUNTER_READ (R419, R420): see `State.readCounter`. -/
def execCounterRead (c : CounterId) (s : State) : Host.Outcome State Fault Refusal := .next (s.readCounter c)

/-- HOST_CXL_MEM_WRITE (R333): see `State.hostWrite`. -/
def execHostCxlMemWrite (pa : Nat) (v : List (BitVec 8)) (s : State) : Host.Outcome State Fault Refusal :=
  .next (s.hostWrite pa v)

/-- HOST_CXL_MEM_READ (R333): see `State.hostRead`. -/
def execHostCxlMemRead (pa n : Nat) (s : State) : Host.Outcome State Fault Refusal := .next (s.hostRead pa n)

/-- HOST_CONFIG_REQUEST (R415): see `State.hostConfig`. -/
def execHostConfigRequest (_offset : Nat) (s : State) : Host.Outcome State Fault Refusal := .next s.hostConfig

/-- HOST_ATOMICOP (R332): it completes as Unsupported Request. -/
def execHostAtomicop (_pa : Nat) (s : State) : Host.Outcome State Fault Refusal := .next (s.replyHost false [])

/-- ATTESTATION_NONCE_WRITE (R417): see `State.attest`. -/
def execAttestationNonceWrite (nonce : BitVec 256) (s : State) : Host.Outcome State Fault Refusal :=
  .next (s.attest nonce)

/-- COLD_RESET (R413): see `State.coldReset`. -/
def execColdReset (s : State) : Host.Outcome State Fault Refusal := .next s.coldReset

/-- BOOT_STEP (R414): see `State.bootStep`. -/
def execBootStep (b : BootInput) (s : State) : Host.Outcome State Fault Refusal := .next (s.bootStep b)

/-- POWER_SAMPLE (R418): see `State.powerSample`. -/
def execPowerSample (p : PowerReading) (s : State) : Host.Outcome State Fault Refusal :=
  if 8 ≤ p.die then .fault .noSuchUnit else .next (s.powerSample p)

/-- SRAM_SCRUB (R350, R351): a word that needed correction is corrected and counted. -/
def execSramScrub (unit : CounterId) (found : Bool) (s : State) : Host.Outcome State Fault Refusal :=
  .next (if found then s.correctedEvent unit else s)

/-- UNCORRECTABLE_ERROR (R350): see `State.uncorrectable`. -/
def execUncorrectableError (loc : ErrLoc) (s : State) : Host.Outcome State Fault Refusal :=
  if errOk loc then .next (s.uncorrectable loc) else .fault .noSuchUnit

end Sys2Proof.Machine
end

