-- ==== Sys2Proof/Machine/Dispatch.lean ====
section
/-! DEFINITION. The dispatcher: one arm for each constructor of `Instr`, each a call of its meaning. -/

namespace Sys2Proof.Machine

/-- The meaning of every step. -/
def exec (i : Instr) (s : State) : Host.Outcome State Fault Refusal :=
  match i with
  | .add c d a b => Sys2Proof.Machine.execAdd c d a b s
  | .sub c d a b => Sys2Proof.Machine.execSub c d a b s
  | .and c d a b => Sys2Proof.Machine.execAnd c d a b s
  | .or c d a b => Sys2Proof.Machine.execOr c d a b s
  | .xor c d a b => Sys2Proof.Machine.execXor c d a b s
  | .andn c d a b => Sys2Proof.Machine.execAndn c d a b s
  | .shl c d a b => Sys2Proof.Machine.execShl c d a b s
  | .shr c d a b => Sys2Proof.Machine.execShr c d a b s
  | .sra c d a b => Sys2Proof.Machine.execSra c d a b s
  | .min c d a b => Sys2Proof.Machine.execMin c d a b s
  | .max c d a b => Sys2Proof.Machine.execMax c d a b s
  | .minu c d a b => Sys2Proof.Machine.execMinu c d a b s
  | .maxu c d a b => Sys2Proof.Machine.execMaxu c d a b s
  | .clz c d a => Sys2Proof.Machine.execClz c d a s
  | .popc c d a => Sys2Proof.Machine.execPopc c d a s
  | .sext c d a b => Sys2Proof.Machine.execSext c d a b s
  | .mul c d a b => Sys2Proof.Machine.execMul c d a b s
  | .mulh c d a b => Sys2Proof.Machine.execMulh c d a b s
  | .mulhu c d a b => Sys2Proof.Machine.execMulhu c d a b s
  | .div c d a b => Sys2Proof.Machine.execDiv c d a b s
  | .divu c d a b => Sys2Proof.Machine.execDivu c d a b s
  | .rem c d a b => Sys2Proof.Machine.execRem c d a b s
  | .remu c d a b => Sys2Proof.Machine.execRemu c d a b s
  | .bfx c d a b => Sys2Proof.Machine.execBfx c d a b s
  | .bfxu c d a b => Sys2Proof.Machine.execBfxu c d a b s
  | .bfi c d a b => Sys2Proof.Machine.execBfi c d a b s
  | .rotl c d a b => Sys2Proof.Machine.execRotl c d a b s
  | .bswap c d a => Sys2Proof.Machine.execBswap c d a s
  | .addi c d a imm => Sys2Proof.Machine.execAddi c d a imm s
  | .andi c d a imm => Sys2Proof.Machine.execAndi c d a imm s
  | .ori c d a imm => Sys2Proof.Machine.execOri c d a imm s
  | .xori c d a imm => Sys2Proof.Machine.execXori c d a imm s
  | .shli c d a imm => Sys2Proof.Machine.execShli c d a imm s
  | .shri c d a imm => Sys2Proof.Machine.execShri c d a imm s
  | .srai c d a imm => Sys2Proof.Machine.execSrai c d a imm s
  | .setlo c d imm => Sys2Proof.Machine.execSetlo c d imm s
  | .setsh c d imm => Sys2Proof.Machine.execSetsh c d imm s
  | .ldlit c d imm => Sys2Proof.Machine.execLdlit c d imm s
  | .cmp c pd cond a b pair => Sys2Proof.Machine.execCmp c pd cond a b pair s
  | .cmpi c pd cond a imm pair => Sys2Proof.Machine.execCmpi c pd cond a imm pair s
  | .pand c pd pa pb => Sys2Proof.Machine.execPand c pd pa pb s
  | .por c pd pa pb => Sys2Proof.Machine.execPor c pd pa pb s
  | .pxor c pd pa pb => Sys2Proof.Machine.execPxor c pd pa pb s
  | .pandn c pd pa pb => Sys2Proof.Machine.execPandn c pd pa pb s
  | .porn c pd pa pb => Sys2Proof.Machine.execPorn c pd pa pb s
  | .pnand c pd pa pb => Sys2Proof.Machine.execPnand c pd pa pb s
  | .pnor c pd pa pb => Sys2Proof.Machine.execPnor c pd pa pb s
  | .ldprm c d a off win => Sys2Proof.Machine.execLdprm c d a off win s
  | .br c off => Sys2Proof.Machine.execBr c off s
  | .call c off => Sys2Proof.Machine.execCall c off s
  | .jr c a => Sys2Proof.Machine.execJr c a s
  | .jalr c d a => Sys2Proof.Machine.execJalr c d a s
  | .ret c => Sys2Proof.Machine.execRet c s
  | .loop c d imm => Sys2Proof.Machine.execLoop c d imm s
  | .bsel c d a b => Sys2Proof.Machine.execBsel c d a b s
  | .tfence c => Sys2Proof.Machine.execTfence c s
  | .trap c a => Sys2Proof.Machine.execTrap c a s
  | .eret c => Sys2Proof.Machine.execEret c s
  | .halt c => Sys2Proof.Machine.execHalt c s
  | .yield c => Sys2Proof.Machine.execYield c s
  | .rmark c => Sys2Proof.Machine.execRmark c s
  | .mfs c d imm => Sys2Proof.Machine.execMfs c d imm s
  | .mfsFtrap c d => Sys2Proof.Machine.execMfsFtrap c d s
  | .mts c d imm => Sys2Proof.Machine.execMts c d imm s
  | .ldsp c d a off sz => Sys2Proof.Machine.execLdsp c d a off sz s
  | .ldspu c d a off sz => Sys2Proof.Machine.execLdspu c d a off sz s
  | .stsp c d a off sz => Sys2Proof.Machine.execStsp c d a off sz s
  | .ldspi c d a off sz => Sys2Proof.Machine.execLdspi c d a off sz s
  | .stspi c d a off sz => Sys2Proof.Machine.execStspi c d a off sz s
  | .ldsh c d a off sz => Sys2Proof.Machine.execLdsh c d a off sz s
  | .ldshu c d a off sz => Sys2Proof.Machine.execLdshu c d a off sz s
  | .stsh c d a off sz => Sys2Proof.Machine.execStsh c d a off sz s
  | .ldg c d a off sz => Sys2Proof.Machine.execLdg c d a off sz s
  | .ldgu c d a off sz => Sys2Proof.Machine.execLdgu c d a off sz s
  | .stg c d a off sz => Sys2Proof.Machine.execStg c d a off sz s
  | .ldh c d a off sz => Sys2Proof.Machine.execLdh c d a off sz s
  | .sth c d a off sz => Sys2Proof.Machine.execSth c d a off sz s
  | .ldacq c d a space scope sz => Sys2Proof.Machine.execLdacq c d a space scope sz s
  | .strel c d a space scope sz => Sys2Proof.Machine.execStrel c d a space scope sz s
  | .amospAdd c d a b => Sys2Proof.Machine.execAmospAdd c d a b s
  | .amospAnd c d a b => Sys2Proof.Machine.execAmospAnd c d a b s
  | .amospOr c d a b => Sys2Proof.Machine.execAmospOr c d a b s
  | .amospXor c d a b => Sys2Proof.Machine.execAmospXor c d a b s
  | .amospMin c d a b => Sys2Proof.Machine.execAmospMin c d a b s
  | .amospMax c d a b => Sys2Proof.Machine.execAmospMax c d a b s
  | .amospSwap c d a b => Sys2Proof.Machine.execAmospSwap c d a b s
  | .amospCas c d a b => Sys2Proof.Machine.execAmospCas c d a b s
  | .amoshAdd c d a b => Sys2Proof.Machine.execAmoshAdd c d a b s
  | .amoshAnd c d a b => Sys2Proof.Machine.execAmoshAnd c d a b s
  | .amoshOr c d a b => Sys2Proof.Machine.execAmoshOr c d a b s
  | .amoshXor c d a b => Sys2Proof.Machine.execAmoshXor c d a b s
  | .amoshMin c d a b => Sys2Proof.Machine.execAmoshMin c d a b s
  | .amoshMax c d a b => Sys2Proof.Machine.execAmoshMax c d a b s
  | .amoshSwap c d a b => Sys2Proof.Machine.execAmoshSwap c d a b s
  | .amoshCas c d a b => Sys2Proof.Machine.execAmoshCas c d a b s
  | .amogAdd c d a b => Sys2Proof.Machine.execAmogAdd c d a b s
  | .amogAnd c d a b => Sys2Proof.Machine.execAmogAnd c d a b s
  | .amogOr c d a b => Sys2Proof.Machine.execAmogOr c d a b s
  | .amogXor c d a b => Sys2Proof.Machine.execAmogXor c d a b s
  | .amogMin c d a b => Sys2Proof.Machine.execAmogMin c d a b s
  | .amogMax c d a b => Sys2Proof.Machine.execAmogMax c d a b s
  | .amogSwap c d a b => Sys2Proof.Machine.execAmogSwap c d a b s
  | .amogCas c d a b => Sys2Proof.Machine.execAmogCas c d a b s
  | .amohAdd c d a b => Sys2Proof.Machine.execAmohAdd c d a b s
  | .amohAnd c d a b => Sys2Proof.Machine.execAmohAnd c d a b s
  | .amohOr c d a b => Sys2Proof.Machine.execAmohOr c d a b s
  | .amohXor c d a b => Sys2Proof.Machine.execAmohXor c d a b s
  | .amohMin c d a b => Sys2Proof.Machine.execAmohMin c d a b s
  | .amohMax c d a b => Sys2Proof.Machine.execAmohMax c d a b s
  | .amohSwap c d a b => Sys2Proof.Machine.execAmohSwap c d a b s
  | .amohCas c d a b => Sys2Proof.Machine.execAmohCas c d a b s
  | .drain c space => Sys2Proof.Machine.execDrain c space s
  | .sbar c a => Sys2Proof.Machine.execSbar c a s
  | .dbar c => Sys2Proof.Machine.execDbar c s
  | .fence c scope => Sys2Proof.Machine.execFence c scope s
  | .wfe c a => Sys2Proof.Machine.execWfe c a s
  | .twait c tok level => Sys2Proof.Machine.execTwait c tok level s
  | .accrd c d a imm => Sys2Proof.Machine.execAccrd c d a imm s
  | .pmode c a b => Sys2Proof.Machine.execPmode c a b s
  | .pbed c a b => Sys2Proof.Machine.execPbed c a b s
  | .pbeds c a b => Sys2Proof.Machine.execPbeds c a b s
  | .pmap c a b => Sys2Proof.Machine.execPmap c a b s
  | .phold c a b => Sys2Proof.Machine.execPhold c a b s
  | .pflow c a b => Sys2Proof.Machine.execPflow c a b s
  | .pdrain c a b => Sys2Proof.Machine.execPdrain c a b s
  | .pzero c a b => Sys2Proof.Machine.execPzero c a b s
  | .pspan c a b => Sys2Proof.Machine.execPspan c a b s
  | .pstat c d a b => Sys2Proof.Machine.execPstat c d a b s
  | .sdef c a b => Sys2Proof.Machine.execSdef c a b s
  | .scnt c a b => Sys2Proof.Machine.execScnt c a b s
  | .ssub c a b => Sys2Proof.Machine.execSsub c a b s
  | .sgo c a b => Sys2Proof.Machine.execSgo c a b s
  | .sstop c a b => Sys2Proof.Machine.execSstop c a b s
  | .sunf c a b => Sys2Proof.Machine.execSunf c a b s
  | .srgp c a b => Sys2Proof.Machine.execSrgp c a b s
  | .shash c a b => Sys2Proof.Machine.execShash c a b s
  | .cpshape c a b => Sys2Proof.Machine.execCpshape c a b s
  | .cpy c a b => Sys2Proof.Machine.execCpy c a b s
  | .cpyr c a b => Sys2Proof.Machine.execCpyr c a b s
  | .cpyf c a b => Sys2Proof.Machine.execCpyf c a b s
  | .gidx c a b => Sys2Proof.Machine.execGidx c a b s
  | .gath c a b => Sys2Proof.Machine.execGath c a b s
  | .scata c a b => Sys2Proof.Machine.execScata c a b s
  | .fload c a b => Sys2Proof.Machine.execFload c a b s
  | .fgo c a b => Sys2Proof.Machine.execFgo c a b s
  | .fstop c a b => Sys2Proof.Machine.execFstop c a b s
  | .fput c a b => Sys2Proof.Machine.execFput c a b s
  | .fget c d a b => Sys2Proof.Machine.execFget c d a b s
  | .fstat c d a b => Sys2Proof.Machine.execFstat c d a b s
  | .tjoin c a b => Sys2Proof.Machine.execTjoin c a b s
  | .treset c a b => Sys2Proof.Machine.execTreset c a b s
  | .tquery c d a b => Sys2Proof.Machine.execTquery c d a b s
  | .gstart c a b => Sys2Proof.Machine.execGstart c a b s
  | .garm c a b => Sys2Proof.Machine.execGarm c a b s
  | .gdone c a b => Sys2Proof.Machine.execGdone c a b s
  | .teMov t f => Sys2Proof.Machine.execTeMov t f s
  | .teAdd t f => Sys2Proof.Machine.execTeAdd t f s
  | .teSub t f => Sys2Proof.Machine.execTeSub t f s
  | .teMul t f => Sys2Proof.Machine.execTeMul t f s
  | .teMulh t f => Sys2Proof.Machine.execTeMulh t f s
  | .teMulhu t f => Sys2Proof.Machine.execTeMulhu t f s
  | .teAnd t f => Sys2Proof.Machine.execTeAnd t f s
  | .teOr t f => Sys2Proof.Machine.execTeOr t f s
  | .teXor t f => Sys2Proof.Machine.execTeXor t f s
  | .teAndn t f => Sys2Proof.Machine.execTeAndn t f s
  | .teShl t f => Sys2Proof.Machine.execTeShl t f s
  | .teShr t f => Sys2Proof.Machine.execTeShr t f s
  | .teSra t f => Sys2Proof.Machine.execTeSra t f s
  | .teMin t f => Sys2Proof.Machine.execTeMin t f s
  | .teMax t f => Sys2Proof.Machine.execTeMax t f s
  | .teMinu t f => Sys2Proof.Machine.execTeMinu t f s
  | .teMaxu t f => Sys2Proof.Machine.execTeMaxu t f s
  | .teCmp t f => Sys2Proof.Machine.execTeCmp t f s
  | .sel t f => Sys2Proof.Machine.execSel t f s
  | .teClz t f => Sys2Proof.Machine.execTeClz t f s
  | .tePopc t f => Sys2Proof.Machine.execTePopc t f s
  | .dot4 t f => Sys2Proof.Machine.execDot4 t f s
  | .teBfx t f => Sys2Proof.Machine.execTeBfx t f s
  | .hash t f => Sys2Proof.Machine.execHash t f s
  | .fadd t f => Sys2Proof.Machine.execFadd t f s
  | .fsub t f => Sys2Proof.Machine.execFsub t f s
  | .fmul t f => Sys2Proof.Machine.execFmul t f s
  | .fma t f => Sys2Proof.Machine.execFma t f s
  | .fms t f => Sys2Proof.Machine.execFms t f s
  | .fnma t f => Sys2Proof.Machine.execFnma t f s
  | .fmin t f => Sys2Proof.Machine.execFmin t f s
  | .fmax t f => Sys2Proof.Machine.execFmax t f s
  | .fabs t f => Sys2Proof.Machine.execFabs t f s
  | .fneg t f => Sys2Proof.Machine.execFneg t f s
  | .fcmp t f => Sys2Proof.Machine.execFcmp t f s
  | .frnd t f => Sys2Proof.Machine.execFrnd t f s
  | .fscale t f => Sys2Proof.Machine.execFscale t f s
  | .fexpo t f => Sys2Proof.Machine.execFexpo t f s
  | .fclass t f => Sys2Proof.Machine.execFclass t f s
  | .fhadd t f => Sys2Proof.Machine.execFhadd t f s
  | .xexpf t f => Sys2Proof.Machine.execXexpf t f s
  | .xlog2 t f => Sys2Proof.Machine.execXlog2 t f s
  | .xrcp t f => Sys2Proof.Machine.execXrcp t f s
  | .xrsq t f => Sys2Proof.Machine.execXrsq t f s
  | .xsqrt t f => Sys2Proof.Machine.execXsqrt t f s
  | .xsin t f => Sys2Proof.Machine.execXsin t f s
  | .xcos t f => Sys2Proof.Machine.execXcos t f s
  | .xtanh t f => Sys2Proof.Machine.execXtanh t f s
  | .steer t f => Sys2Proof.Machine.execSteer t f s
  | .merge t f => Sys2Proof.Machine.execMerge t f s
  | .join t f => Sys2Proof.Machine.execJoin t f s
  | .dup t f => Sys2Proof.Machine.execDup t f s
  | .gate t f => Sys2Proof.Machine.execGate t f s
  | .drop t f => Sys2Proof.Machine.execDrop t f s
  | .tag t f => Sys2Proof.Machine.execTag t f s
  | .carry t f => Sys2Proof.Machine.execCarry t f s
  | .ldcSp t m => Sys2Proof.Machine.execLdcSp t m s
  | .stcSp t m => Sys2Proof.Machine.execStcSp t m s
  | .ldcSh t m => Sys2Proof.Machine.execLdcSh t m s
  | .stcSh t m => Sys2Proof.Machine.execStcSh t m s
  | .ldcG t m => Sys2Proof.Machine.execLdcG t m s
  | .stcG t m => Sys2Proof.Machine.execStcG t m s
  | .amocSp t m => Sys2Proof.Machine.execAmocSp t m s
  | .amocSh t m => Sys2Proof.Machine.execAmocSh t m s
  | .amocG t m => Sys2Proof.Machine.execAmocG t m s
  | .cskip t m => Sys2Proof.Machine.execCskip t m s
  | .ropen t f => Sys2Proof.Machine.execRopen t f s
  | .rclose t f => Sys2Proof.Machine.execRclose t f s
  | .rabort t f => Sys2Proof.Machine.execRabort t f s
  | .done t f => Sys2Proof.Machine.execDone t f s
  | .teTrap t f => Sys2Proof.Machine.execTeTrap t f s
  | .teNop t f => Sys2Proof.Machine.execTeNop t f s
  | .lapset t f => Sys2Proof.Machine.execLapset t f s
  | .cvt t f => Sys2Proof.Machine.execCvt t f s
  | .pack t f => Sys2Proof.Machine.execPack t f s
  | .unpk t f => Sys2Proof.Machine.execUnpk t f s
  | .pset t f => Sys2Proof.Machine.execPset t f s
  | .tePlog t f => Sys2Proof.Machine.execTePlog t f s
  | .xset t f => Sys2Proof.Machine.execXset t f s
  | .xadd t f => Sys2Proof.Machine.execXadd t f s
  | .xcmp t f => Sys2Proof.Machine.execXcmp t f s
  | .dividerResult tile => Sys2Proof.Machine.execDividerResult tile s
  | .loadReply tile slot k => Sys2Proof.Machine.execLoadReply tile slot k s
  | .commandBufferDeparture tile slot => Sys2Proof.Machine.execCommandBufferDeparture tile slot s
  | .engineCommandBegin tile cmd => Sys2Proof.Machine.execEngineCommandBegin tile cmd s
  | .engineCommandComplete tile cmd => Sys2Proof.Machine.execEngineCommandComplete tile cmd s
  | .controlTokenDelivery tile => Sys2Proof.Machine.execControlTokenDelivery tile s
  | .illegal w => Sys2Proof.Machine.execIllegal w s
  | .storeAcknowledgement tile slot space => Sys2Proof.Machine.execStoreAcknowledgement tile slot space s
  | .poolPass tile => Sys2Proof.Machine.execPoolPass tile s
  | .configWavefront tile => Sys2Proof.Machine.execConfigWavefront tile s
  | .streamElementDelivery tile stream => Sys2Proof.Machine.execStreamElementDelivery tile stream s
  | .floadTakeover tile cmd => Sys2Proof.Machine.execFloadTakeover tile cmd s
  | .releaseFrozenCommand tile cmd => Sys2Proof.Machine.execReleaseFrozenCommand tile cmd s
  | .columnUnitReply tile col => Sys2Proof.Machine.execColumnUnitReply tile col s
  | .chainAccessAccept tile col row => Sys2Proof.Machine.execChainAccessAccept tile col row s
  | .chainRelease level unit ctx => Sys2Proof.Machine.execChainRelease level unit ctx s
  | .chainOverflow level unit img => Sys2Proof.Machine.execChainOverflow level unit img s
  | .instanceCommit img => Sys2Proof.Machine.execInstanceCommit img s
  | .linkAudit l => Sys2Proof.Machine.execLinkAudit l s
  | .auditReport l => Sys2Proof.Machine.execAuditReport l s
  | .linkParityFailure l f => Sys2Proof.Machine.execLinkParityFailure l f s
  | .queueOverflow tile col row d => Sys2Proof.Machine.execQueueOverflow tile col row d s
  | .egressArbitration level unit egress => Sys2Proof.Machine.execEgressArbitration level unit egress s
  | .barrierArrival gid => Sys2Proof.Machine.execBarrierArrival gid s
  | .requestTimeout t pairLost => Sys2Proof.Machine.execRequestTimeout t pairLost s
  | .remoteRequestArrival r => Sys2Proof.Machine.execRemoteRequestArrival r s
  | .ucieRetrainFailure die md => Sys2Proof.Machine.execUcieRetrainFailure die md s
  | .ucieFlitReplay die md => Sys2Proof.Machine.execUcieFlitReplay die md s
  | .launchRegisterWrite plot reg v => Sys2Proof.Machine.execLaunchRegisterWrite plot reg v s
  | .nodeReady plot graph node => Sys2Proof.Machine.execNodeReady plot graph node s
  | .nodeComplete plot graph node => Sys2Proof.Machine.execNodeComplete plot graph node s
  | .groupPlacement plot => Sys2Proof.Machine.execGroupPlacement plot s
  | .groupStart gid => Sys2Proof.Machine.execGroupStart gid s
  | .groupEnd gid => Sys2Proof.Machine.execGroupEnd gid s
  | .blockGate block => Sys2Proof.Machine.execBlockGate block s
  | .blockWakeComplete block => Sys2Proof.Machine.execBlockWakeComplete block s
  | .armedRound tile => Sys2Proof.Machine.execArmedRound tile s
  | .stopWordWrite part => Sys2Proof.Machine.execStopWordWrite part s
  | .stopWaveArrival part tile => Sys2Proof.Machine.execStopWaveArrival part tile s
  | .swap part => Sys2Proof.Machine.execSwap part s
  | .resume part => Sys2Proof.Machine.execResume part s
  | .terminate gid => Sys2Proof.Machine.execTerminate gid s
  | .nodeBoundaryPreemption plot part => Sys2Proof.Machine.execNodeBoundaryPreemption plot part s
  | .translationInvalidation r => Sys2Proof.Machine.execTranslationInvalidation r s
  | .switchSettingsWrite level unit egress v => Sys2Proof.Machine.execSwitchSettingsWrite level unit egress v s
  | .granuleScrub loc v => Sys2Proof.Machine.execGranuleScrub loc v s
  | .managementRegisterWrite w => Sys2Proof.Machine.execManagementRegisterWrite w s
  | .counterRead c => Sys2Proof.Machine.execCounterRead c s
  | .hostCxlMemWrite pa v => Sys2Proof.Machine.execHostCxlMemWrite pa v s
  | .hostCxlMemRead pa n => Sys2Proof.Machine.execHostCxlMemRead pa n s
  | .hostConfigRequest offset => Sys2Proof.Machine.execHostConfigRequest offset s
  | .hostAtomicop pa => Sys2Proof.Machine.execHostAtomicop pa s
  | .attestationNonceWrite nonce => Sys2Proof.Machine.execAttestationNonceWrite nonce s
  | .coldReset => Sys2Proof.Machine.execColdReset s
  | .dieReset die => Sys2Proof.Machine.execDieReset die s
  | .partitionReset part => Sys2Proof.Machine.execPartitionReset part s
  | .bootStep b => Sys2Proof.Machine.execBootStep b s
  | .powerSample p => Sys2Proof.Machine.execPowerSample p s
  | .sramScrub unit found => Sys2Proof.Machine.execSramScrub unit found s
  | .uncorrectableError loc => Sys2Proof.Machine.execUncorrectableError loc s
  | .terminateFrozenCommand tile cmd => Sys2Proof.Machine.execTerminateFrozenCommand tile cmd s
  | .chainLoadReply level unit entry => Sys2Proof.Machine.execChainLoadReply level unit entry s

end Sys2Proof.Machine
end

