-- ==== Sys2Proof/Machine/Schedule.lean ====
section
/-! DEFINITION. What moves by itself: the word that a thread fetches, its readiness (R240) and the issue
scheduler (R241); the priority encoder of a TE (R143); the units of a tile and of the package; and the plan of
a tile's turn. -/

namespace Sys2Proof.Machine

/-! ## Fetch -/

/-- What stands at a thread's pc: an instruction, a word that is none, or no text at all. -/
inductive Fetched where
  | instr (i : Instr)
  | illegal (w : BitVec 32)
  | outside
  deriving DecidableEq, Repr

/-- The word at a thread's pc, decoded (R39, R57). -/
def State.fetch (s : State) (tile slot : Nat) : Fetched :=
  let th := s.thread tile slot
  match s.textLoc tile th.gid th.sup th.pc 4 with
  | none => .outside
  | some l =>
    match decode (s.mem.readBytes l 4) with
    | .ok i => .instr i
    | .error _ => .illegal (BitVec.ofNat 32 (s.mem.readLe l 4))

/-- A fetched word issues on the thread in focus; a pc outside the group's text traps ACCESS (R57, R58;
DEDUCED, log entry 7). -/
def State.runFetched (s : State) (f : Fetched) : Host.Outcome State Fault Refusal :=
  match f with
  | .instr i => exec i s
  | .illegal w => .next (s.begin.trapNow { code := 0x01#6, tval := some (w.setWidth 64) })
  | .outside => .next (s.begin.trapNow (textTrap s.begin.cur.pc))

/-! ## Readiness (R240) -/

/-- The guard of a control word. -/
def guardOf (i : Instr) : BitVec 4 :=
  match encodeWord i with
  | some w => fld w 24 4
  | none => 0#4

/-- Whether the results that a word waits for are written (R53): the scoreboarded results of what it reads
and writes, and every earlier result to what it writes. A fixed-latency operand makes no word wait, as R53 and R54 say,
though the table under Interleaving, after R242, shows a store that waits for one (DEDUCED, log entry 96). -/
def Thread.resultsReady (th : Thread) (i : Instr) : Bool :=
  let u := uses i
  (u.rd.all fun r => !th.awaits r) &&
    (u.wr.all fun r => !th.awaits r && (r == 0#5 || th.pend.all fun p => p.reg != r.toNat)) &&
    u.wp.all fun p => p == 0#4 || th.pend.all fun q => q.reg != 32 + p.toNat

/-- Whether a word is of the DIV family (R62). -/
def isDivision (i : Instr) : Bool :=
  match i with
  | .div .. | .divu .. | .rem .. | .remu .. => true
  | _ => false

/-- The conditions of R240 that the next word does not enter into. -/
def State.threadFree (s : State) (tile slot : Nat) : Bool :=
  let th := s.thread tile slot
  th.status == .running && !(s.tile tile).stopped && decide (th.earliest ≤ s.now) && !th.waiting &&
    (match th.yielded with
     | none => true
     | some c =>
       decide (c + 16 ≤ s.now) ||
         (match (s.tile tile).lastIssue with
          | some (k, d) => k != slot && decide (c < d)
          | none => false)) &&
    (!th.fresh || (th.outstanding.isEmpty && (th.settle s.now).pend.isEmpty))

/-- `ready(t, c)` at the start of the cycle (R240). -/
def State.ready (s : State) (tile slot : Nat) : Bool :=
  s.threadFree tile slot &&
    (match s.fetch tile slot with
     | .instr i =>
       let th := (s.thread tile slot).settle s.now
       !th.pred (guardOf i) ||
         (th.resultsReady i && !(isDivision i && (s.tile tile).divider.isSome) &&
           !((engineWord i).isSome && th.bufferFull))
     | _ => true)

/-! ## The issue scheduler (R241) -/

/-- Whether thread `k` goes before thread `j` among the ready threads of a tile (R241): at or past AGELIM
the larger age first, and before that the smaller role code, then the larger age, then the lower
number. -/
def State.before (s : State) (tile k j : Nat) : Bool :=
  let a := s.thread tile k
  let b := s.thread tile j
  let lim := (s.ctx tile).agelim.toNat
  let pa := decide (lim ≤ a.age)
  let pb := decide (lim ≤ b.age)
  if pa != pb then pa
  else if !pa && a.role != b.role then decide (a.role.toNat < b.role.toNat)
  else if a.age != b.age then decide (b.age < a.age)
  else decide (k < j)

/-- The ready threads of a tile. -/
def State.readySlots (s : State) (tile : Nat) : List Nat := [0, 1, 2, 3].filter fun k => s.ready tile k

/-- The thread that issues in this cycle, if any (R241). -/
def State.winner (s : State) (tile : Nat) : Option Nat :=
  let r := s.readySlots tile
  r.find? fun k => r.all fun j => j == k || s.before tile k j

/-- The ages after the choice of `w` (R241). -/
def State.aged (s : State) (tile w : Nat) : State :=
  let r := s.readySlots tile
  let s1 := r.foldl (fun acc k =>
    if k = w then acc.modThread tile k fun th => { th with age := 0, yielded := none, fresh := false }
    else (acc.modThread tile k fun th => { th with age := th.age + 1 }).count 0 (4 * tile + k) 2) s
  s1.modTile tile fun x => { x with lastIssue := some (w, s.now) }

/-- The issue of a tile's cycle: the winner's word (R241). -/
def State.issue (s : State) (tile : Nat) : Host.Outcome State Fault Refusal :=
  match s.winner tile with
  | none => .next s
  | some k =>
    let s1 := s.aged tile k
    { s1 with focus := { s1.focus with tile := tile, slot := k } }.runFetched (s.fetch tile k)

/-- A word that holds its thread looked at again (R55). -/
def State.poll (s : State) (tile slot : Nat) : Host.Outcome State Fault Refusal :=
  let th := s.thread tile slot
  if th.waiting && th.status == .running && !(s.tile tile).stopped then
    { s with focus := { s.focus with tile := tile, slot := slot } }.runFetched (s.fetch tile slot)
  else .next s

/-! ## The priority encoder of a TE (R143) -/

/-- Whether a slot of a TE is ready (R143). -/
def State.mayFire (s : State) (p : TeId) (i : Instr) : Bool :=
  match i.compute?, i.memory? with
  | some (t, f, k, _), _ =>
    (formShape k t f (s.teAt p) (s.source p (s.teAt p) f [] 0)).any fun sh => s.slotReady p t sh
  | none, some (t, m, _) => s.slotReady p t (memShape t m)
  | none, none => false

/-- The lowest ready slot of a TE from slot `k` on, among the slots listed (R143); a slot that holds the TE goes
before all (R165). -/
def State.firstReadySlot (s : State) (p : TeId) : Nat → List (BitVec 128) → Option (Nat × Instr)
  | _, [] => none
  | k, w :: ws =>
    match decodeSlot w with
    | .ok i => if !(s.teAt p).heldAt k && s.mayFire p i then some (k, i) else s.firstReadySlot p (k + 1) ws
    | .error _ => s.firstReadySlot p (k + 1) ws

/-- The cycle of one TE: its lowest ready slot fires (R143); a cycle with no ready slot is counted (R420). -/
def State.encoder (s : State) (p : TeId) : Host.Outcome State Fault Refusal :=
  match s.firstReadySlot p 0 (s.teAt p).slots with
  | none => .next (if (s.teAt p).started then s.count 1 p.1 2 else s)
  | some (k, i) =>
    exec i { s with focus := { s.focus with tile := p.1, col := p.2.1, row := p.2.2, teSlot := k } }

/-! ## The units of a tile -/

/-- A change for each number of a list, in order. -/
def forAll {α : Type} (l : List α) (f : State → α → State) (s : State) : State := l.foldl f s

/-- The thread slots of a tile. -/
def slotNumbers : List Nat := [0, 1, 2, 3]

/-- Results, reads that stood behind earlier accesses, acknowledgements and departures of a tile's threads (R53, R62,
R111, R220, R335), before which a request whose way is lost ends (R320). The four slots each perform at most one access
to SP in a cycle (DEDUCED, log entry 94). -/
def State.threadUnits (s : State) (t : Nat) : State :=
  let s1 := s.dividerResult t
  let s2 := forAll slotNumbers (fun a0 k =>
    let a := a0.performReads t k
    forAll ((a.thread t k).outstanding.map (·.id)) (fun b o => (b.loadTimeout t k o true).loadReply t k o) a) s1
  let s3 := forAll slotNumbers (fun a k =>
    forAll allSpaces (fun b x => (b.storeTimeout t k x true).storeAck t k x) a) s2
  forAll slotNumbers (fun a k => a.departure t k) s3

/-- The commands of a tile: each begins, or does its next piece of work (R275, R277). -/
def State.engineUnits (s : State) (t : Nat) : State :=
  forAll ((s.ctx t).cmds.map (·.id)) (fun a id =>
    match a.cmd? t id with
    | none => a
    | some c => if c.stage = .waiting then a.commandBegin t c else a.commandStep t c) s

/-- The takeovers of a tile's FLOADs: the next TE of each (R85). -/
def State.takeovers (s : State) (t : Nat) : State :=
  forAll ((s.ctx t).cmds.map (·.id)) (fun a id =>
    match a.cmd? t id with
    | none => a
    | some c => if c.func = 0x30#7 && c.stage == .running && !(a.tile t).stopped then a.floadTakeover t c else a) s

/-- The streams of a tile in the order in which they began (R422). -/
def State.streamOrder (s : State) (t : Nat) : List Nat :=
  (List.range 8).foldl (fun l i =>
    let first (j : Nat) : Bool := decide ((s.stream t j).began ≤ (s.stream t i).began)
    l.filter first ++ i :: l.filter fun j => !first j) []

/-- The pool and the streams of a tile (R369, R373, R384, R385, R422). -/
def State.poolUnits (s : State) (t : Nat) : State :=
  let s1 := ((s.configWavefront t).poolPass t).armedRound t
  forAll (s1.streamOrder t) (fun a i => a.streamDeliver t i) s1

/-- The cycles in which a stream, a copy or a sieve command of a tile is frozen, counted (R420). -/
def State.frozenCycles (s : State) (t : Nat) : State :=
  let frozen (u : Nat) : Bool := (s.ctx t).cmds.any fun c =>
    c.mover == some u && (match c.stage with
      | .frozen _ _ => true
      | _ => false)
  let s1 := if (s.ctx t).streams.toList.any fun st => st.frozen.isSome then s.count 3 t 2 else s
  [4, 5].foldl (fun a u => if frozen u then a.count u t 2 else a) s1

/-- The chain loads of a TE whose way is lost, ended (R320, R331). -/
def State.chainCut (s : State) (p : TeId) : State := s.chainTimeout p fun place _ => s.wayLost p.1 .g place

/-- The units that serve a tile's TEs: column units, collector, chain accesses, dropped tokens (R149, R177, R191,
R199). -/
def State.fabricUnits (s : State) (t : Nat) : State :=
  let s1 := forAll (List.range 20) (fun a c => a.columnReplied t c) s
  forAll (s1.tesOf t) (fun a p =>
    forAll slotNumbers (fun b d => b.queueOverflow p d) (((a.chainCut p).sendChain p).chainAccept p))
    ((s1.takeTokens t).deliverControl t)

/-- The memory interface of a tile: its threads' committed accesses presented, and its link's cycle (R256). -/
def State.interfaceUnits (s : State) (t : Nat) : State :=
  (forAll slotNumbers (fun a k => a.presentStores t k) s).linkTurn t

/-- A cycle in which a chain of a home finds that its next access has not arrived, counted (R196, R420). -/
def State.gapStall (s : State) (level unit : Nat) : State :=
  let h := s.homeAt level unit
  if h.ctxs.any fun k => (h.next k).isNone then s.count 6 (4096 * level + unit) 1 else s

/-- A home: its contexts release, and its loads reply (R195, R199). -/
def State.homeUnits (s0 : State) (level unit : Nat) : State :=
  let s := s0.gapStall level unit
  let s1 := forAll (List.range (s.homeAt level unit).ctxs.length) (fun a i => a.chainRelease level unit i) s
  forAll ((s1.homeAt level unit).entries.map (·.id)) (fun a id => a.chainLoadReply level unit id) s1

/-- The results that reach a tile's threads before its cycle's issue. -/
def State.results (s : State) (t : Nat) : State := { s with focus := { s.focus with tile := t } }.threadUnits t

/-- The units of a tile that need no scheduler, after its issue: what they set in a cycle, the next cycle's words
see (R51, R245). -/
def State.upkeep (s : State) (t : Nat) : State :=
  let s1 := (((s.engineUnits t).poolUnits t).frozenCycles t).fabricUnits t
  (s1.homeUnits 0 t).interfaceUnits t

/-! ## The package's own units -/

/-- The images: a closed instance commits, a blocked one overflows (R211, R229). -/
def State.imageUnits (s : State) : State :=
  forAll (s.images.map fun m => (m.id, m.home, m.homeUnit)) (fun a m =>
    (a.commitInstance m.1).chainOverflow m.2.1 m.2.2 m.1) s

/-- The switches: what a slice or a die root sends enters, and each egress arbitrates (R253, R254). -/
def State.switchUnits (s : State) : State :=
  forAll s.switches.keys (fun a k =>
    forAll (List.range 6) (fun b e => b.arbitrate (k / 4096) (k % 4096) e) (a.enterSwitch (k / 4096) (k % 4096))) s

/-- A sequencer: nodes that are ready begin, groups are placed, nodes complete, an aborted graph ends with its last
group (R303, R306), and the state of a partition that is pre-empted at a node boundary is saved (R348). -/
def State.sequencerUnits (s : State) (plot : Nat) : State :=
  let nodes := (s.seqr plot).graphs.flatMap fun g => (List.range g.nodes.length).map fun n => (g.id, n)
  let s1 := forAll nodes (fun a x => a.nodeReady plot x.1 x.2) s
  ((forAll nodes (fun a x => a.nodeComplete plot x.1 x.2) (s1.groupPlacement plot)).abortedEnds plot).boundarySave plot

/-- The barrier of a group: the arrivals that have reached it are counted, and a release that reaches the
participants with the next cycle changes the phase (R310, R421). -/
def State.barrierTurn (s : State) (gid : Nat) : State :=
  let n := ((s.group? gid).map fun g => g.arrivals.length).getD 0
  (forAll (List.range n) (fun a _ => a.barrierArrival gid) s).modGroup gid fun g => g.released (s.now + 1)

/-- The groups: a placed one starts, arrivals are counted at its barrier, a finished one ends (R307, R421). -/
def State.groupUnits (s : State) : State :=
  forAll (s.groups.map (·.gid)) (fun a g => ((a.groupStart g).barrierTurn g).groupEnd g) s

/-- The blocks of the partitions: a woken one is awake, an idle one is gated (R308). -/
def State.blockUnits (s : State) : State :=
  forAll (s.parts.flatMap (·.blocks)) (fun a b => (a.blockWake b).blockGate b) s

/-- The cycle of the 4,096 in which a link is audited: the links of a tile are staggered (R190; log entry 66). -/
def auditSlot (p : TeId) (d : Nat) : Nat := 5 * (4 * teKey p.2.1 p.2.2 + d)

/-- The TEs that the route of an output passes through (R175): `n` links may still be followed. -/
def State.hopsOf (s : State) : Nat → TeId → Nat → Nat
  | 0, _, _ => 0
  | n + 1, p, d =>
    match s.neighbour p d with
    | none => 0
    | some q =>
      match (s.teAt q).route (opposite d) with
      | 0 => 0
      | k + 1 => 1 + s.hopsOf n q k

/-- The cycles of an audit: 3 on a plain link, and 1 more in each direction for each seam and each TE of a route
(R173, R175, R190). -/
def State.auditCycles (s : State) (p : TeId) (d : Nat) : Nat :=
  match s.finalOf maxHops p d 0 with
  | some (_, _, seams) => 3 + 2 * (seams + s.hopsOf maxHops p d)
  | none => 3

/-- The audits of the neighbour links: each begun once in 4,096 cycles, and reported when it has run (R190). -/
def State.auditUnits (s : State) : State :=
  forAll (s.tiles.keys.flatMap fun t => s.tesOf t) (fun a p =>
    forAll [LinkDir.n, .e, .s, .w] (fun b d =>
      let l : LinkAt := ⟨p.1, p.2.1, p.2.2, d⟩
      match vget (b.teAt p).auditing (dirOf d) none with
      | some c => if c + b.auditCycles p (dirOf d) ≤ b.now then b.auditReport l else b
      | none => if b.now % 4096 = auditSlot p (dirOf d) % 4096 then b.linkAudit l else b) a) s

/-- The stop waves under way: each stops the tiles of the blocks that it has reached (R343). -/
def State.stopUnits (s : State) : State :=
  forAll (s.parts.filter fun p => p.stopping && !p.stopped) (fun a p =>
    forAll (p.tiles.filter fun t => p.reached.contains (t / 16)) (fun b t => b.stopWave p.id t) a) s

/-- The throttled cycles of each die, counted (R418, R420). -/
def State.throttledCycles (s : State) : State :=
  forAll (List.range 8) (fun a d => if a.throttled d then a.count 9 0 d else a) s

/-- The end of a cycle: the package's own units, and the next cycle. -/
def State.packageTurn (s : State) : State :=
  let s1 := forAll (s.homes.keys) (fun a k => a.homeUnits (k / 4096) (k % 4096)) s.farTurn
  let s2 := forAll s1.seqs.keys (fun a p => a.sequencerUnits p) s1.imageUnits.switchUnits
  let s3 := s2.groupUnits.blockUnits.auditUnits.stopUnits.throttledCycles.completeInvalidations.bankTurn
  { s3 with now := s3.now + 1 }

/-! ## The plan of a cycle -/

/-- What the threads of a tile do in a cycle: the results that reach them, the words that hold them, and one issue. -/
def State.threadTurn (s : State) (t : Nat) : List Action :=
  .results t :: ((slotNumbers.filter fun k => (s.thread t k).waiting).map fun k => .poll t k) ++ [.issue t]

/-- What the TEs of a tile that run do in a cycle. -/
def State.teTurn (s : State) (t : Nat) : List Action :=
  ((s.tesOf t).filter fun p => (s.teAt p).started).map fun p => .te p.1 p.2.1 p.2.2

/-- The agenda that follows an empty one, a cycle: the takeovers of FLOADs, before any other cause of a discard
(R232), the threads of every tile, then its TEs, whose traps reach EVT after the threads' words of the cycle (R51,
R151), then the other units of every tile, and the package's. -/
def State.plan (s : State) : List Action :=
  let ts := s.tiles.keys
  .takeovers :: ts.flatMap s.threadTurn ++ ts.flatMap s.teTurn ++ ts.map .units ++ [.package]

/-- An action performed. -/
def State.act (s : State) (a : Action) : Host.Outcome State Fault Refusal :=
  match a with
  | .takeovers => .next (forAll s.tiles.keys State.takeovers s)
  | .results t => .next (s.results t)
  | .units t => .next (s.upkeep t)
  | .poll t k => s.poll t k
  | .issue t => s.issue t
  | .te t c r => s.encoder (t, c, r)
  | .package => .next s.packageTurn
  | .event i => exec i s

end Sys2Proof.Machine
end

