-- ==== Sys2Proof/Machine/Step.lean ====
section
/-! DEFINITION. The step: the action at the head of the agenda, or, where the agenda is empty, the plan of the
next turn; and the state in which a given instruction is the next to run. -/

namespace Sys2Proof.Machine

/-- The step of the package. -/
def step (s : State) : Host.Outcome State Fault Refusal :=
  match s.agenda with
  | [] => .next { s with agenda := s.plan }
  | a :: rest => { s with agenda := rest }.act a

/-- The state with a group on tile 0 whose text starts at text address 0 of the tile's store, in a partition of
its own. -/
def State.withGroup (s : State) : State :=
  { s with
    parts := { id := s.nextId, owner := 0, blocks := [0] } :: s.parts
    groups :=
      { gid := s.nextId, part := s.nextId, plot := 0, graph := 0, node := 0, index := 0, level := 0, unitTile := 0,
        members := [0], memberMask := 1#16, started := true, tokmask := ~~~0#64,
        windows := [{ tile := 0, base := 0, size := 0x100000 }], texts := [(0, 0, 4096)],
        rects := [{ unitTile := 0, level := 0, col := 0, row := 0, width := 20, height := 10 }],
        slots := [(0, 0)], entries := [(0#2, 0)] } :: s.groups
    nextId := s.nextId + 1 }

/-- The state with the instruction whose bits are `w` where the next step fetches: a control word of 32 bits at
the pc of the thread in slot 0 of tile 0, which goes before the tile's other threads, or a slot of 128 bits in
TE (0, 0) of tile 0. It stands for the load of a program by the sequencer and for FLOAD (log entry 5). -/
def State.withFetchWord (s : State) (nbits w : Nat) : State :=
  if nbits ≤ 32 then
    let th : Thread := { status := .running, gid := s.nextId, age := 256 + ((s.ctx 0).threads.toList.map (·.age)).sum }
    let s1 := (s.withGroup.setThread 0 0 th).modTile 0 fun x => { x with stopped := false }
    { s1 with mem := s1.mem.writeBytes (locText 0 0) (leBytes 4 w), agenda := [.issue 0] }
  else
    let s1 := (s.modTe 0 0 0 fun e => { e with slots := [BitVec.ofNat 128 w], started := true, holding := none }).modTile 0
      fun x => { x with stopped := false }
    { s1 with agenda := [.te 0 0 0] }

end Sys2Proof.Machine
end

