-- ==== Sys2Proof/Safety.lean ====
section
/-! DEFINITION. The terms that claims are stated in: when a word issues and when a slot fires with nothing in its
way, what an observer reads of a thread, what stays as it was, and what a safe run is. -/

namespace Sys2Proof.Machine

/-! ## Safe runs -/

/-- Whether `n` steps from a state all answer a next state. -/
def SafeFor : Nat → State → Prop
  | 0, _ => True
  | n + 1, s => ∃ t, step s = .next t ∧ SafeFor n t

/-! ## What an observer reads of a thread -/

/-- What a word that issues in cycle `n` reads in `s(r)` (R52). -/
def Thread.regAt (th : Thread) (n : Nat) (r : BitVec 5) : Word := (th.settle n).reg r

/-- What a word that issues in cycle `n` reads in `p(k)` (R52, R69). -/
def Thread.predAt (th : Thread) (n : Nat) (p : BitVec 4) : Bool := (th.settle n).pred p

/-- The special registers of a thread (R49), its trap registers (R341), its status and the two descriptors of its
engine commands (R285, R406). -/
structure Specials where
  status : ThreadStatus
  gid : Nat
  role : BitVec 2
  group : BitVec 32
  domain : Word
  evt : BitVec 16
  flags : BitVec 8
  trapen : BitVec 8
  sbchk : Bool
  netclass : Bool
  padm : Word
  pwbase : Vector Word 4
  pwlim : Vector (BitVec 32) 4
  ftrap : Word
  sup : Bool
  tcause : Word
  tepc : Word
  tval : Word
  taux : Word
  tvec : Word
  tsave0 : Word
  tsave1 : Word
  tstate : Word
  reentrymax : BitVec 8
  copy : Vector Word 5
  sieve : Vector Word 3
  deriving DecidableEq, Repr

/-- The special registers of a thread, as they stand. -/
def Thread.specials (th : Thread) : Specials where
  status := th.status
  gid := th.gid
  role := th.role
  group := th.group
  domain := th.domain
  evt := th.evt
  flags := th.flags
  trapen := th.trapen
  sbchk := th.sbchk
  netclass := th.netclass
  padm := th.padm
  pwbase := th.pwbase
  pwlim := th.pwlim
  ftrap := th.ftrap
  sup := th.sup
  tcause := th.tcause
  tepc := th.tepc
  tval := th.tval
  taux := th.taux
  tvec := th.tvec
  tsave0 := th.tsave0
  tsave1 := th.tsave1
  tstate := th.tstate
  reentrymax := th.reentrymax
  copy := th.copy
  sieve := th.sieve

/-- The thread without its open region, what that region has committed, and where and when it issues next: what a
marker, the entry of a word and the step to the next word leave alone. -/
def Thread.lasting (th : Thread) : Thread :=
  { th with
    resume := 0#64, readR := 0#32, readP := 0#16, wroteR := 0#32, wroteP := 0#16, buffered := [], held := []
    reentry := 0#8, frontReentry := none, regionNo := 0, departing := [], inflight := [], nextSid := 0, pc := 0#64
    earliest := 0, distance := 0, lastSet := none, waiting := false, arrived := false }

/-! ## What stays as it was -/

/-- Every byte of memory reads as before, and no granule has changed its poison. -/
def SameMemory (s t : State) : Prop := (∀ a, t.mem.read a = s.mem.read a) ∧ t.poison = s.poison

/-- Every thread but the one in focus is as before, and so are every pool with its accumulators, every token
and every TE. -/
def SameUnits (s t : State) : Prop :=
  (∀ tile slot, ¬(tile = s.focus.tile ∧ slot = s.focus.slot) → t.thread tile slot = s.thread tile slot) ∧
    (∀ tile, (t.ctx tile).pool = (s.ctx tile).pool) ∧ (∀ tile k, t.token tile k = s.token tile k) ∧
    ∀ p, t.teAt p = s.teAt p

/-- Every register but s(d) reads in every later cycle what it would have read. -/
def SameRegsBut (d : BitVec 5) (s t : State) : Prop :=
  ∀ n r, r ≠ d → t.cur.regAt n r = s.begin.cur.regAt n r

/-- Every predicate reads in every later cycle what it would have read. -/
def SamePreds (s t : State) : Prop := ∀ n p, t.cur.predAt n p = s.begin.cur.predAt n p

/-- Every special register of the thread in focus is as before. -/
def SameSpecials (s t : State) : Prop := t.cur.specials = s.cur.specials

/-- s(d) reads `v` in every word that issues `lat` cycles after the cycle of `s`, or reads 0 where d is s0
(R43, R52). -/
def RegisterGets (s t : State) (d : BitVec 5) (lat : Nat) (v : Word) : Prop :=
  t.cur.regAt (s.now + lat) d = if d = 0#5 then 0#64 else v

/-- p(pd) reads `v` in every word that issues two cycles later, and p0 reads 1. -/
def PredicateGets (s t : State) (pd : BitVec 4) (v : Bool) : Prop :=
  t.cur.predAt (s.now + 2) pd = (pd == 0#4 || v)

/-- What every word of one result leaves: its thread goes on at pc + 4, and every register but d, every predicate,
every special register, every other thread, pool, token and TE, and every byte of memory is as before. -/
def OnlyRegister (s t : State) (d : BitVec 5) : Prop :=
  t.cur.pc = s.cur.pc + 4#64 ∧ SameRegsBut d s t ∧ SamePreds s t ∧ SameSpecials s t ∧ SameUnits s t ∧ SameMemory s t

/-! ## Words that issue -/

/-- Whether a control word issues in the cycle of `s` on the thread in focus with its guard true and nothing that
traps in front of its effect: it is not held from an earlier cycle, it is legal in the thread's state, and neither
its guard nor an operand is poisoned or read too early (R54, R56, R57, R340, R350). -/
def issues (i : Instr) (c : Ctl) (s : State) : Bool :=
  decide (s.focus.slot < 4) && !s.begin.cur.waiting && (s.begin.cur.guardTrap i c).isNone && s.begin.cur.pred c.g &&
    (s.begin.cur.operandTrap i).isNone

/-- The state in which the effect of a word that issues is computed: the results due are in their registers, and
the implicit marker in front of the word has been taken (R52, R218). -/
def State.atIssue (s : State) (i : Instr) (c : Ctl) : State :=
  (s.begin.count 0 (4 * s.focus.tile + s.focus.slot) 0).enter i c

/-! ## Slots that fire -/

/-- The shape of a compute-form slot of the TE in focus, where the slot fires in this cycle with nothing that stops
it (R143, R144). -/
def firingShape (k : Form) (t : Trig) (f : Comp) (s : State) : Option Shape :=
  let p := s.focusTe
  match formShape k t f (s.teAt p) (s.source p (s.teAt p) f [] 0) with
  | none => none
  | some sh =>
    if s.teRuns p && !(s.teAt p).heldAt s.focus.teSlot && s.slotReady p t sh &&
        (s.slotStop p s.focus.teSlot f (beatsOf t) sh).isNone then some sh
    else none

end Sys2Proof.Machine
end

