-- ==== Sys2Proof/Certificates/Slice0/Obligations.lean ====
section
/-! DEFINITION. The statements for the provers, and the tables of the spec that they are stated with. -/

namespace Sys2Proof.Claims

open Sys2Proof Sys2Proof.Machine

/-! ## Control words that write one register -/

/-- The words that write one fixed-latency result, each with its destination, its latency and the value that R60,
R61, R63, R64 and R65 give of the registers it reads. -/
inductive RegisterWord : Instr → Ctl → BitVec 5 → Nat → (Thread → Word) → Prop
  | add (c : Ctl) (d : BitVec 5) (a : BitVec 5) (b : BitVec 5) :
    RegisterWord (.add c d a b) c d 2 (fun th => th.reg a + th.reg b)
  | sub (c : Ctl) (d : BitVec 5) (a : BitVec 5) (b : BitVec 5) :
    RegisterWord (.sub c d a b) c d 2 (fun th => th.reg a - th.reg b)
  | and (c : Ctl) (d : BitVec 5) (a : BitVec 5) (b : BitVec 5) :
    RegisterWord (.and c d a b) c d 2 (fun th => th.reg a &&& th.reg b)
  | or (c : Ctl) (d : BitVec 5) (a : BitVec 5) (b : BitVec 5) :
    RegisterWord (.or c d a b) c d 2 (fun th => th.reg a ||| th.reg b)
  | xor (c : Ctl) (d : BitVec 5) (a : BitVec 5) (b : BitVec 5) :
    RegisterWord (.xor c d a b) c d 2 (fun th => th.reg a ^^^ th.reg b)
  | andn (c : Ctl) (d : BitVec 5) (a : BitVec 5) (b : BitVec 5) :
    RegisterWord (.andn c d a b) c d 2 (fun th => th.reg a &&& ~~~th.reg b)
  | shl (c : Ctl) (d : BitVec 5) (a : BitVec 5) (b : BitVec 5) :
    RegisterWord (.shl c d a b) c d 2 (fun th => th.reg a <<< ((th.reg b).toNat % 64))
  | shr (c : Ctl) (d : BitVec 5) (a : BitVec 5) (b : BitVec 5) :
    RegisterWord (.shr c d a b) c d 2 (fun th => th.reg a >>> ((th.reg b).toNat % 64))
  | sra (c : Ctl) (d : BitVec 5) (a : BitVec 5) (b : BitVec 5) :
    RegisterWord (.sra c d a b) c d 2 (fun th => (th.reg a).sshiftRight ((th.reg b).toNat % 64))
  | min (c : Ctl) (d : BitVec 5) (a : BitVec 5) (b : BitVec 5) :
    RegisterWord (.min c d a b) c d 2 (fun th => if (th.reg b).toInt < (th.reg a).toInt then th.reg b else th.reg a)
  | max (c : Ctl) (d : BitVec 5) (a : BitVec 5) (b : BitVec 5) :
    RegisterWord (.max c d a b) c d 2 (fun th => if (th.reg a).toInt < (th.reg b).toInt then th.reg b else th.reg a)
  | minu (c : Ctl) (d : BitVec 5) (a : BitVec 5) (b : BitVec 5) :
    RegisterWord (.minu c d a b) c d 2 (fun th => if (th.reg b).toNat < (th.reg a).toNat then th.reg b else th.reg a)
  | maxu (c : Ctl) (d : BitVec 5) (a : BitVec 5) (b : BitVec 5) :
    RegisterWord (.maxu c d a b) c d 2 (fun th => if (th.reg a).toNat < (th.reg b).toNat then th.reg b else th.reg a)
  | clz (c : Ctl) (d : BitVec 5) (a : BitVec 5) :
    RegisterWord (.clz c d a) c d 2 (fun th => BitVec.ofNat 64 (leadingZeros 64 (th.reg a).toNat))
  | popc (c : Ctl) (d : BitVec 5) (a : BitVec 5) :
    RegisterWord (.popc c d a) c d 2 (fun th => BitVec.ofNat 64 (onesIn 64 (th.reg a).toNat))
  | sext (c : Ctl) (d : BitVec 5) (a : BitVec 5) (b : BitVec 5) :
    RegisterWord (.sext c d a b) c d 2 (fun th => sx (th.reg a).toNat ((th.reg b).toNat % 64 + 1))
  | mul (c : Ctl) (d : BitVec 5) (a : BitVec 5) (b : BitVec 5) :
    RegisterWord (.mul c d a b) c d 4 (fun th => BitVec.ofNat 64 ((th.reg a).toNat * (th.reg b).toNat))
  | mulh (c : Ctl) (d : BitVec 5) (a : BitVec 5) (b : BitVec 5) :
    RegisterWord (.mulh c d a b) c d 4 (fun th => BitVec.ofInt 64 ((th.reg a).toInt * (th.reg b).toInt / 2 ^ 64))
  | mulhu (c : Ctl) (d : BitVec 5) (a : BitVec 5) (b : BitVec 5) :
    RegisterWord (.mulhu c d a b) c d 4 (fun th => BitVec.ofNat 64 ((th.reg a).toNat * (th.reg b).toNat / 2 ^ 64))
  | bfx (c : Ctl) (d : BitVec 5) (a : BitVec 5) (b : BitVec 5) :
    RegisterWord (.bfx c d a b) c d 2 (fun th => sx (fieldOf (th.reg a) (th.reg b)) (fieldWidth (th.reg b)))
  | bfxu (c : Ctl) (d : BitVec 5) (a : BitVec 5) (b : BitVec 5) :
    RegisterWord (.bfxu c d a b) c d 2 (fun th => BitVec.ofNat 64 (fieldOf (th.reg a) (th.reg b)))
  | bfi (c : Ctl) (d : BitVec 5) (a : BitVec 5) (b : BitVec 5) :
    RegisterWord (.bfi c d a b) c d 2 (fun th => insertField (th.reg d) (th.reg a) (th.reg b))
  | rotl (c : Ctl) (d : BitVec 5) (a : BitVec 5) (b : BitVec 5) :
    RegisterWord (.rotl c d a b) c d 2 (fun th => (th.reg a).rotateLeft ((th.reg b).toNat % 64))
  | bswap (c : Ctl) (d : BitVec 5) (a : BitVec 5) :
    RegisterWord (.bswap c d a) c d 2 (fun th => BitVec.ofNat 64 (leNat (leBytes 8 (th.reg a).toNat).reverse))
  | addi (c : Ctl) (d : BitVec 5) (a : BitVec 5) (imm : BitVec 8) :
    RegisterWord (.addi c d a imm) c d 2 (fun th => th.reg a + imm.signExtend 64)
  | andi (c : Ctl) (d : BitVec 5) (a : BitVec 5) (imm : BitVec 8) :
    RegisterWord (.andi c d a imm) c d 2 (fun th => th.reg a &&& imm.setWidth 64)
  | ori (c : Ctl) (d : BitVec 5) (a : BitVec 5) (imm : BitVec 8) :
    RegisterWord (.ori c d a imm) c d 2 (fun th => th.reg a ||| imm.setWidth 64)
  | xori (c : Ctl) (d : BitVec 5) (a : BitVec 5) (imm : BitVec 8) :
    RegisterWord (.xori c d a imm) c d 2 (fun th => th.reg a ^^^ imm.setWidth 64)
  | shli (c : Ctl) (d : BitVec 5) (a : BitVec 5) (imm : BitVec 6) :
    RegisterWord (.shli c d a imm) c d 2 (fun th => th.reg a <<< imm.toNat)
  | shri (c : Ctl) (d : BitVec 5) (a : BitVec 5) (imm : BitVec 6) :
    RegisterWord (.shri c d a imm) c d 2 (fun th => th.reg a >>> imm.toNat)
  | srai (c : Ctl) (d : BitVec 5) (a : BitVec 5) (imm : BitVec 6) :
    RegisterWord (.srai c d a imm) c d 2 (fun th => (th.reg a).sshiftRight imm.toNat)
  | setlo (c : Ctl) (d : BitVec 5) (imm : BitVec 13) :
    RegisterWord (.setlo c d imm) c d 2 (fun _ => imm.setWidth 64)
  | setsh (c : Ctl) (d : BitVec 5) (imm : BitVec 13) :
    RegisterWord (.setsh c d imm) c d 2 (fun th => (if th.lastSet = some d then
      ((th.pend.filter fun q => q.reg == d.toNat).getLast?.map (·.value)).getD (th.reg d) else th.reg d) <<< 13 |||
      imm.setWidth 64)

/-- The words of the divider, each with its destination, its operands and what R61 gives of their values. -/
inductive DivisionWord : Instr → Ctl → BitVec 5 → BitVec 5 → BitVec 5 → (Word → Word → Word) → Prop
  | div (c : Ctl) (d a b : BitVec 5) :
    DivisionWord (.div c d a b) c d a b
      (fun x y => if y = 0#64 then BitVec.allOnes 64 else BitVec.ofInt 64 (x.toInt.tdiv y.toInt))
  | divu (c : Ctl) (d a b : BitVec 5) :
    DivisionWord (.divu c d a b) c d a b
      (fun x y => if y = 0#64 then BitVec.allOnes 64 else BitVec.ofNat 64 (x.toNat / y.toNat))
  | rem (c : Ctl) (d a b : BitVec 5) :
    DivisionWord (.rem c d a b) c d a b
      (fun x y => if y = 0#64 then x else BitVec.ofInt 64 (x.toInt.tmod y.toInt))
  | remu (c : Ctl) (d a b : BitVec 5) :
    DivisionWord (.remu c d a b) c d a b
      (fun x y => if y = 0#64 then x else BitVec.ofNat 64 (x.toNat % y.toNat))

/-! ## Predicates -/

/-- The words that write a predicate, each with pd, whether it writes the complement to pd xor 1, and the value
that R67 and R68 give. -/
inductive PredicateWord : Instr → Ctl → BitVec 4 → Bool → (Thread → Bool) → Prop
  | cmp (c : Ctl) (pd : BitVec 4) (cond : BitVec 3) (a : BitVec 5) (b : BitVec 5) (pair : BitVec 1) :
    PredicateWord (.cmp c pd cond a b pair) c pd (pair == 1#1) (fun th =>
      let x := th.reg a
      let v := th.reg b
      match cond.toNat with
      | 0 => x == v
      | 1 => x != v
      | 2 => decide (x.toInt < v.toInt)
      | 3 => decide (v.toInt ≤ x.toInt)
      | 4 => decide (x.toNat < v.toNat)
      | 5 => decide (v.toNat ≤ x.toNat)
      | 6 => x &&& v != 0#64
      | _ => x &&& v == 0#64)
  | cmpi (c : Ctl) (pd : BitVec 4) (cond : BitVec 3) (a : BitVec 5) (imm : BitVec 5) (pair : BitVec 1) :
    PredicateWord (.cmpi c pd cond a imm pair) c pd (pair == 1#1) (fun th =>
      let x := th.reg a
      let v : Word := imm.signExtend 64
      match cond.toNat with
      | 0 => x == v
      | 1 => x != v
      | 2 => decide (x.toInt < v.toInt)
      | 3 => decide (v.toInt ≤ x.toInt)
      | 4 => decide (x.toNat < v.toNat)
      | 5 => decide (v.toNat ≤ x.toNat)
      | 6 => x.getLsbD (v.toNat % 64)
      | _ => !x.getLsbD (v.toNat % 64))
  | pand (c : Ctl) (pd : BitVec 4) (pa : BitVec 4) (pb : BitVec 4) :
    PredicateWord (.pand c pd pa pb) c pd false (fun th => th.pred pa && th.pred pb)
  | por (c : Ctl) (pd : BitVec 4) (pa : BitVec 4) (pb : BitVec 4) :
    PredicateWord (.por c pd pa pb) c pd false (fun th => th.pred pa || th.pred pb)
  | pxor (c : Ctl) (pd : BitVec 4) (pa : BitVec 4) (pb : BitVec 4) :
    PredicateWord (.pxor c pd pa pb) c pd false (fun th => th.pred pa != th.pred pb)
  | pandn (c : Ctl) (pd : BitVec 4) (pa : BitVec 4) (pb : BitVec 4) :
    PredicateWord (.pandn c pd pa pb) c pd false (fun th => th.pred pa && !th.pred pb)
  | porn (c : Ctl) (pd : BitVec 4) (pa : BitVec 4) (pb : BitVec 4) :
    PredicateWord (.porn c pd pa pb) c pd false (fun th => th.pred pa || !th.pred pb)
  | pnand (c : Ctl) (pd : BitVec 4) (pa : BitVec 4) (pb : BitVec 4) :
    PredicateWord (.pnand c pd pa pb) c pd false (fun th => !(th.pred pa && th.pred pb))
  | pnor (c : Ctl) (pd : BitVec 4) (pa : BitVec 4) (pb : BitVec 4) :
    PredicateWord (.pnor c pd pa pb) c pd false (fun th => !(th.pred pa || th.pred pb))

/-! ## Branches -/

/-- The branches that are always taken: the register that takes pc + 4, s0 where there is none, and the target
(R71, R72). -/
inductive BranchWord : Instr → Ctl → BitVec 5 → (Thread → Word) → Prop
  | br (c : Ctl) (off : BitVec 18) :
    BranchWord (.br c off) c 0#5 (fun th => th.pc + BitVec.ofInt 64 (4 * off.toInt))
  | call (c : Ctl) (off : BitVec 18) :
    BranchWord (.call c off) c 31#5 (fun th => th.pc + BitVec.ofInt 64 (4 * off.toInt))
  | jr (c : Ctl) (a : BitVec 5) :
    BranchWord (.jr c a) c 0#5 (fun th => th.reg a)
  | jalr (c : Ctl) (d : BitVec 5) (a : BitVec 5) :
    BranchWord (.jalr c d a) c d (fun th => th.reg a)
  | ret (c : Ctl) :
    BranchWord (.ret c) c 0#5 (fun th => th.reg 31#5)

/-- Whether a text address may be branched to by the thread in focus (R70). -/
def targetOk (s : State) (target : Word) : Prop :=
  target.toNat % 4 = 0 ∧ (s.textLoc s.focus.tile s.cur.gid s.cur.sup target 4).isSome = true

/-! ## Loads -/

/-- The plain and post-incremented loads, each with its space, its d, its address, its bytes, whether it extends
the sign, and the register that a post-increment writes, s0 where there is none, with what it writes (R93, R94). -/
inductive LoadWord : Instr → Ctl → Space → BitVec 5 → (Thread → Word) → Nat → Bool → BitVec 5 → (Thread → Word) → Prop
  | ldsp (c : Ctl) (d a : BitVec 5) (off : BitVec 6) (sz : BitVec 2) :
    LoadWord (.ldsp c d a off sz) c .sp d (fun th => th.reg a + BitVec.ofInt 64 (off.toInt * 2 ^ sz.toNat)) (2 ^ sz.toNat)
      true 0#5 (fun _ => 0#64)
  | ldspu (c : Ctl) (d a : BitVec 5) (off : BitVec 6) (sz : BitVec 2) :
    LoadWord (.ldspu c d a off sz) c .sp d (fun th => th.reg a + BitVec.ofInt 64 (off.toInt * 2 ^ sz.toNat)) (2 ^ sz.toNat)
      false 0#5 (fun _ => 0#64)
  | ldsh (c : Ctl) (d a : BitVec 5) (off : BitVec 6) (sz : BitVec 2) :
    LoadWord (.ldsh c d a off sz) c .sh d (fun th => th.reg a + BitVec.ofInt 64 (off.toInt * 2 ^ sz.toNat)) (2 ^ sz.toNat)
      true 0#5 (fun _ => 0#64)
  | ldshu (c : Ctl) (d a : BitVec 5) (off : BitVec 6) (sz : BitVec 2) :
    LoadWord (.ldshu c d a off sz) c .sh d (fun th => th.reg a + BitVec.ofInt 64 (off.toInt * 2 ^ sz.toNat)) (2 ^ sz.toNat)
      false 0#5 (fun _ => 0#64)
  | ldg (c : Ctl) (d a : BitVec 5) (off : BitVec 6) (sz : BitVec 2) :
    LoadWord (.ldg c d a off sz) c .g d (fun th => th.reg a + BitVec.ofInt 64 (off.toInt * 2 ^ sz.toNat)) (2 ^ sz.toNat)
      true 0#5 (fun _ => 0#64)
  | ldgu (c : Ctl) (d a : BitVec 5) (off : BitVec 6) (sz : BitVec 2) :
    LoadWord (.ldgu c d a off sz) c .g d (fun th => th.reg a + BitVec.ofInt 64 (off.toInt * 2 ^ sz.toNat)) (2 ^ sz.toNat)
      false 0#5 (fun _ => 0#64)
  | ldh (c : Ctl) (d a : BitVec 5) (off : BitVec 6) (sz : BitVec 2) :
    LoadWord (.ldh c d a off sz) c .h d (fun th => th.reg a + BitVec.ofInt 64 (off.toInt * 2 ^ sz.toNat)) (2 ^ sz.toNat)
      true 0#5 (fun _ => 0#64)
  | ldspi (c : Ctl) (d a : BitVec 5) (off : BitVec 6) (sz : BitVec 2) :
    LoadWord (.ldspi c d a off sz) c .sp d (fun th => th.reg a) (2 ^ sz.toNat) true a
      (fun th => th.reg a + BitVec.ofInt 64 (off.toInt * 2 ^ sz.toNat))

/-- What every word with a scoreboarded result leaves: its thread goes on at pc + 4, one more result is
outstanding, and every register, every predicate, every special register, every other thread, pool, token and TE,
and every byte of memory is as before. -/
def Awaits (s t : State) (o : Outstanding) : Prop :=
  t.cur.outstanding = s.cur.outstanding ++ [o] ∧ t.cur.pc = s.cur.pc + 4#64 ∧ SamePreds s t ∧ SameSpecials s t ∧
    SameUnits s t ∧ SameMemory s t

/-- The committed and the buffered accesses of a thread in their order, without how far they have got. -/
def accesses (s : State) : List Buffered := s.cur.inflight.map (·.buf) ++ s.cur.buffered

/-- The stores and the post-incremented store, each with its space, its address, its bytes, its data, and the
register that a post-increment writes, s0 where there is none, with what it writes (R93, R94). -/
inductive StoreWord : Instr → Ctl → Space → (Thread → Word) → Nat → BitVec 5 → BitVec 5 → (Thread → Word) → Prop
  | stsp (c : Ctl) (d a : BitVec 5) (off : BitVec 6) (sz : BitVec 2) :
    StoreWord (.stsp c d a off sz) c .sp (fun th => th.reg a + BitVec.ofInt 64 (off.toInt * 2 ^ sz.toNat)) (2 ^ sz.toNat)
      d 0#5 (fun _ => 0#64)
  | stsh (c : Ctl) (d a : BitVec 5) (off : BitVec 6) (sz : BitVec 2) :
    StoreWord (.stsh c d a off sz) c .sh (fun th => th.reg a + BitVec.ofInt 64 (off.toInt * 2 ^ sz.toNat)) (2 ^ sz.toNat)
      d 0#5 (fun _ => 0#64)
  | stg (c : Ctl) (d a : BitVec 5) (off : BitVec 6) (sz : BitVec 2) :
    StoreWord (.stg c d a off sz) c .g (fun th => th.reg a + BitVec.ofInt 64 (off.toInt * 2 ^ sz.toNat)) (2 ^ sz.toNat)
      d 0#5 (fun _ => 0#64)
  | sth (c : Ctl) (d a : BitVec 5) (off : BitVec 6) (sz : BitVec 2) :
    StoreWord (.sth c d a off sz) c .h (fun th => th.reg a + BitVec.ofInt 64 (off.toInt * 2 ^ sz.toNat)) (2 ^ sz.toNat)
      d 0#5 (fun _ => 0#64)
  | stspi (c : Ctl) (d a : BitVec 5) (off : BitVec 6) (sz : BitVec 2) :
    StoreWord (.stspi c d a off sz) c .sp (fun th => th.reg a) (2 ^ sz.toNat) d a
      (fun th => th.reg a + BitVec.ofInt 64 (off.toInt * 2 ^ sz.toNat))

/-- The atomics of a thread, each with its space, its operation, its registers d, a and b, and the new value that
R105 gives of the old value, s(b) and s(d). -/
inductive AtomicWord : Instr → Ctl → Space → AmoOp → BitVec 5 → BitVec 5 → BitVec 5 → (Word → Word → Word → Word) → Prop
  | amospAdd (c : Ctl) (d a b : BitVec 5) : AtomicWord (.amospAdd c d a b) c .sp .add d a b (fun o x _ => o + x)
  | amospAnd (c : Ctl) (d a b : BitVec 5) : AtomicWord (.amospAnd c d a b) c .sp .and d a b (fun o x _ => o &&& x)
  | amospOr (c : Ctl) (d a b : BitVec 5) : AtomicWord (.amospOr c d a b) c .sp .or d a b (fun o x _ => o ||| x)
  | amospXor (c : Ctl) (d a b : BitVec 5) : AtomicWord (.amospXor c d a b) c .sp .xor d a b (fun o x _ => o ^^^ x)
  | amospMin (c : Ctl) (d a b : BitVec 5) : AtomicWord (.amospMin c d a b) c .sp .min d a b (fun o x _ => if x.toInt < o.toInt then x else o)
  | amospMax (c : Ctl) (d a b : BitVec 5) : AtomicWord (.amospMax c d a b) c .sp .max d a b (fun o x _ => if o.toInt < x.toInt then x else o)
  | amospSwap (c : Ctl) (d a b : BitVec 5) : AtomicWord (.amospSwap c d a b) c .sp .swap d a b (fun _ x _ => x)
  | amospCas (c : Ctl) (d a b : BitVec 5) : AtomicWord (.amospCas c d a b) c .sp .cas d a b (fun o x y => if o = y then x else o)
  | amoshAdd (c : Ctl) (d a b : BitVec 5) : AtomicWord (.amoshAdd c d a b) c .sh .add d a b (fun o x _ => o + x)
  | amoshAnd (c : Ctl) (d a b : BitVec 5) : AtomicWord (.amoshAnd c d a b) c .sh .and d a b (fun o x _ => o &&& x)
  | amoshOr (c : Ctl) (d a b : BitVec 5) : AtomicWord (.amoshOr c d a b) c .sh .or d a b (fun o x _ => o ||| x)
  | amoshXor (c : Ctl) (d a b : BitVec 5) : AtomicWord (.amoshXor c d a b) c .sh .xor d a b (fun o x _ => o ^^^ x)
  | amoshMin (c : Ctl) (d a b : BitVec 5) : AtomicWord (.amoshMin c d a b) c .sh .min d a b (fun o x _ => if x.toInt < o.toInt then x else o)
  | amoshMax (c : Ctl) (d a b : BitVec 5) : AtomicWord (.amoshMax c d a b) c .sh .max d a b (fun o x _ => if o.toInt < x.toInt then x else o)
  | amoshSwap (c : Ctl) (d a b : BitVec 5) : AtomicWord (.amoshSwap c d a b) c .sh .swap d a b (fun _ x _ => x)
  | amoshCas (c : Ctl) (d a b : BitVec 5) : AtomicWord (.amoshCas c d a b) c .sh .cas d a b (fun o x y => if o = y then x else o)
  | amogAdd (c : Ctl) (d a b : BitVec 5) : AtomicWord (.amogAdd c d a b) c .g .add d a b (fun o x _ => o + x)
  | amogAnd (c : Ctl) (d a b : BitVec 5) : AtomicWord (.amogAnd c d a b) c .g .and d a b (fun o x _ => o &&& x)
  | amogOr (c : Ctl) (d a b : BitVec 5) : AtomicWord (.amogOr c d a b) c .g .or d a b (fun o x _ => o ||| x)
  | amogXor (c : Ctl) (d a b : BitVec 5) : AtomicWord (.amogXor c d a b) c .g .xor d a b (fun o x _ => o ^^^ x)
  | amogMin (c : Ctl) (d a b : BitVec 5) : AtomicWord (.amogMin c d a b) c .g .min d a b (fun o x _ => if x.toInt < o.toInt then x else o)
  | amogMax (c : Ctl) (d a b : BitVec 5) : AtomicWord (.amogMax c d a b) c .g .max d a b (fun o x _ => if o.toInt < x.toInt then x else o)
  | amogSwap (c : Ctl) (d a b : BitVec 5) : AtomicWord (.amogSwap c d a b) c .g .swap d a b (fun _ x _ => x)
  | amogCas (c : Ctl) (d a b : BitVec 5) : AtomicWord (.amogCas c d a b) c .g .cas d a b (fun o x y => if o = y then x else o)
  | amohAdd (c : Ctl) (d a b : BitVec 5) : AtomicWord (.amohAdd c d a b) c .h .add d a b (fun o x _ => o + x)
  | amohAnd (c : Ctl) (d a b : BitVec 5) : AtomicWord (.amohAnd c d a b) c .h .and d a b (fun o x _ => o &&& x)
  | amohOr (c : Ctl) (d a b : BitVec 5) : AtomicWord (.amohOr c d a b) c .h .or d a b (fun o x _ => o ||| x)
  | amohXor (c : Ctl) (d a b : BitVec 5) : AtomicWord (.amohXor c d a b) c .h .xor d a b (fun o x _ => o ^^^ x)
  | amohMin (c : Ctl) (d a b : BitVec 5) : AtomicWord (.amohMin c d a b) c .h .min d a b (fun o x _ => if x.toInt < o.toInt then x else o)
  | amohMax (c : Ctl) (d a b : BitVec 5) : AtomicWord (.amohMax c d a b) c .h .max d a b (fun o x _ => if o.toInt < x.toInt then x else o)
  | amohSwap (c : Ctl) (d a b : BitVec 5) : AtomicWord (.amohSwap c d a b) c .h .swap d a b (fun _ x _ => x)
  | amohCas (c : Ctl) (d a b : BitVec 5) : AtomicWord (.amohCas c d a b) c .h .cas d a b (fun o x y => if o = y then x else o)

/-- What a word that holds its thread leaves: its thread waits at its pc, nothing more is outstanding, and every
register, every predicate, every special register, every other thread, pool, token and TE, and every byte of memory is
as before. -/
def Held (s t : State) : Prop :=
  t.cur.pc = s.cur.pc ∧ t.cur.waiting = true ∧ t.cur.outstanding = s.cur.outstanding ∧
    (∀ n r, t.cur.regAt n r = s.begin.cur.regAt n r) ∧ SamePreds s t ∧ SameSpecials s t ∧ SameUnits s t ∧ SameMemory s t

/-- Whether the 8 bytes at a place of a thread's space read as a value, least significant byte first. -/
def ReadsAs (s : State) (gid : Nat) (space : Space) (place : Nat) (v : Word) : Prop :=
  s.loadBytes s.focus.tile gid space place 8 = leBytes 8 v.toNat

/-- The locations of `n` bytes of a tile's space from a place upward. -/
def locations (s : State) (tile gid : Nat) (space : Space) (place n : Nat) : List Nat :=
  (List.range n).map fun j => s.locOf tile gid space (place + j)

/-! ## Special registers and waits -/

/-- What MFS reads of each special register that R49 and R341 allocate, FTRAP excepted: the number, and the value
in a state. -/
inductive SpecialRegister : BitVec 13 → (State → Word) → Prop
  | tid : SpecialRegister 0x000#13 fun s => BitVec.ofNat 64 s.focus.slot
  | role : SpecialRegister 0x001#13 fun s => s.cur.role.setWidth 64
  | tile : SpecialRegister 0x002#13 fun s => BitVec.ofNat 64 s.focus.tile
  | group : SpecialRegister 0x003#13 fun s => s.cur.group.setWidth 64
  | domain : SpecialRegister 0x004#13 fun s =>
    if (s.group? s.cur.gid).any (·.phase) then s.cur.domain ||| 0x80#64 else s.cur.domain
  | preds : SpecialRegister 0x005#13 fun s => (s.cur.preds ||| 1#16).setWidth 64
  | evt : SpecialRegister 0x006#13 fun s => s.cur.evt.setWidth 64
  | flags : SpecialRegister 0x007#13 fun s => s.cur.flags.setWidth 64
  | trapen : SpecialRegister 0x008#13 fun s => s.cur.trapen.setWidth 64
  | sbchk : SpecialRegister 0x009#13 fun s => if s.cur.sbchk then 1#64 else 0#64
  | agelim : SpecialRegister 0x00A#13 fun s => (s.ctx s.focus.tile).agelim.setWidth 64
  | netclass : SpecialRegister 0x00B#13 fun s => if s.cur.netclass then 1#64 else 0#64
  | padm : SpecialRegister 0x00C#13 fun s => s.cur.padm
  | vers : SpecialRegister 0x00D#13 fun _ => 0x3566#64
  | reentry : SpecialRegister 0x00E#13 fun s => (if s.cur.sup then s.cur.trapReentry else s.cur.reentry).setWidth 64
  | cycle : SpecialRegister 0x00F#13 fun s =>
    BitVec.ofNat 64 (s.now - (vget s.pkg.dies (s.focus.tile / 256) {}).cycleBase)
  | pwbase (n : Fin 4) : SpecialRegister (0x010#13 + BitVec.ofNat 13 n) fun s => s.cur.pwbase[n]
  | pwlim (n : Fin 4) : SpecialRegister (0x014#13 + BitVec.ofNat 13 n) fun s => s.cur.pwlim[n].setWidth 64
  | tcause : SpecialRegister 0x100#13 fun s => s.cur.tcause
  | tepc : SpecialRegister 0x101#13 fun s => s.cur.tepc
  | tval : SpecialRegister 0x102#13 fun s => s.cur.tval
  | taux : SpecialRegister 0x103#13 fun s => s.cur.taux
  | tvec : SpecialRegister 0x104#13 fun s => s.cur.tvec
  | tsave0 : SpecialRegister 0x105#13 fun s => s.cur.tsave0
  | tsave1 : SpecialRegister 0x106#13 fun s => s.cur.tsave1
  | tstate : SpecialRegister 0x107#13 fun s => s.cur.tstate
  | reentrymax : SpecialRegister 0x108#13 fun s => s.cur.reentrymax.setWidth 64

/-- What a register that MTS may write holds after a write of a value: its number, and that value without the
bits that its row of R49 or R341 reserves. -/
inductive SpecialWrite : BitVec 13 → (Word → Word) → Prop
  | preds : SpecialWrite 0x005#13 fun v => v &&& 0xFFFF#64 ||| 1#64
  | evt : SpecialWrite 0x006#13 fun v => v &&& 0xFFFF#64
  | flags : SpecialWrite 0x007#13 fun v => v &&& 0xFF#64
  | trapen : SpecialWrite 0x008#13 fun v => v &&& 0xFF#64
  | sbchk : SpecialWrite 0x009#13 fun v => v &&& 1#64
  | agelim : SpecialWrite 0x00A#13 fun v => if v &&& 0xFF#64 = 0#64 then 1#64 else v &&& 0xFF#64
  | netclass : SpecialWrite 0x00B#13 fun v => v &&& 1#64
  | padm : SpecialWrite 0x00C#13 fun v => v
  | pwbase (n : Fin 4) : SpecialWrite (0x010#13 + BitVec.ofNat 13 n) fun v => v
  | pwlim (n : Fin 4) : SpecialWrite (0x014#13 + BitVec.ofNat 13 n) fun v => v &&& 0xFFFFFFFF#64
  | tcause : SpecialWrite 0x100#13 fun v => v &&& 0xFFFFFFFF0000FF3F#64
  | tepc : SpecialWrite 0x101#13 fun v => v
  | tval : SpecialWrite 0x102#13 fun v => v
  | taux : SpecialWrite 0x103#13 fun v => v &&& 0x3F3F#64
  | tvec : SpecialWrite 0x104#13 fun v => v
  | tsave0 : SpecialWrite 0x105#13 fun v => v
  | tsave1 : SpecialWrite 0x106#13 fun v => v
  | tstate : SpecialWrite 0x107#13 fun v => v &&& 0xFF01#64
  | reentrymax : SpecialWrite 0x108#13 fun v => if v &&& 0xFF#64 = 0#64 then 1#64 else v &&& 0xFF#64

/-- Whether a division of the thread in focus has still to post its flag. -/
def divides (s : State) : Prop := ∃ o ∈ s.cur.outstanding, o.src = .division

/-- Whether every earlier load of the thread in focus is performed and every earlier store and atomic visible at a
scope, with what its die has on its way and its thread has read (R108, R314, R335). -/
def fencePasses (scope : Nat) (u : State) : Bool :=
  (u.cur.inflight.all fun f => f.passed && decide (scope ≤ if f.buf.space = .h then 6 else 4)) &&
    (u.cur.outstanding.all fun o => o.queued.isNone) && u.coverable u.focus.tile scope

/-- Whether every earlier access of the thread in focus to the spaces of bits 3:0 of a mask is performed, and every
element that the streams of bits 15:8 had delivered before the far write of number `mark` (R108). -/
def sbarPasses (mask mark : Word) (u : State) : Bool :=
  let spaces := ((List.range 4).filter fun j => mask.getLsbD j).map fun j => spaceOf (BitVec.ofNat 2 j)
  (u.cur.inflight.all fun f => !spaces.contains f.buf.space) &&
    (u.cur.outstanding.all fun o => o.queued.isNone || !spaces.contains o.space) &&
    u.pkg.far.all fun w => !(w.tile == u.focus.tile && decide (w.id < mark.toNat) &&
      match w.maker with
      | .stream _ i => decide (i < 8) && mask.getLsbD (8 + i)
      | _ => false)

/-- Whether every copy command into a space that left a buffer of the tile before the one of number `mark`, or is of the
thread in focus, has ended with its writes performed (R108, R295). -/
def drainPasses (space : Space) (mark : Word) (u : State) : Bool :=
  let covers := fun (left slot gid : Nat) =>
    decide (left < mark.toNat) || (slot == u.focus.slot && gid == u.cur.gid)
  !departsCopy space u.cur.copy u.cur.departing &&
    ((u.ctx u.focus.tile).cmds.all fun x => !(copiesInto space x && covers x.left x.slot x.gid)) &&
    u.pkg.far.all fun w => !(w.tile == u.focus.tile && w.space == space &&
      match w.maker with
      | .command _ left slot => covers left slot w.gid
      | _ => false)

/-- The words that wait for accesses or commands, each with what it waits for at its issue, and, where it then holds its
thread, in every later cycle (R108, R110, R295). -/
inductive WaitWord : Instr → Ctl → (State → Bool) → (State → Bool) → Prop
  | fence (c : Ctl) (scope : BitVec 3) :
    WaitWord (.fence c scope) c (fencePasses scope.toNat) (fencePasses scope.toNat)
  | sbar (c : Ctl) (a : BitVec 5) :
    WaitWord (.sbar c a) c (fun u => sbarPasses (u.cur.reg a) (BitVec.ofNat 64 u.free) u)
      (fun u => sbarPasses u.cur.latchA u.cur.latchB u)
  | drain (c : Ctl) (sp : BitVec 2) :
    WaitWord (.drain c sp) c
      (fun u => drainPasses (spaceOf sp) (BitVec.ofNat 64 (u.tile u.focus.tile).nextLeft) u)
      (fun u => drainPasses (spaceOf sp) u.cur.latchA u)

/-- Whether a token's state meets the level of a wait (R48). -/
def levelMet (level : BitVec 2) (st : TokState) : Bool :=
  match level.toNat with
  | 1 => st == .read || st == .visible || st == .skipped
  | 2 => st == .visible || st == .skipped
  | _ => st == .visible || st == .skipped || st == .faulted || st == .poison

/-- What a word that holds its thread leaves: the thread waits at its word, and every register, predicate and
special register, every other thread, pool, token and TE, and every byte of memory is as before. -/
def Waits (s t : State) : Prop :=
  t.cur.pc = s.cur.pc ∧ t.cur.waiting = true ∧ (∀ n r, t.cur.regAt n r = s.begin.cur.regAt n r) ∧ SamePreds s t ∧
    SameSpecials s t ∧ SameUnits s t ∧ SameMemory s t

/-- Whether a trap of the thread in focus enters its handler (R342). -/
def hasHandler (s : State) : Prop := s.cur.sup = false ∧ s.cur.tvec ≠ 0#64 ∧ s.cur.trapsPoisoned = false

/-- The entry of a handler for a cause with TVAL and TAUX, the thread to return to `epc` (R341, R342): supervisor
state at TVEC, the trap registers written, and every register, every predicate, every other thread, pool, token
and TE, and every byte of memory as before. -/
def EntersHandler (s t : State) (code : Nat) (epc tval taux : Word) : Prop :=
  t.cur.pc = s.cur.tvec ∧ t.cur.sup = true ∧ t.cur.tepc = epc ∧ t.cur.tval = tval ∧ t.cur.taux = taux ∧
    t.cur.tcause = BitVec.ofNat 64 code ∧ t.cur.tstate = 0#64 ∧ t.cur.tvec = s.cur.tvec ∧
    t.cur.flags = s.cur.flags ∧ t.cur.evt = s.cur.evt ∧ t.cur.status = s.cur.status ∧
    (∀ n r, t.cur.regAt n r = s.begin.cur.regAt n r) ∧ SamePreds s t ∧ SameUnits s t ∧ SameMemory s t

/-- The words that are illegal in group state (R50, R341). -/
inductive PrivilegedWord : Instr → Ctl → Prop
  | eret (c : Ctl) : PrivilegedWord (.eret c) c
  | mfs (c : Ctl) (d : BitVec 5) (n : BitVec 13) : 0x100 ≤ n.toNat → PrivilegedWord (.mfs c d n) c
  | mts (c : Ctl) (d : BitVec 5) (n : BitVec 13) : 0x100 ≤ n.toNat ∨ (0x10 ≤ n.toNat ∧ n.toNat ≤ 0x17) →
    PrivilegedWord (.mts c d n) c

/-- The words of the tables above that take no place in a command buffer and wait on no token. -/
inductive PlainWord : Instr → Ctl → Prop
  | register {i : Instr} {c : Ctl} {d : BitVec 5} {lat : Nat} {f : Thread → Word} :
    RegisterWord i c d lat f → PlainWord i c
  | division {i : Instr} {c : Ctl} {d a b : BitVec 5} {f : Word → Word → Word} : DivisionWord i c d a b f → PlainWord i c
  | predicate {i : Instr} {c : Ctl} {pd : BitVec 4} {pair : Bool} {f : Thread → Bool} :
    PredicateWord i c pd pair f → PlainWord i c
  | branch {i : Instr} {c : Ctl} {d : BitVec 5} {f : Thread → Word} : BranchWord i c d f → PlainWord i c
  | load {i : Instr} {c : Ctl} {space : Space} {d : BitVec 5} {addr : Thread → Word} {size : Nat} {signed : Bool}
    {a : BitVec 5} {f : Thread → Word} : LoadWord i c space d addr size signed a f → PlainWord i c
  | store {i : Instr} {c : Ctl} {space : Space} {addr : Thread → Word} {size : Nat} {d a : BitVec 5} {f : Thread → Word} :
    StoreWord i c space addr size d a f → PlainWord i c
  | atomic {i : Instr} {c : Ctl} {space : Space} {op : AmoOp} {d a b : BitVec 5} {f : Word → Word → Word → Word} :
    AtomicWord i c space op d a b f → PlainWord i c
  | wait {i : Instr} {c : Ctl} {f g : State → Bool} : WaitWord i c f g → PlainWord i c

/-- Whether a word is looked at in the cycle of `s` with its guard 0: it is legal, and its guard is neither
poisoned nor read too early. -/
def skips (i : Instr) (c : Ctl) (s : State) : Prop :=
  s.focus.slot < 4 ∧ s.begin.cur.waiting = false ∧ s.begin.cur.guardTrap i c = none ∧ s.begin.cur.pred c.g = false

/-! ## Element instructions -/

/-- The compute-form element instructions, each with its form and what a firing does, given the tile's FTZ bit and
the TE at its start: the tokens of a beat, given what each selector reads and the user tag it finds there and
whether the beat is the last, and what the last beat leaves in the predicates, the index registers and the lap
(R142, R155 to R165, R178 to R186). ROPEN, RCLOSE, RABORT and TRAP stand apart. -/
inductive ComputeSlot : Instr → Trig → Comp → Form → (Bool → TE → Work) → Prop
  | teMov (t : Trig) (f : Comp) :
    ComputeSlot (.teMov t f) t f .src1 (fun _ _ => valueWork f t.fmt fun a b c => (a, 0#8))
  | teAdd (t : Trig) (f : Comp) :
    ComputeSlot (.teAdd t f) t f .src2 (fun _ _ => valueWork f t.fmt fun a b c => (a + b, 0#8))
  | teSub (t : Trig) (f : Comp) :
    ComputeSlot (.teSub t f) t f .src2 (fun _ _ => valueWork f t.fmt fun a b c => (a - b, 0#8))
  | teMul (t : Trig) (f : Comp) :
    ComputeSlot (.teMul t f) t f .src2 (fun _ _ => valueWork f t.fmt fun a b c => (a * b, 0#8))
  | teMulh (t : Trig) (f : Comp) :
    ComputeSlot (.teMulh t f) t f .src2 (fun _ _ => valueWork f t.fmt fun a b c => ((a.signExtend 64 * b.signExtend 64).extractLsb' 32 32, 0#8))
  | teMulhu (t : Trig) (f : Comp) :
    ComputeSlot (.teMulhu t f) t f .src2 (fun _ _ => valueWork f t.fmt fun a b c => ((a.setWidth 64 * b.setWidth 64).extractLsb' 32 32, 0#8))
  | teAnd (t : Trig) (f : Comp) :
    ComputeSlot (.teAnd t f) t f .src2 (fun _ _ => valueWork f t.fmt fun a b c => (a &&& b, 0#8))
  | teOr (t : Trig) (f : Comp) :
    ComputeSlot (.teOr t f) t f .src2 (fun _ _ => valueWork f t.fmt fun a b c => (a ||| b, 0#8))
  | teXor (t : Trig) (f : Comp) :
    ComputeSlot (.teXor t f) t f .src2 (fun _ _ => valueWork f t.fmt fun a b c => (a ^^^ b, 0#8))
  | teAndn (t : Trig) (f : Comp) :
    ComputeSlot (.teAndn t f) t f .src2 (fun _ _ => valueWork f t.fmt fun a b c => (a &&& ~~~b, 0#8))
  | teShl (t : Trig) (f : Comp) :
    ComputeSlot (.teShl t f) t f .src2 (fun _ _ => valueWork f t.fmt fun a b c => (a <<< (b.toNat % 32), 0#8))
  | teShr (t : Trig) (f : Comp) :
    ComputeSlot (.teShr t f) t f .src2 (fun _ _ => valueWork f t.fmt fun a b c => (a >>> (b.toNat % 32), 0#8))
  | teSra (t : Trig) (f : Comp) :
    ComputeSlot (.teSra t f) t f .src2 (fun _ _ => valueWork f t.fmt fun a b c => (a.sshiftRight (b.toNat % 32), 0#8))
  | teMin (t : Trig) (f : Comp) :
    ComputeSlot (.teMin t f) t f .src2 (fun _ _ => valueWork f t.fmt fun a b c => (if b.toInt < a.toInt then b else a, 0#8))
  | teMax (t : Trig) (f : Comp) :
    ComputeSlot (.teMax t f) t f .src2 (fun _ _ => valueWork f t.fmt fun a b c => (if a.toInt < b.toInt then b else a, 0#8))
  | teMinu (t : Trig) (f : Comp) :
    ComputeSlot (.teMinu t f) t f .src2 (fun _ _ => valueWork f t.fmt fun a b c => (if b.toNat < a.toNat then b else a, 0#8))
  | teMaxu (t : Trig) (f : Comp) :
    ComputeSlot (.teMaxu t f) t f .src2 (fun _ _ => valueWork f t.fmt fun a b c => (if a.toNat < b.toNat then b else a, 0#8))
  | teCmp (t : Trig) (f : Comp) :
    ComputeSlot (.teCmp t f) t f .cond (fun _ _ => valueWork f t.fmt fun a b _ =>
      (if (match f.scc.toNat with
        | 0 => a == b
        | 1 => a != b
        | 2 => decide (a.toInt < b.toInt)
        | 3 => decide (b.toInt ≤ a.toInt)
        | 4 => decide (a.toNat < b.toNat)
        | 5 => decide (b.toNat ≤ a.toNat)
        | 6 => a &&& b != 0#32
        | _ => a &&& b == 0#32) then 1#32 else 0#32, 0#8))
  | sel (t : Trig) (f : Comp) :
    ComputeSlot (.sel t f) t f .src3 (fun _ _ => valueWork f t.fmt fun a b c => (if c = 0#32 then b else a, 0#8))
  | teClz (t : Trig) (f : Comp) :
    ComputeSlot (.teClz t f) t f .src1 (fun _ _ => valueWork f t.fmt fun a b c => (BitVec.ofNat 32 (if a = 0#32 then 32 else 31 - Nat.log2 a.toNat), 0#8))
  | tePopc (t : Trig) (f : Comp) :
    ComputeSlot (.tePopc t f) t f .src1 (fun _ _ => valueWork f t.fmt fun a b c => (BitVec.ofNat 32 ((List.range 32).countP fun j => a.getLsbD j), 0#8))
  | dot4 (t : Trig) (f : Comp) :
    ComputeSlot (.dot4 t f) t f .src3 (fun _ _ => valueWork f t.fmt fun a b c => (c + (BitVec.ofInt 32 ((a.extractLsb' 0 8).toInt * (b.extractLsb' 0 8).toInt) +
      BitVec.ofInt 32 ((a.extractLsb' 8 8).toInt * (b.extractLsb' 8 8).toInt) +
      BitVec.ofInt 32 ((a.extractLsb' 16 8).toInt * (b.extractLsb' 16 8).toInt) +
      BitVec.ofInt 32 ((a.extractLsb' 24 8).toInt * (b.extractLsb' 24 8).toInt)), 0#8))
  | teBfx (t : Trig) (f : Comp) :
    ComputeSlot (.teBfx t f) t f .src2 (fun _ _ => valueWork f t.fmt fun a b c => (let n := min (b.toNat / 32 % 32 + 1) (32 - b.toNat % 32)
      let v := (a >>> (b.toNat % 32)) &&& BitVec.ofNat 32 (2 ^ n - 1)
      if b.getLsbD 10 && v.getLsbD (n - 1) then v - BitVec.ofNat 32 (2 ^ n) else v, 0#8))
  | hash (t : Trig) (f : Comp) :
    ComputeSlot (.hash t f) t f .src2 (fun _ _ => valueWork f t.fmt fun a b c => (let k := min (b.toNat % 64) 32; if k = 0 then 0#32 else (a * 0x9E3779B1#32) >>> (32 - k), 0#8))
  | fadd (t : Trig) (f : Comp) :
    ComputeSlot (.fadd t f) t f .src2 (fun ftz _ => valueWork f t.fmt fun a b _ => mapLanes t.fmt fun j =>
      let x := laneNum t.fmt ftz a j
      let y := laneNum t.fmt ftz b j
      roundLane (Fmt.ofTag t.fmt) ftz (x.add .rne y))
  | fsub (t : Trig) (f : Comp) :
    ComputeSlot (.fsub t f) t f .src2 (fun ftz _ => valueWork f t.fmt fun a b _ => mapLanes t.fmt fun j =>
      let x := laneNum t.fmt ftz a j
      let y := laneNum t.fmt ftz b j
      roundLane (Fmt.ofTag t.fmt) ftz (x.add .rne y.neg))
  | fmul (t : Trig) (f : Comp) :
    ComputeSlot (.fmul t f) t f .src2 (fun ftz _ => valueWork f t.fmt fun a b _ => mapLanes t.fmt fun j =>
      let x := laneNum t.fmt ftz a j
      let y := laneNum t.fmt ftz b j
      roundLane (Fmt.ofTag t.fmt) ftz (x.mul y))
  | fma (t : Trig) (f : Comp) :
    ComputeSlot (.fma t f) t f .src3 (fun ftz _ => valueWork f t.fmt fun a b c => mapLanes t.fmt fun j =>
      let x := laneNum t.fmt ftz a j
      let y := laneNum t.fmt ftz b j
      let z := laneNum t.fmt ftz c j
      roundLane (Fmt.ofTag t.fmt) ftz (x.fma .rne y z))
  | fms (t : Trig) (f : Comp) :
    ComputeSlot (.fms t f) t f .src3 (fun ftz _ => valueWork f t.fmt fun a b c => mapLanes t.fmt fun j =>
      let x := laneNum t.fmt ftz a j
      let y := laneNum t.fmt ftz b j
      let z := laneNum t.fmt ftz c j
      roundLane (Fmt.ofTag t.fmt) ftz (x.fma .rne y z.neg))
  | fnma (t : Trig) (f : Comp) :
    ComputeSlot (.fnma t f) t f .src3 (fun ftz _ => valueWork f t.fmt fun a b c => mapLanes t.fmt fun j =>
      let x := laneNum t.fmt ftz a j
      let y := laneNum t.fmt ftz b j
      let z := laneNum t.fmt ftz c j
      roundLane (Fmt.ofTag t.fmt) ftz (x.neg.fma .rne y z))
  | fmin (t : Trig) (f : Comp) :
    ComputeSlot (.fmin t f) t f .src2 (fun ftz _ => valueWork f t.fmt fun a b _ => mapLanes t.fmt fun j =>
      (Fmt.ofTag t.fmt).minmax false ftz (lane (Fmt.ofTag t.fmt) a j) (lane (Fmt.ofTag t.fmt) b j))
  | fmax (t : Trig) (f : Comp) :
    ComputeSlot (.fmax t f) t f .src2 (fun ftz _ => valueWork f t.fmt fun a b _ => mapLanes t.fmt fun j =>
      (Fmt.ofTag t.fmt).minmax true ftz (lane (Fmt.ofTag t.fmt) a j) (lane (Fmt.ofTag t.fmt) b j))
  | fabs (t : Trig) (f : Comp) :
    ComputeSlot (.fabs t f) t f .src1 (fun ftz _ => valueWork f t.fmt fun a _ _ => mapLanes t.fmt fun j =>
      signLane ftz (fun _ => false) (Fmt.ofTag t.fmt) (lane (Fmt.ofTag t.fmt) a j))
  | fneg (t : Trig) (f : Comp) :
    ComputeSlot (.fneg t f) t f .src1 (fun ftz _ => valueWork f t.fmt fun a _ _ => mapLanes t.fmt fun j =>
      signLane ftz (fun x => !x) (Fmt.ofTag t.fmt) (lane (Fmt.ofTag t.fmt) a j))
  | fcmp (t : Trig) (f : Comp) :
    ComputeSlot (.fcmp t f) t f .cond (fun ftz _ => valueWork f t.fmt fun a b _ => mapLanes t.fmt fun j =>
      fcmpLane f.scc.toNat ftz (Fmt.ofTag t.fmt) (lane (Fmt.ofTag t.fmt) a j) (lane (Fmt.ofTag t.fmt) b j))
  | frnd (t : Trig) (f : Comp) :
    ComputeSlot (.frnd t f) t f .round (fun ftz _ => valueWork f t.fmt fun a _ _ => mapLanes t.fmt fun j =>
      frndLane f.scc.toNat ftz (Fmt.ofTag t.fmt) (lane (Fmt.ofTag t.fmt) a j))
  | fscale (t : Trig) (f : Comp) :
    ComputeSlot (.fscale t f) t f .src2 (fun ftz _ => valueWork f t.fmt fun a b _ => mapLanes t.fmt fun j =>
      fscaleLane ftz (Fmt.ofTag t.fmt) (lane (Fmt.ofTag t.fmt) a j) (lane (Fmt.ofTag t.fmt) b j))
  | fexpo (t : Trig) (f : Comp) :
    ComputeSlot (.fexpo t f) t f .src1 (fun ftz _ => valueWork f t.fmt fun a _ _ => mapLanes t.fmt fun j =>
      fexpoLane ftz (Fmt.ofTag t.fmt) (lane (Fmt.ofTag t.fmt) a j))
  | fclass (t : Trig) (f : Comp) :
    ComputeSlot (.fclass t f) t f .src2 (fun _ _ => valueWork f t.fmt fun a b _ => mapLanes t.fmt fun j =>
      (if b.getLsbD (classOf (Fmt.ofTag t.fmt) (lane (Fmt.ofTag t.fmt) a j)) then (Fmt.ofTag t.fmt).oneBits else 0, 0#8))
  | fhadd (t : Trig) (f : Comp) :
    ComputeSlot (.fhadd t f) t f .src2 (fun ftz _ => valueWork f t.fmt fun a b _ => mapLanes t.fmt fun j =>
      let w := if j = 0 then a else b
      roundLane (Fmt.ofTag t.fmt) ftz ((laneNum t.fmt ftz w 0).add .rne (laneNum t.fmt ftz w 1)))
  | xexpf (t : Trig) (f : Comp) :
    ComputeSlot (.xexpf t f) t f .column (fun _ _ => { beat := fun read tag _ => { column := some (0#3, read f.sa.toNat, tag f.sa.toNat) } })
  | xlog2 (t : Trig) (f : Comp) :
    ComputeSlot (.xlog2 t f) t f .column (fun _ _ => { beat := fun read tag _ => { column := some (1#3, read f.sa.toNat, tag f.sa.toNat) } })
  | xrcp (t : Trig) (f : Comp) :
    ComputeSlot (.xrcp t f) t f .column (fun _ _ => { beat := fun read tag _ => { column := some (2#3, read f.sa.toNat, tag f.sa.toNat) } })
  | xrsq (t : Trig) (f : Comp) :
    ComputeSlot (.xrsq t f) t f .column (fun _ _ => { beat := fun read tag _ => { column := some (3#3, read f.sa.toNat, tag f.sa.toNat) } })
  | xsqrt (t : Trig) (f : Comp) :
    ComputeSlot (.xsqrt t f) t f .column (fun _ _ => { beat := fun read tag _ => { column := some (4#3, read f.sa.toNat, tag f.sa.toNat) } })
  | xsin (t : Trig) (f : Comp) :
    ComputeSlot (.xsin t f) t f .column (fun _ _ => { beat := fun read tag _ => { column := some (5#3, read f.sa.toNat, tag f.sa.toNat) } })
  | xcos (t : Trig) (f : Comp) :
    ComputeSlot (.xcos t f) t f .column (fun _ _ => { beat := fun read tag _ => { column := some (6#3, read f.sa.toNat, tag f.sa.toNat) } })
  | xtanh (t : Trig) (f : Comp) :
    ComputeSlot (.xtanh t f) t f .column (fun _ _ => { beat := fun read tag _ => { column := some (7#3, read f.sa.toNat, tag f.sa.toNat) } })
  | steer (t : Trig) (f : Comp) :
    ComputeSlot (.steer t f) t f .steer (fun _ _ => { beat := fun read tag _ =>
      { value := some (read f.sa.toNat)
        sent := [⟨if read f.sb.toNat = 0#32 then f.scc.toNat else f.dst.toNat, read f.sa.toNat, t.fmt, tag f.sa.toNat⟩] } })
  | merge (t : Trig) (f : Comp) :
    ComputeSlot (.merge t f) t f .merge (fun _ _ => { beat := fun read tag _ =>
      let c := if read f.scc.toNat = 0#32 then f.sb.toNat else f.sa.toNat
      { value := some (read c), sent := [⟨f.dst.toNat, read c, t.fmt, tag c⟩] } })
  | join (t : Trig) (f : Comp) :
    ComputeSlot (.join t f) t f .join (fun _ _ => { beat := fun read tag last =>
      { value := some (read f.sa.toNat)
        sent := if last then [⟨f.dst.toNat, read f.sa.toNat, t.fmt, tag f.sa.toNat⟩] else [] } })
  | dup (t : Trig) (f : Comp) :
    ComputeSlot (.dup t f) t f .dup (fun _ _ => { beat := fun read tag _ =>
      { value := some (read f.sa.toNat)
        sent := [⟨f.dst.toNat, read f.sa.toNat, t.fmt, tag f.sa.toNat⟩, ⟨f.scc.toNat, read f.sa.toNat, t.fmt, tag f.sa.toNat⟩] } })
  | gate (t : Trig) (f : Comp) :
    ComputeSlot (.gate t f) t f .gate (fun _ _ => { beat := fun read tag _ =>
      { value := some (read f.sa.toNat)
        sent := if read f.sb.toNat = 0#32 then [] else [⟨f.dst.toNat, read f.sa.toNat, t.fmt, tag f.sa.toNat⟩] } })
  | drop (t : Trig) (f : Comp) : ComputeSlot (.drop t f) t f .drop (fun _ _ => { beat := fun _ _ _ => {} })
  | tag (t : Trig) (f : Comp) :
    ComputeSlot (.tag t f) t f .tag (fun _ _ => { beat := fun read _ _ =>
      { value := some (read f.sa.toNat)
        sent := [⟨f.dst.toNat, read f.sa.toNat, t.fmt, (read f.sb.toNat).setWidth 2⟩] } })
  | carry (t : Trig) (f : Comp) :
    ComputeSlot (.carry t f) t f .carry (fun _ e => if e.p.getLsbD f.scc.toNat then
        { beat := fun read tag _ =>
            { value := some (read f.sb.toNat)
              sent := if tag f.sb.toNat = 0#2 then [⟨f.dst.toNat, read f.sb.toNat, t.fmt, 0#2⟩] else [] }
          preds := fun _ tag => if tag f.sb.toNat = 0#2 then [] else [(f.scc.toNat, false)] }
      else
        { beat := fun read tag _ =>
            { value := some (read f.sa.toNat), sent := [⟨f.dst.toNat, read f.sa.toNat, t.fmt, tag f.sa.toNat⟩] }
          preds := fun _ _ => [(f.scc.toNat, true)] })
  | done (t : Trig) (f : Comp) :
    ComputeSlot (.done t f) t f .doneTok (fun _ _ => { beat := fun _ _ _ => { control := some (f.imm12.setWidth 4) } })
  | teNop (t : Trig) (f : Comp) : ComputeSlot (.teNop t f) t f .nothing (fun _ _ => { beat := fun _ _ _ => {} })
  | lapset (t : Trig) (f : Comp) :
    ComputeSlot (.lapset t f) t f .lapset (fun _ _ => { beat := fun _ _ _ => {}, lap := fun read => some ((read f.sa.toNat).setWidth 8) })
  | cvt (t : Trig) (f : Comp) :
    ComputeSlot (.cvt t f) t f .cvt (fun ftz _ => { beat := fun read tag _ =>
      let x := cvtValue t.fmt f ftz (read f.sa.toNat)
      { value := some x.1, flags := x.2, sent := [⟨f.dst.toNat, x.1, f.scc.setWidth 3, tag f.sa.toNat⟩] } })
  | pack (t : Trig) (f : Comp) :
    ComputeSlot (.pack t f) t f .pack (fun _ _ => valueWork f t.fmt fun a b _ => mapLanes t.fmt fun j =>
      let n := 2 ^ f.scc.toNat
      (if j < n then lane (Fmt.ofTag t.fmt) a j else if j < 2 * n then lane (Fmt.ofTag t.fmt) b (j - n) else 0, 0#8))
  | unpk (t : Trig) (f : Comp) :
    ComputeSlot (.unpk t f) t f .unpk (fun _ _ => valueWork f t.fmt fun a _ _ => mapLanes t.fmt fun j =>
      (if f.scc.toNat + j < (Fmt.ofTag t.fmt).lanes then lane (Fmt.ofTag t.fmt) a (f.scc.toNat + j) else 0, 0#8))
  | pset (t : Trig) (f : Comp) :
    ComputeSlot (.pset t f) t f .pset (fun _ _ =>
      { beat := fun _ _ _ => {}
        preds := fun read _ => if f.scc = 0#5 then [(f.dst.toNat, read f.sa.toNat != 0#32)]
          else (List.range 16).map fun j => (j, (read f.sa.toNat).getLsbD j) })
  | tePlog (t : Trig) (f : Comp) :
    ComputeSlot (.tePlog t f) t f .plog (fun _ e =>
      { beat := fun _ _ _ => {}
        preds := fun _ _ =>
          let x := e.p.getLsbD f.sa.toNat
          let y := e.p.getLsbD f.sb.toNat
          [(f.dst.toNat, match f.scc.toNat with
            | 0 => x && y
            | 1 => x || y
            | 2 => x != y
            | 3 => x && !y
            | 4 => x || !y
            | 5 => !(x && y)
            | _ => !(x || y))] })
  | xset (t : Trig) (f : Comp) :
    ComputeSlot (.xset t f) t f .xset (fun _ _ =>
      { beat := fun read _ _ => { value := some (read f.sa.toNat) }
        xs := fun read => [(f.dst.toNat - 8, (read f.sa.toNat).setWidth 16)] })
  | xadd (t : Trig) (f : Comp) :
    ComputeSlot (.xadd t f) t f .xadd (fun _ _ =>
      { beat := fun read _ _ => { value := some (read f.sa.toNat + read f.sb.toNat) }
        xs := fun read => [(f.dst.toNat - 8, (read f.sa.toNat + read f.sb.toNat).setWidth 16)] })
  | xcmp (t : Trig) (f : Comp) :
    ComputeSlot (.xcmp t f) t f .xcmp (fun _ _ =>
      { beat := fun _ _ _ => {}
        preds := fun read _ =>
          let a := read f.sa.toNat
          let b := read f.sb.toNat
          [(f.dst.toNat, match f.scc.toNat with
            | 0 => a == b
            | 1 => a != b
            | 2 => decide (a.toInt < b.toInt)
            | 3 => decide (b.toInt ≤ a.toInt)
            | 4 => decide (a.toNat < b.toNat)
            | 5 => decide (b.toNat ≤ a.toNat)
            | 6 => a &&& b != 0#32
            | _ => a &&& b == 0#32)] })

/-- The memory-form element instructions (R213). -/
inductive MemorySlot : Instr → Trig → MemF → ChainOp → Prop
  | ldcSp (t : Trig) (m : MemF) : MemorySlot (.ldcSp t m) t m .ldcSp
  | stcSp (t : Trig) (m : MemF) : MemorySlot (.stcSp t m) t m .stcSp
  | ldcSh (t : Trig) (m : MemF) : MemorySlot (.ldcSh t m) t m .ldcSh
  | stcSh (t : Trig) (m : MemF) : MemorySlot (.stcSh t m) t m .stcSh
  | ldcG (t : Trig) (m : MemF) : MemorySlot (.ldcG t m) t m .ldcG
  | stcG (t : Trig) (m : MemF) : MemorySlot (.stcG t m) t m .stcG
  | amocSp (t : Trig) (m : MemF) : MemorySlot (.amocSp t m) t m .amocSp
  | amocSh (t : Trig) (m : MemF) : MemorySlot (.amocSh t m) t m .amocSh
  | amocG (t : Trig) (m : MemF) : MemorySlot (.amocG t m) t m .amocG
  | cskip (t : Trig) (m : MemF) : MemorySlot (.cskip t m) t m .cskip

/-- Whether a compute-form slot of the TE in focus fires in the cycle of `s` with nothing that stops it. -/
def fires (k : Form) (t : Trig) (f : Comp) (s : State) (sh : Shape) : Prop :=
  s.focus.tile < 2048 ∧ s.focus.col < 20 ∧ s.focus.row < 10 ∧ firingShape k t f s = some sh

/-- The tile FTZ bit in force on a tile: 0 while its pool, or the joined pool that it is a member of, runs an armed
section (R129). -/
def ftzOf (s : State) (tile : Nat) : Bool :=
  (s.ctx tile).ftz && (s.ctx ((s.ctx tile).pool.memberOf.getD tile)).pool.armed.isNone

/-- The work of a firing on the TE in focus. -/
def workOf (w : Bool → TE → Work) (s : State) : Work := w (ftzOf s s.focus.tile) (s.teAt s.focusTe)

/-- What a selector reads in beat `b` of a firing, and the user tag it finds (R141). -/
def readIn (s : State) (f : Comp) (sh : Shape) (b : Nat) : Nat → W32 :=
  s.source s.focusTe (s.teAt s.focusTe) f sh.deq b
def tagIn (s : State) (sh : Shape) (b : Nat) : Nat → BitVec 2 := sourceTag (s.teAt s.focusTe) sh.deq b

/-- Beat `b` of a firing of `n` beats. -/
def beatOf (s : State) (f : Comp) (sh : Shape) (w : Work) (n b : Nat) : Beat :=
  w.beat (readIn s f sh b) (tagIn s sh b) (b + 1 == n)

/-- What the beats of a firing write, in their order, each with its beat. -/
def sentBy (s : State) (f : Comp) (sh : Shape) (w : Work) (n : Nat) : List (Nat × Sent) :=
  (List.range n).flatMap fun b => (beatOf s f sh w n b).sent.map fun x => (b, x)

/-- Whether no beat of a firing reads a W word that an earlier beat may have written. -/
def steady (sh : Shape) (l : List (Nat × Sent)) (n : Nat) : Prop :=
  n = 1 ∨ (∀ c ∈ sh.srcs, c < 16 ∨ 24 < c) ∨ ∀ x ∈ l, x.2.dest < 16

/-- The last value that a list of writes gives a number. -/
def lastFor {α : Type} (l : List (Nat × α)) (k : Nat) : Option α := ((l.filter fun x => x.1 == k).getLast?).map (·.2)

/-- The step that XINC gives an index register (R146). -/
def stepOf (xinc : BitVec 2) (n : Nat) : BitVec 16 :=
  if xinc = 0#2 then 0#16 else if xinc = 1#2 then 1#16 else if xinc = 2#2 then BitVec.ofNat 16 n else 0xFFFF#16

/-- What a firing on the TE `p` leaves as it was: threads, pools, tokens and memory, and of every other TE its
registers, flags, slots, requests and W. -/
def stays (s u : State) (p : TeId) : Prop :=
  (∀ tile slot, u.thread tile slot = s.thread tile slot) ∧ (∀ tile, (u.ctx tile).pool = (s.ctx tile).pool) ∧
    (∀ tile k, u.token tile k = s.token tile k) ∧ SameMemory s u ∧
    ∀ q : TeId, q ≠ p → q.2.2 < 10 → (u.teAt q).snapshot = (s.teAt q).snapshot ∧ (u.teAt q).flags = (s.teAt q).flags ∧
      (u.teAt q).slots = (s.teAt q).slots ∧ (u.teAt q).outM = (s.teAt q).outM ∧
      ∀ a, u.readW q a = s.readW q a

/-- Whether a memory-form slot of the TE in focus fires in the cycle of `s` with nothing that stops it. -/
def firesChain (t : Trig) (m : MemF) (s : State) : Prop :=
  s.focus.tile < 2048 ∧ s.focus.col < 20 ∧ s.focus.row < 10 ∧ s.teRuns s.focusTe = true ∧
    (s.teAt s.focusTe).heldAt s.focus.teSlot = false ∧ s.slotReady s.focusTe t (memShape t m) = true ∧
    (s.teAt s.focusTe).slotPoison.getLsbD s.focus.teSlot = false ∧
    formatFaults (s.teAt s.focusTe) (beatsOf t) (memShape t m) = []

/-- What a selector of a memory-form slot reads in beat `b` (R141). -/
def chainRead (e : TE) (deq : BitVec 6) (b sel : Nat) : W32 :=
  if sel < 6 then (((e.queue sel)[if deq.getLsbD sel then b else 0]?).map (·.data)).getD 0#32
  else if 8 ≤ sel ∧ sel ≤ 15 then (vget e.x (sel - 8) 0#16).signExtend 32
  else if sel = 25 then e.lap.setWidth 32
  else if sel = 26 then e.p.setWidth 32
  else 0#32

/-! ## Engine commands -/

/-- The engine commands without a reply, each with its function code (R47). -/
inductive CommandWord : Instr → Ctl → BitVec 7 → BitVec 5 → BitVec 5 → Prop
  | pmode (c : Ctl) (a b : BitVec 5) : CommandWord (.pmode c a b) c 0x00#7 a b
  | pbed (c : Ctl) (a b : BitVec 5) : CommandWord (.pbed c a b) c 0x01#7 a b
  | pbeds (c : Ctl) (a b : BitVec 5) : CommandWord (.pbeds c a b) c 0x02#7 a b
  | pmap (c : Ctl) (a b : BitVec 5) : CommandWord (.pmap c a b) c 0x03#7 a b
  | phold (c : Ctl) (a b : BitVec 5) : CommandWord (.phold c a b) c 0x04#7 a b
  | pflow (c : Ctl) (a b : BitVec 5) : CommandWord (.pflow c a b) c 0x05#7 a b
  | pdrain (c : Ctl) (a b : BitVec 5) : CommandWord (.pdrain c a b) c 0x06#7 a b
  | pzero (c : Ctl) (a b : BitVec 5) : CommandWord (.pzero c a b) c 0x07#7 a b
  | pspan (c : Ctl) (a b : BitVec 5) : CommandWord (.pspan c a b) c 0x08#7 a b
  | sdef (c : Ctl) (a b : BitVec 5) : CommandWord (.sdef c a b) c 0x10#7 a b
  | scnt (c : Ctl) (a b : BitVec 5) : CommandWord (.scnt c a b) c 0x11#7 a b
  | ssub (c : Ctl) (a b : BitVec 5) : CommandWord (.ssub c a b) c 0x12#7 a b
  | sgo (c : Ctl) (a b : BitVec 5) : CommandWord (.sgo c a b) c 0x13#7 a b
  | sstop (c : Ctl) (a b : BitVec 5) : CommandWord (.sstop c a b) c 0x14#7 a b
  | sunf (c : Ctl) (a b : BitVec 5) : CommandWord (.sunf c a b) c 0x15#7 a b
  | srgp (c : Ctl) (a b : BitVec 5) : CommandWord (.srgp c a b) c 0x16#7 a b
  | shash (c : Ctl) (a b : BitVec 5) : CommandWord (.shash c a b) c 0x17#7 a b
  | cpshape (c : Ctl) (a b : BitVec 5) : CommandWord (.cpshape c a b) c 0x20#7 a b
  | cpy (c : Ctl) (a b : BitVec 5) : CommandWord (.cpy c a b) c 0x21#7 a b
  | cpyr (c : Ctl) (a b : BitVec 5) : CommandWord (.cpyr c a b) c 0x22#7 a b
  | cpyf (c : Ctl) (a b : BitVec 5) : CommandWord (.cpyf c a b) c 0x23#7 a b
  | gidx (c : Ctl) (a b : BitVec 5) : CommandWord (.gidx c a b) c 0x28#7 a b
  | gath (c : Ctl) (a b : BitVec 5) : CommandWord (.gath c a b) c 0x29#7 a b
  | scata (c : Ctl) (a b : BitVec 5) : CommandWord (.scata c a b) c 0x2A#7 a b
  | fload (c : Ctl) (a b : BitVec 5) : CommandWord (.fload c a b) c 0x30#7 a b
  | fgo (c : Ctl) (a b : BitVec 5) : CommandWord (.fgo c a b) c 0x31#7 a b
  | fstop (c : Ctl) (a b : BitVec 5) : CommandWord (.fstop c a b) c 0x32#7 a b
  | fput (c : Ctl) (a b : BitVec 5) : CommandWord (.fput c a b) c 0x33#7 a b
  | tjoin (c : Ctl) (a b : BitVec 5) : CommandWord (.tjoin c a b) c 0x38#7 a b
  | treset (c : Ctl) (a b : BitVec 5) : CommandWord (.treset c a b) c 0x39#7 a b
  | gstart (c : Ctl) (a b : BitVec 5) : CommandWord (.gstart c a b) c 0x40#7 a b
  | garm (c : Ctl) (a b : BitVec 5) : CommandWord (.garm c a b) c 0x41#7 a b
  | gdone (c : Ctl) (a b : BitVec 5) : CommandWord (.gdone c a b) c 0x42#7 a b

/-- The engine commands with a reply, each with its function code and the register of the reply (R47). -/
inductive ReplyWord : Instr → Ctl → BitVec 7 → BitVec 5 → BitVec 5 → BitVec 5 → Prop
  | pstat (c : Ctl) (d a b : BitVec 5) : ReplyWord (.pstat c d a b) c 0x09#7 d a b
  | fget (c : Ctl) (d a b : BitVec 5) : ReplyWord (.fget c d a b) c 0x34#7 d a b
  | fstat (c : Ctl) (d a b : BitVec 5) : ReplyWord (.fstat c d a b) c 0x35#7 d a b
  | tquery (c : Ctl) (d a b : BitVec 5) : ReplyWord (.tquery c d a b) c 0x3A#7 d a b

/-- Every thread but the one in focus, every token and every TE is as before, and so are the pools but for the owners
of the accumulators of the tile in focus, and memory. -/
def SameButOwners (s t : State) : Prop :=
  (∀ tile slot, ¬(tile = s.focus.tile ∧ slot = s.focus.slot) → t.thread tile slot = s.thread tile slot) ∧
    (∀ tile, tile ≠ s.focus.tile → (t.ctx tile).pool = (s.ctx tile).pool) ∧
    { (t.ctx s.focus.tile).pool with owners := [] } = { (s.ctx s.focus.tile).pool with owners := [] } ∧
    (∀ tile k, t.token tile k = s.token tile k) ∧ (∀ p, t.teAt p = s.teAt p) ∧ SameMemory s t

/-- Whether a token word breaks a rule of R48: bit 56 set, a consumed byte of level 0 with a token number, or a
consumed token that is the produced one. -/
def tokenWordBad (b : Word) : Prop :=
  b.getLsbD 56 = true ∨
    ∃ j, j < 3 ∧ ((b.toNat / 2 ^ (48 - 8 * j) % 4 = 0 ∧ b.toNat / 2 ^ (50 - 8 * j) % 64 ≠ 0) ∨
      (b.toNat / 2 ^ (48 - 8 * j) % 4 ≠ 0 ∧ b.getLsbD 57 = true ∧
        b.toNat / 2 ^ (50 - 8 * j) % 64 = b.toNat / 2 ^ 58))

/-- A command of a tile that a thread has issued, with its produced token its own. -/
def Stands (s : State) (tile : Nat) (c : Cmd) : Prop :=
  tile < 2048 ∧ s.cmd? tile c.id = some c ∧ c.armed = false ∧
    ∀ k, produced c.b = some k → (s.token tile k).owner = some c.id

/-- The token that a command produces, if it produces one, is in a state, and every other token is as before. -/
def TokenTurns (s t : State) (tile : Nat) (c : Cmd) (st : TokState) : Prop :=
  (∀ k, produced c.b = some k → (t.token tile k).state = st ∧ (t.token tile k).poisoned = false) ∧
    ∀ n k, (n ≠ tile ∨ produced c.b ≠ some k) → t.token n k = s.token n k

/-- A command has ended: it stands in no queue and no engine of its tile, and its token is final. -/
def Ended (s t : State) (tile : Nat) (c : Cmd) (st : TokState) : Prop :=
  (∀ x ∈ (t.ctx tile).cmds, x.id ≠ c.id) ∧ TokenTurns s t tile c st

/-- Whether a place is that of another TE. -/
def OtherTe (p q : TeId) : Prop := q.1 ≠ p.1 ∨ teKey q.2.1 q.2.2 ≠ teKey p.2.1 p.2.2

/-- Whether a waiting command is the next that its engine begins. -/
def BeginsNext (s : State) (tile : Nat) (c : Cmd) : Prop :=
  Stands s tile c ∧ c.stage = .waiting ∧ (s.tile tile).stopped = false ∧ s.atHead tile c = true

/-- A command of the pool or of an engine runs, and the stop wave has not reached its tile. -/
def Runs (s : State) (tile : Nat) (c : Cmd) : Prop :=
  Stands s tile c ∧ c.stage = .running ∧ (s.tile tile).stopped = false

/-! ## The fabric's links and the chains -/

/-- The state of a link's sender after a change that leaves everything but its TE as it was. -/
def OnlyTe (s t : State) (p : TeId) : Prop :=
  (∀ q, OtherTe p q → t.teAt q = s.teAt q) ∧ (∀ n k, t.thread n k = s.thread n k) ∧ (∀ n k, t.token n k = s.token n k) ∧
    SameMemory s t

/-- The access at a TE's out.m that its home looks at (R199): the image, the access as part of the instance that is
open, its request at the home, and the context of its chain. -/
def Offers (s : State) (p : TeId) (m : Image) (r : ChainReq) (k : ChainCtx) : Prop :=
  p.1 < 2048 ∧ p.2.1 < 20 ∧ p.2.2 < 10 ∧ s.imageOf p = some m ∧
    (∃ r0 rest, (s.teAt p).outM = r0 :: rest ∧ r = { r0 with inRegion := m.state == .opened }) ∧
    (s.tile p.1).stopped = false ∧ (m.home = 0 ∨ r.net = .arrived) ∧
    (s.homeOf m).ctx? m.id r.chain.toNat = some k

/-- The answer of a home to a TE: a token at the end of in.m, and its slot reserved no longer; of a home in a slice, a
packet on channel 2 from that slice, which carries the token (R169, R252). -/
def Answers (s t : State) (m : Image) (p : TeId) (y : Token) : Prop :=
  (m.home = 0 → (t.teAt p).queue 4 = (s.teAt p).queue 4 ++ [y] ∧ (t.teAt p).reservedM = (s.teAt p).reservedM - 1) ∧
    (m.home ≠ 0 → (t.teAt p).queue 4 = (s.teAt p).queue 4 ∧ (t.teAt p).reservedM = (s.teAt p).reservedM ∧
      let u := unitOf m.home p.1
      ∃ x : Packet, (t.switch m.home u).waiting = (s.switch m.home u).waiting ++ [(4, x)] ∧ x.vc = 2 ∧ x.tile = p.1 ∧
        x.path = downPath p.1 m.home ∧ x.payload = .chainReply m.id p.2.1 p.2.2 y)

/-- The home of an image, by its level and unit. -/
def LivesAt (s : State) (m : Image) (level unit : Nat) : Prop :=
  s.liveImage? m.id = some m ∧ m.home = level ∧ m.homeUnit = unit

/-- What the end of a commit leaves of an image (R15, R229, R233): its domain idle, in speculative mode and with its counter
0, its control tokens at their collectors, nothing in its home that belongs to an instance, and, where a stop has come
meanwhile, its TEs stopped. -/
def Committed (s t : State) (m : Image) : Prop :=
  (∃ n, t.image? m.id = some n ∧ n.state = .idle ∧ n.ordered = false ∧ n.reentry = 0#8 ∧ n.committing = false ∧
    n.snapshots = [] ∧ n.heldTokens = [] ∧ n.heldAnswers = []) ∧
    (∀ p, (t.ctx p).collector =
      (s.ctx p).collector ++ (m.heldTokens.filter fun x => x.1 == p).map fun x => { x.2 with due := s.now + 3 }) ∧
    (∀ x ∈ (t.homeOf m).entries, x.img = m.id → x.req.inRegion = false) ∧
    (m.stopAfter = true → ∀ q ∈ m.tes, (t.teAt q).started = false)

/-! ## The control network, the links and the host -/

/-- R253, R254: an egress that still passes the flits of a packet grants nothing, and neither does one without a head;
an egress that grants a head takes it from its queue, into the queue of its kind at the next hop, or, at the end of
its path, to where its payload leads: a load's reply sets out or has come, a store may be performed, an
engine command's access may be, a chain access is at its home and its answer in the slot of in.m that waits for it, an
arrival at its barrier slot and a control token at its tile (R177, R256, R260, R267, R421). The next packet of the queue is its head once the granted one's flits have left. A
packet that a gateway drops reaches nothing (R349). What a packet's reply carries and when it sets out is in part the
model's choice (log entry 54). -/
def EgressesGrantOneHead : Prop :=
  ∀ (level unit egress : Nat) (s : State), switchOk level unit egress = true →
    let w := (s.switch level unit).settle s.now
    let g := vget w.egress egress {}
    let hs := (s.setSwitch level unit w).heads level unit egress
    let e : Instr := .egressArbitration level unit egress
    (0 < g.busy → ∃ t, exec e s = .next t ∧
      (vget (t.switch level unit).egress egress {}).busy = g.busy - 1 ∧
      (∀ p q, p < 6 → q < 7 → ((t.switch level unit).queue p q).length = (w.queue p q).length) ∧
      t.tiles = s.tiles ∧ SameMemory s t) ∧
    (g.busy = 0 → g.choose w s.now hs = none → ∃ t, exec e s = .next t ∧
      (∀ p q, p < 6 → q < 7 → ((t.switch level unit).queue p q).length = (w.queue p q).length) ∧
      t.tiles = s.tiles ∧ SameMemory s t) ∧
    (g.busy = 0 → ∀ x promoted, g.choose w s.now hs = some (x, promoted) →
      ∃ t, exec e s = .next t ∧ SameMemory s t ∧
        (vget (t.switch level unit).egress egress {}).busy = x.pkt.flits - 1 ∧
        (s.stopsPacket level unit egress x.pkt = true →
          (∀ gid tile slot, x.pkt.payload = .arrival gid tile slot → t.groups = s.groups ∧ t.tiles = s.tiles) ∧
          ∀ tile slot k, x.pkt.payload = .store tile slot k → slot < 4 →
            ∀ f ∈ (t.thread tile slot).inflight, f.sid ≠ k) ∧
        (s.stopsPacket level unit egress x.pkt = false →
        (t.switch level unit).queue x.port x.queue = (match (w.queue x.port x.queue).tail with
          | [] => []
          | y :: ys => { y with at_ := Nat.max y.at_ (s.now + x.pkt.flits) } :: ys) ∧
        (x.pkt.path.tail ≠ [] → let n := nextHop level unit egress
          (t.switch n.1 n.2.1).queue n.2.2 x.queue = (s.switch n.1 n.2.1).queue n.2.2 x.queue ++
            [{ x.pkt with path := x.pkt.path.tail, age := 0, sentAt := s.now,
                          at_ := s.now + hopCycles (Nat.min level n.1) }] ∧
          t.tiles = s.tiles) ∧
        (x.pkt.path.tail = [] →
          (∀ tile slot k o, x.pkt.payload = .load tile slot k →
            ((s.thread tile slot).outstanding.find? fun y => y.id == k) = some o →
            let l := Nat.min 4 (levelOfPlace o.space o.place)
            t.tiles = s.tiles ∧ ∃ port r, (port, r) ∈ (t.switch l (unitOf l tile)).waiting ∧
              r.payload = .loadReply tile slot k ∧ r.path = downPath tile l ∧ r.reply = (x.pkt.vc == 0) ∧
              s.now + replyAfter level egress tile o.space o.place ≤ r.at_) ∧
          (∀ tile slot k, x.pkt.payload = .loadReply tile slot k → slot < 4 →
            ∀ o ∈ (t.thread tile slot).outstanding, o.id = k → o.inNet = false ∧ o.due = s.now + downCycles 1) ∧
          (∀ tile slot k, x.pkt.payload = .store tile slot k → slot < 4 →
            ∀ f ∈ (t.thread tile slot).inflight, f.sid = k → f.inNet = false) ∧
          (∀ tile col row, x.pkt.payload = .chain tile col row →
            (t.te tile col row).outM = arriveFirst (s.te tile col row).outM) ∧
          (∀ img col row y, x.pkt.payload = .chainReply img col row y →
            let p : TeId := (x.pkt.tile, col, row)
            (s.teAt p).image = some img → (t.teAt p).queue 4 = (s.teAt p).queue 4 ++ [y] ∧
              (t.teAt p).reservedM = (s.teAt p).reservedM - 1) ∧
          (∀ id target space place n write c, x.pkt.payload = .engine (.command id) target space place n write →
            s.cmd? x.pkt.tile id = some c → c.ask = .onWay →
            ∃ d, t.cmd? x.pkt.tile id = some d ∧ d = { c with ask := .arrived }) ∧
          (∀ gid tile slot h, x.pkt.payload = .arrival gid tile slot → s.group? gid = some h →
            t.group? gid = some { h with arrivals := h.arrivals ++ [s.now] }) ∧
          (∀ c, x.pkt.payload = .token c →
            (t.tile c.tile).incoming = (s.tile c.tile).incoming ++ [{ c with due := s.now + downCycles 1 }]))))

/-- R254, R269: a write of an egress's settings stores AGE_MAX at least 4 and every weight at least 1. In the cycle of
the write the egress arbitrates as before; from the next on the word is in force, every pointer is at port 0 with
its full credit, and every queue with its ages stands. -/
def SettingsWritesResetTheArbiter : Prop :=
  ∀ (level unit egress : Nat) (v : Word) (s : State), switchOk level unit egress = true →
    ∃ t, exec (.switchSettingsWrite level unit egress v) s = .next t ∧
      let g := (vget (s.switch level unit).egress egress {}).settle s.now
      let g' := vget (t.switch level unit).egress egress {}
      g'.settings = g.settings ∧ g'.ptr = g.ptr ∧ g'.credit = g.credit ∧ g'.busy = g.busy ∧
        (∀ n, s.now < n → let e := g'.settle n
          e.settings.toNat % 256 = Nat.max 4 (v.toNat % 256) ∧
          (∀ p, p < 6 → e.settings.toNat / 2 ^ (8 + 4 * p) % 16 = Nat.max 1 (v.toNat / 2 ^ (8 + 4 * p) % 16)) ∧
          e.settings.toNat / 2 ^ 32 = 0 ∧ e.ptr = Vector.replicate 6 0 ∧
          ∀ k, k < 6 → vget e.credit k 0 = e.settings.toNat / 2 ^ 8 % 16) ∧
        (t.switch level unit).queues = (s.switch level unit).queues ∧ t.tiles = s.tiles ∧ SameMemory s t

/-- R99, R320, R331, R342: a load whose reply has not come within its time, or whose way is lost, traps LINK in its
thread, reason 1 or 2, to return to the region's resume point; a store that has not left its die and whose
acknowledgement has not come is no longer in flight; an engine command without a write on its way to another die ends
FAULTED with cause LINK. From when the time of a command counts is the model's choice (log entry 55), and which ways
a lost module cuts is too (log entries 10 and 57). -/
def LostRequestsEnd : Prop :=
  ∀ (tile slot : Nat) (pairLost : Bool) (s : State), tile < 2048 → slot < 4 →
    let th := s.thread tile slot
    (∀ k o, (th.outstanding.find? fun x => x.id == k && x.inNet) = some o →
      s.replyOverdue tile o.space o.place (o.due - latencyOf tile o.space o.place) pairLost = true →
      th.sup = false → th.tvec ≠ 0#64 → th.trapsPoisoned = false → th.reentry.toNat + 1 < th.reentrymax.toNat →
      ∃ t, exec (.requestTimeout (.load tile slot k) pairLost) s = .next t ∧
        (t.thread tile slot).pc = th.tvec ∧ (t.thread tile slot).sup = true ∧ (t.thread tile slot).tepc = th.resume ∧
        (t.thread tile slot).tcause = (if pairLost then 0x213#64 else 0x113#64) ∧
        (t.thread tile slot).tval = o.va ∧ (t.thread tile slot).buffered = [] ∧
        (∀ r, (t.thread tile slot).reg r = th.reg r) ∧ (∀ x ∈ (t.thread tile slot).outstanding, x.id ≠ o.id) ∧
        SameMemory s t) ∧
    (∀ sp f fs, th.streamOf (spaceOf sp) = f :: fs → f.passed = false →
      s.replyOverdue tile (spaceOf sp) f.buf.place f.since pairLost = true →
      ∃ t, exec (.requestTimeout (.store tile slot sp) pairLost) s = .next t ∧
        (∀ x ∈ (t.thread tile slot).inflight, x.sid ≠ f.sid) ∧ (t.thread tile slot).pc = th.pc ∧
        ∀ r, (t.thread tile slot).reg r = th.reg r) ∧
    ∀ c b n sp a place, Stands s tile c → c.stage = .running → c.func ≠ 0x13#7 → (b, n, sp, a) ∈ s.nextRequests tile c →
      (∀ w ∈ s.pkg.far, w.tile = tile → w.maker.cmd? ≠ some c.id) → s.placeAt b n c.gid sp a = some place →
      s.replyOverdue tile sp place c.asked pairLost = true →
      ∃ t, exec (.requestTimeout (.command tile c.id) pairLost) s = .next t ∧ Ended s t tile c .faulted ∧
        ∀ k, produced c.b = some k → (t.token tile k).cause = 0x13#6

/-- R323, R329: a request of another package whose way is not lost is refused without a grant and not performed on a
poisoned granule; an admitted load, store or atomic is performed at its address, and no other byte of memory changes.
The status of a reply, 0 for done, 1 for refused and 2 for poison, is the model's number; that a refused store and one
that meets poison are answered with it, for the sender's supervisor has its record too, and that a refused atomic is
answered without a value, is the model's choice (log entries 48 and 56). -/
def RemoteRequestsAreServed : Prop :=
  ∀ (r : RemoteReq) (s : State), s.mem.wf = true →
    let a := locPa r.pa
    let e : Instr := .remoteRequestArrival r
    s.ioWayLost (dieOfPa a) 0 = false → s.ioWayLost (dieOfPa a) 1 = false →
    (s.admits r = false → ∃ t, exec e s = .next t ∧ t.pkg.remoteReplies = s.pkg.remoteReplies ++ [(r.pkg, 1, [])] ∧
      (wantsValue r = true → SameMemory s t)) ∧
    (s.admits r = true → s.poisonedAt a = true →
      ∃ t, exec e s = .next t ∧ t.pkg.remoteReplies = s.pkg.remoteReplies ++ [(r.pkg, 2, [])] ∧
        (wantsValue r = true → SameMemory s t)) ∧
    (s.admits r = true → s.poisonedAt a = false →
      (r.kind = .load → ∃ t, exec e s = .next t ∧ SameMemory s t ∧
        t.pkg.remoteReplies = s.pkg.remoteReplies ++ [(r.pkg, 0, s.mem.readBytes a r.size)]) ∧
      (r.kind = .store → ∃ t, exec e s = .next t ∧ t.mem.readBytes a r.size = leBytes r.size r.data.toNat ∧
        (∀ x, x < a ∨ a + r.size ≤ x → t.mem.read x = s.mem.read x) ∧ t.poison = s.poison ∧
        t.pkg.remoteReplies = s.pkg.remoteReplies ++ [(r.pkg, 0, [])]) ∧
      (∀ ret, r.kind = .amo 0#3 ret → ∃ t, exec e s = .next t ∧
        t.mem.readLe a 8 = (s.mem.readLe a 8 + r.data.toNat) % 2 ^ 64 ∧
        (∀ x, x < a ∨ a + 8 ≤ x → t.mem.read x = s.mem.read x) ∧
        t.pkg.remoteReplies = s.pkg.remoteReplies ++ [(r.pkg, 0, if ret then s.mem.readBytes a 8 else [])]))

/-- R318, R320, R351: a module that fails to retrain is retired, at both its ends where it joins two compute dies; a
replay only counts in the module's error window. The numbers of the modules, which module stands at the far end of
which, and the number 8 of the modules between the I/O dies are the model's choice (log entry 10), and so is what a
failure does at once (log entry 57). -/
def ModulesFailAndReplay : Prop :=
  ∀ (die md : Nat) (s : State),
    (die < 8 → md < 14 → ∃ t, exec (.ucieRetrainFailure die md) s = .next t ∧
      (vget t.pkg.dies die {}).lost.contains md = true ∧
      (vget t.pkg.dies (farModule die md).1 {}).lost.contains (farModule die md).2 = true ∧ t.tiles = s.tiles) ∧
    (die < 8 → 14 ≤ md → md < 16 → ∃ t, exec (.ucieRetrainFailure die md) s = .next t ∧
      (vget t.pkg.dies die {}).lost.contains md = true ∧ t.tiles = s.tiles) ∧
    (die = 8 → md < 4 → ∃ t, exec (.ucieRetrainFailure die md) s = .next t ∧ t.pkg.ioLost.contains md = true ∧
      (∀ d, (vget t.pkg.dies d {}).lost = (vget s.pkg.dies d {}).lost) ∧ t.tiles = s.tiles) ∧
    (moduleOk die md = true → ∃ t c, exec (.ucieFlitReplay die md) s = .next t ∧ c ∈ t.pkg.corrected ∧
      c.unit = ⟨unitUcie, 16 * die + md, 0⟩ ∧ s.now ∈ c.cycles ∧
      ∀ d, (vget t.pkg.dies d {}).lost = (vget s.pkg.dies d {}).lost)

/-- R322, R323, R333, R415: the host writes and reads the bytes of device memory that it may reach, and is refused
any other and every atomic; configuration space answers. What of memory the host may reach, and how it is refused,
is in part the model's choice (log entries 62 and 71). -/
def HostRequestsAreAnswered : Prop :=
  ∀ (pa n : Nat) (v : List (BitVec 8)) (s : State), s.mem.wf = true →
    (s.hostMay pa v.length = true → ∃ t, exec (.hostCxlMemWrite pa v) s = .next t ∧
      t.mem.readBytes pa v.length = v ∧ (∀ x, x < pa ∨ pa + v.length ≤ x → t.mem.read x = s.mem.read x) ∧
      t.poison = s.poison ∧ t.pkg.hostReplies = s.pkg.hostReplies ++ [(true, [])] ∧ t.tiles = s.tiles) ∧
    (s.hostMay pa v.length = false → ∃ t, exec (.hostCxlMemWrite pa v) s = .next t ∧ SameMemory s t ∧
      t.pkg.hostReplies = s.pkg.hostReplies ++ [(false, [])]) ∧
    (∃ t, exec (.hostCxlMemRead pa n) s = .next t ∧ SameMemory s t ∧ t.tiles = s.tiles ∧
      t.pkg.hostReplies = s.pkg.hostReplies ++
        [if s.hostMay pa n then (true, s.mem.readBytes pa n) else (false, [])]) ∧
    (∃ t, exec (.hostAtomicop pa) s = .next t ∧ SameMemory s t ∧ t.tiles = s.tiles ∧
      t.pkg.hostReplies = s.pkg.hostReplies ++ [(false, [])]) ∧
    ∃ t bs, exec (.hostConfigRequest n) s = .next t ∧ SameMemory s t ∧ t.tiles = s.tiles ∧ bs.length = 4 ∧
      t.pkg.hostReplies = s.pkg.hostReplies ++ [(true, bs)]

/-! ## The supervisor -/

/-- R323: a scrub of a whole granule writes its bytes and clears its poison, and changes no other granule. -/
def ScrubsClearPoison : Prop :=
  ∀ (loc : Nat) (v : List (BitVec 8)) (s : State), s.mem.wf = true → granuleOf loc = loc → loc < 2 ^ 49 →
    v.length = (if loc < 2 ^ 41 then 32 else 64) →
    ∃ t, exec (.granuleScrub loc v) s = .next t ∧ t.mem.readBytes loc v.length = v ∧ t.poisonedAt loc = false ∧
      (∀ x, x < loc ∨ loc + v.length ≤ x → t.mem.read x = s.mem.read x) ∧
      (∀ g, g ≠ loc → (g ∈ t.poison ↔ g ∈ s.poison)) ∧ t.tiles = s.tiles

/-- R328: an invalidation removes every translation that it names from every buffer of translations, and adds none;
of the pointers that a die's walker holds it leaves none that it names. -/
def InvalidationsDropTranslations : Prop :=
  ∀ (r : InvalScope) (s : State), ∃ t, exec (.translationInvalidation r) s = .next t ∧
    (∀ b, ∀ l ∈ t.tlb b, l ∈ s.tlb b ∧ s.removes r l = false) ∧
    ∀ d, ∀ l ∈ t.pkg.walkers.get [] d, l ∈ s.pkg.walkers.get [] d ∧ s.removesPointer r l = false

/-- R332, R342, R349, R416: the management registers set a partition's table root and handler, the package's number
and the least firmware version, which never falls. Which values the map refuses is in part the model's choice (log
entry 61). -/
def ManagementWritesTakeEffect : Prop :=
  ∀ (s : State),
    (∀ part p pa, s.part? part = some p → pa % 4096 = 0 → pa < 2 ^ 41 →
      ∃ t, exec (.managementRegisterWrite (.partRoot part false pa)) s = .next t ∧
        t.part? part = some { p with rootG := pa } ∧ t.tiles = s.tiles ∧ SameMemory s t) ∧
    (∀ part p v, s.part? part = some p →
      ∃ t, exec (.managementRegisterWrite (.partHandler part v)) s = .next t ∧
        t.part? part = some { p with tvec := v } ∧ t.tiles = s.tiles ∧ SameMemory s t) ∧
    (∀ part owner b, s.pkg.bootState = 7#8 → s.parts.length < 128 → s.part? part = none → owner < 128 → b < 128 →
      s.blockFree b = true →
      ∃ t p, exec (.managementRegisterWrite (.createPartition part owner [b])) s = .next t ∧
        t.part? part = some p ∧ p.owner = owner ∧ p.blocks = [b] ∧ t.tiles = s.tiles ∧ SameMemory s t) ∧
    (∀ n, n ≤ 575 → ∃ t, exec (.managementRegisterWrite (.packageNumber n)) s = .next t ∧ t.pkg.number = n ∧
      t.tiles = s.tiles ∧ SameMemory s t) ∧
    ∀ v, ∃ t, exec (.managementRegisterWrite (.raiseSvn v)) s = .next t ∧
      t.pkg.raisedSvn.toNat = Nat.max s.pkg.raisedSvn.toNat v.toNat ∧ t.tiles = s.tiles ∧ SameMemory s t

/-- R419, R420: the read of a counter gives its value and clears it, and no other counter; the read of a telemetry
register gives it and clears nothing. The indices of the telemetry registers are the model's choice (log entry 61). -/
def CountersClearOnRead : Prop :=
  ∀ (c : CounterId) (s : State), ∃ t, exec (.counterRead c) s = .next t ∧ t.tiles = s.tiles ∧ SameMemory s t ∧
    (c.unit ≠ unitTelemetry → t.pkg.supervisorValue = BitVec.ofNat 64 (s.counter c) ∧ t.counter c = 0 ∧
      ∀ d, d ≠ c → t.counter d = s.counter d) ∧
    (c.unit = unitTelemetry → (∀ d, t.counter d = s.counter d) ∧
      (c.index = 0 → t.pkg.supervisorValue = s.pkg.pkgPower.setWidth 64) ∧
      (∀ d, d < 8 → c.index = 1 + d → t.pkg.supervisorValue = (vget s.pkg.dies d {}).power.setWidth 64) ∧
      (∀ d, d < 8 → c.index = 9 + d → t.pkg.supervisorValue = (vget s.pkg.dies d {}).temp.setWidth 64) ∧
      (c.index = 17 → ∀ d, d < 8 →
        t.pkg.supervisorValue.toNat / 16 ^ d % 16 = ((vget s.pkg.dies d {}).duty - 1) % 16))

/-- R417: once BAR0 is usable, a nonce is answered with a report that begins with it, the digest and the SVN of the
firmware, each least significant octet first, the digest of the partition map and the package's number, and ends with
a signature of 96 octets over them; before, and after a failed boot, nothing changes. That the report holds the digest
least significant octet first is the model's reading, DEDUCED (log entry 15). -/
def NoncesAreAttested : Prop :=
  ∀ (nonce : BitVec 256) (s : State),
    (5 ≤ s.pkg.bootState.toNat → s.pkg.bootState.toNat ≤ 7 →
      ∃ t map sig, exec (.attestationNonceWrite nonce) s = .next t ∧
        t.pkg.report = leBytes 32 nonce.toNat ++ leBytes 48 s.pkg.firmwareDigest.toNat ++
          leBytes 4 s.pkg.firmwareSvn.toNat ++ map ++ leBytes 2 s.pkg.number ++ sig ∧ map.length = 48 ∧
        sig.length = 96 ∧ t.tiles = s.tiles ∧ SameMemory s t) ∧
    (s.pkg.bootState.toNat < 5 ∨ 7 < s.pkg.bootState.toNat → exec (.attestationNonceWrite nonce) s = .next s)

/-- R418: a sample below 115 °C sets the telemetry of its die and its duty: 4 above 105 °C, and else the sample's,
between 4 and 16. -/
def SamplesSetTheDuty : Prop :=
  ∀ (p : PowerReading) (s : State), p.die < 8 → p.temp.toNat < 115 →
    ∃ t, exec (.powerSample p) s = .next t ∧
      (vget t.pkg.dies p.die {}).duty = (if 105 < p.temp.toNat then 4 else Nat.max 4 (Nat.min 16 p.duty)) ∧
      (vget t.pkg.dies p.die {}).temp = p.temp ∧ (vget t.pkg.dies p.die {}).power = p.diePower ∧
      t.pkg.pkgPower = p.pkgPower ∧ t.tiles = s.tiles ∧ SameMemory s t

/-- R351: a scrub that finds a corrected error counts it in its unit's window, and one that finds none changes
nothing. -/
def SramScrubsCountErrors : Prop :=
  ∀ (u : CounterId) (s : State),
    exec (.sramScrub u false) s = .next s ∧
    ∃ t c, exec (.sramScrub u true) s = .next t ∧ c ∈ t.pkg.corrected ∧ c.unit = u ∧ s.now ∈ c.cycles

/-- R234, R323, R350: an uncorrectable error poisons the granule, accumulator, token or W word that it lies in, or
the accumulator of a swapped context; and a register that its open region has not written. -/
def UncorrectableErrorsPoison : Prop :=
  ∀ (s : State),
    (∀ loc, loc < 2 ^ 49 → ∃ t, exec (.uncorrectableError (.granule loc)) s = .next t ∧ t.poisonedAt loc = true ∧
      (∀ a, t.mem.read a = s.mem.read a) ∧ t.tiles = s.tiles) ∧
    (∀ tile i, tile < 2048 → i < 2048 → ∃ t, exec (.uncorrectableError (.accum tile i)) s = .next t ∧
      i ∈ (t.ctx tile).pool.accPoison ∧ SameMemory s t) ∧
    (∀ tile i, tile < 2048 → i < 2048 → ∃ t, exec (.uncorrectableError (.inShadow (.accum tile i))) s = .next t ∧
      i ∈ (t.tile tile).shadow.pool.accPoison ∧ t.ctx tile = s.ctx tile ∧ SameMemory s t) ∧
    (∀ tile col row i, tile < 2048 → col < 20 → row < 10 → i < 8192 →
      (∀ m, s.imageOf (tile, col, row) = some m → m.metBy s.now = false) →
      ∃ t, exec (.uncorrectableError (.wWord tile col row i)) s = .next t ∧
        8192 * teKey col row + i ∈ (t.tile tile).wPoison ∧ t.ctx tile = s.ctx tile ∧ SameMemory s t) ∧
    (∀ tile k, tile < 2048 → k < 64 → ∃ t, exec (.uncorrectableError (.tokenSlot tile k)) s = .next t ∧
      (t.token tile k).seen = .poison ∧ (∀ n, n ≠ k → t.token tile n = s.token tile n) ∧ SameMemory s t) ∧
    (∀ tile slot r, tile < 2048 → slot < 4 → r ≠ 0#5 → (s.thread tile slot).wroteR.getLsbD r.toNat = false →
      ∃ t, exec (.uncorrectableError (.sReg tile slot r)) s = .next t ∧
        (t.thread tile slot).poisonR = (s.thread tile slot).poisonR ||| (1#32 <<< r.toNat) ∧
        (t.thread tile slot).pc = (s.thread tile slot).pc ∧ SameMemory s t)

/-! ## Reset and boot -/

/-- The BOOTSTATE that a step of the boot follows (R414). -/
def bootPlace : BootInput → Nat
  | .firmware .. => 0
  | .synchronise => 1
  | .ucie _ => 2
  | .memory .. => 3
  | .hostLink _ => 4
  | .scalePorts _ => 5
  | .ready => 6

/-- R413, R416: a cold reset leaves every tile, switch, home, group and partition at its reset value, BOOTSTATE 0 and
device memory zero; host memory and the least firmware version stand. That host memory stands and every other byte
reads 0 is the model's choice (log entry 2). -/
def ColdResetClearsThePackage : Prop :=
  ∀ (s : State), ∃ t, exec .coldReset s = .next t ∧ t.tiles = ⟨[]⟩ ∧ t.homes = ⟨[]⟩ ∧ t.switches = ⟨[]⟩ ∧
    t.seqs = ⟨[]⟩ ∧ t.groups = [] ∧ t.images = [] ∧ t.parts = [] ∧ t.poison = [] ∧ t.now = 0 ∧ t.agenda = [] ∧
    t.pkg.bootState = 0#8 ∧ t.pkg.bootError = 0#8 ∧ t.pkg.counters = [] ∧ t.pkg.savedSeqs = [] ∧
    t.pkg.raisedSvn = s.pkg.raisedSvn ∧ (∀ a, a < 2 ^ 53 → t.mem.read a = 0#8) ∧
    ∀ a, 2 ^ 53 ≤ a → t.mem.read a = s.mem.read a

/-- R353, R413: the reset of a die that holds no partition leaves its tiles at their reset values, its CYCLE at 0, no
module of it lost and its event counter not behind that of die 0, and every tile of another die as it was; while a
stop wave is in progress on a block of the die it is put off; a die that holds a partition otherwise is not reset. That
its memory reads 0 afterwards, and that its event counter does not fall behind that of die 0, is the model's choice
(log entry 60). -/
def DieResetClearsTheDie : Prop :=
  ∀ (die : Nat) (s : State), die < 8 →
    let held (p : Partition) : Prop := ∃ b ∈ p.blocks, b / 16 = die
    ((∀ p ∈ s.parts, ¬held p) → ∃ t, exec (.dieReset die) s = .next t ∧
      (∀ tile, t.tile tile = if tile / 256 = die then ({} : Tile) else s.tile tile) ∧
      (vget t.pkg.dies die {}).cycleBase = s.now ∧ (vget t.pkg.dies die {}).lost = [] ∧
      (vget s.pkg.dies 0 {}).eventBase ≤ (vget t.pkg.dies die {}).eventBase ∧
      (∀ d, d ≠ die → vget t.pkg.dies d {} = vget s.pkg.dies d {}) ∧ t.groups = s.groups ∧ t.parts = s.parts ∧
      (∀ loc, loc < 2 ^ 41 → dieOfPa loc = die → t.mem.read loc = 0#8) ∧
      ∀ loc, 2 ^ 53 ≤ loc → t.mem.read loc = s.mem.read loc) ∧
    ((∃ p ∈ s.parts, held p ∧ p.stopping = true ∧ p.stopped = false) → ∃ t, exec (.dieReset die) s = .next t ∧
      (vget t.pkg.dies die {}).pendingReset = true ∧ t.tiles = s.tiles ∧ SameMemory s t) ∧
    ((∃ p ∈ s.parts, held p) → (∀ p ∈ s.parts, held p → p.stopping = true → p.stopped = true) →
      exec (.dieReset die) s = .next s)

/-- R346, R355, R413: the reset of a partition ends its groups, frees the tokens of its tiles, invalidates their TEs,
clears their pools' mode words, beds and maps and leaves no armed section and no command, in the running context and in
the swapped one; where no group and no armed section stood, the accumulators and every tile outside it are as they
were. While its stop wave is in progress the reset is put off; of a partition that there is not it does nothing. That
the running and the swapped context are reset alike, and that an armed section fails and is gone, is the model's choice
(log entry 60). -/
def PartitionResetClearsItsTiles : Prop :=
  ∀ (part : Nat) (s : State),
    (s.part? part = none → exec (.partitionReset part) s = .next s) ∧
    ∀ p, s.part? part = some p →
      (p.stopping = true → p.stopped = false → ∃ t, exec (.partitionReset part) s = .next t ∧
        t.part? part = some { p with pendingReset := true } ∧ t.tiles = s.tiles ∧ SameMemory s t) ∧
      (p.stopping = false ∨ p.stopped = true → ∃ t, exec (.partitionReset part) s = .next t ∧
        (∀ gid g, t.group? gid = some g → g.part = part → g.ended = true) ∧
        (∀ tile ∈ p.tiles, ∀ x : Context, x = t.ctx tile ∨ x = (t.tile tile).shadow →
          (∀ k, k < 64 → (vget x.tokens k {}).state = .free) ∧ x.tes = ⟨[]⟩ ∧ x.cmds = [] ∧ x.pool.mode = 0#64 ∧
            x.pool.beds = [] ∧ x.pool.map = ⟨[]⟩ ∧ x.pool.armed = none) ∧
        ((∀ g ∈ s.groups, g.part = part → g.ended = true) → (∀ tile ∈ p.tiles, (s.ctx tile).pool.armed = none) →
          (∀ tile ∈ p.tiles, (t.ctx tile).pool.acc = (s.ctx tile).pool.acc) ∧
          (∀ tile, tile ∉ p.tiles → t.tile tile = s.tile tile) ∧ SameMemory s t))

/-- R414, R416: the boot goes on from step to step, and a step that is not the next changes nothing: an accepted image
runs, and none fails the boot; a lost pair of modules, a memory that fails and a host link that does not come up fail
it with their codes; step 4 leaves device memory zero and free of poison; ports that do not come up are left down; after the
last step the package is ready. Which modules join which dies (log entry 10, DESIGN CHOICE), and that a lost way to an I/O
die, or between the two, fails the boot with error 2 as a lost pair of compute dies does (log entry 57, DEDUCED), is the
model's, and so is that step 4 with an IL above 64, which R322 excludes, does nothing (log entry 57). -/
def BootGoesStepByStep : Prop :=
  ∀ (s : State),
    (∀ b, s.pkg.bootState.toNat ≠ bootPlace b → exec (.bootStep b) s = .next s) ∧
    (s.pkg.bootState = 0#8 → ∀ a b, ∃ t, exec (.bootStep (.firmware a b)) s = .next t ∧
      (s.firmwareOk a = true ∨ s.firmwareOk b = true → t.pkg.bootState = 1#8 ∧
        let img := if s.firmwareOk a then a else b
        t.pkg.firmwareSvn.toNat = leNat ((img.drop 8).take 4) ∧
        t.pkg.firmwareDigest.toNat = leNat ((img.drop 0x10).take 48)) ∧
      (s.firmwareOk a = false → s.firmwareOk b = false → t.pkg.bootState = 0xFF#8 ∧ t.pkg.bootError = 1#8)) ∧
    (s.pkg.bootState = 1#8 → ∃ t, exec (.bootStep .synchronise) s = .next t ∧ t.pkg.bootState = 2#8 ∧
      ∀ d, d < 8 → (vget t.pkg.dies d {}).cycleBase = s.now) ∧
    (s.pkg.bootState = 2#8 → ∀ failed, ∃ t, exec (.bootStep (.ucie failed)) s = .next t ∧
      (∀ f ∈ failed, f.1 < 8 → f.2 < 16 → (vget t.pkg.dies f.1 {}).lost.contains f.2 = true) ∧
      (t.anyPairLost = true → t.pkg.bootState = 0xFF#8 ∧ t.pkg.bootError = 2#8) ∧
      (t.anyPairLost = false → t.pkg.bootState = 3#8)) ∧
    (s.pkg.bootState = 3#8 → ∀ il,
      (∃ t, exec (.bootStep (.memory false il)) s = .next t ∧ t.pkg.bootState = 0xFF#8 ∧ t.pkg.bootError = 3#8) ∧
      (64 < il → exec (.bootStep (.memory true il)) s = .next s) ∧
      (il ≤ 64 → ∃ t, exec (.bootStep (.memory true il)) s = .next t ∧
        t.pkg.bootState = 4#8 ∧ t.pkg.il = il ∧ (∀ a, a < 2 ^ 53 → t.mem.read a = 0#8 ∧ a ∉ t.poison) ∧
        ∀ tile, (t.tile tile).wPoison = [] ∧ (t.ctx tile).pool.accPoison = [])) ∧
    (s.pkg.bootState = 4#8 → ∀ ok, ∃ t, exec (.bootStep (.hostLink ok)) s = .next t ∧
      t.pkg.bootState = (if ok then 5#8 else 0xFF#8) ∧ (ok = false → t.pkg.bootError = 4#8)) ∧
    (s.pkg.bootState = 5#8 → ∀ down, ∃ t, exec (.bootStep (.scalePorts down)) s = .next t ∧ t.pkg.bootState = 6#8 ∧
      ∀ p, p < 36 → (p ∈ t.pkg.downPorts ↔ p ∈ down)) ∧
    (s.pkg.bootState = 6#8 → ∃ t, exec (.bootStep .ready) s = .next t ∧ t.pkg.bootState = 7#8 ∧ SameMemory s t)

/-! ## Launches, groups and pre-emption -/

/-- R298, R299, R300, R343, R348: a launch register write, once the package is ready, writes SEQ and STATUS 1 into the
window of its partition and STATE 0 into the nodes that its record names (stated of the first; after the write of the
others the way to them may be another), and puts the graph into the sequencer; with a launch of the window not ended it
only sets OVER; while the partition stops, or is pre-empted at a node boundary, the launch waits. That the bits 63:32 of
the register, which R299 reserves, are ignored is the model's choice (log entry 81), and so is when the STATE 0 of the
nodes is written (log entry 50). -/
def LaunchesStartGraphs : Prop :=
  ∀ (plot reg : Nat) (v : Word) (p : Partition) (rec0 : List Byte) (l : Nat) (s : State), plot < 32 → reg < 4 →
    (s.parts.find? fun q => q.blocks.foldl Nat.min (q.blocks.headD 0) == 4 * plot + reg && !q.blocks.isEmpty) = some p →
    s.pkg.bootState = 7#8 → s.mem.wf = true → s.seqRead p p.window 64 = .ok rec0 →
    let e : Instr := .launchRegisterWrite plot reg v
    let seq := v.setWidth 32
    (∀ l0, s.seqReach p (p.window + 0x40#64) 16 needStore = .ok l0 → s.windowBusy p p.window = true →
      s.seqReach p (p.window + 0x4F#64) 1 needStore = .ok l →
      ∃ t, exec e s = .next t ∧ t.mem.read l = (s.mem.read (l0 + 15) ||| 1#8) ∧
        (∀ x, x ≠ l → t.mem.read x = s.mem.read x) ∧ t.seqs = s.seqs ∧ t.tiles = s.tiles) ∧
    (∀ l0, s.seqReach p (p.window + 0x40#64) 16 needStore = .ok l0 → s.windowBusy p p.window = false →
      s.seqReach p (p.window + 0x48#64) 7 needStore = .ok l →
      let v0 : State := { s with mem := s.mem.writeBytes l (leBytes 4 seq.toNat ++ [0#8, 0#8, 1#8]) }
      let u := v0.clearNodes p p.window
      let heldBack := p.stopping || (s.seqr p.plot).boundary.contains p.id
      (heldBack = true → ∃ t, exec e s = .next t ∧ t.mem = u.mem ∧
        (∀ rec l1, v0.seqRead p p.window 64 = .ok rec → leNat (rec.take 8) % 64 = 0 →
          1 ≤ leNat ((rec.drop 8).take 2) → leNat ((rec.drop 8).take 2) ≤ 1024 →
          v0.seqReach p (BitVec.ofNat 64 (leNat (rec.take 8)) + 0x34#64) 1 needStore = .ok l1 → t.mem.read l1 = 0#8) ∧
        (t.seqr p.plot).waiting = (s.seqr p.plot).waiting ++ [{ part := p.id, window := p.window, seq := seq }] ∧
        t.tiles = s.tiles) ∧
      (heldBack = false → ∀ rec1 g, u.seqRead p p.window 64 = .ok rec1 →
        u.graphOf p { part := p.id, window := p.window, seq := seq } rec1 = .ok g →
        (s.seqr p.plot).room g.nodes.length = true →
        ∃ t, exec e s = .next t ∧ (t.seqr p.plot).graphs = (s.seqr p.plot).graphs ++ [g] ∧ t.tiles = s.tiles))

/-- R301, R303: a node that is ready begins: its STATE is 1, and a kernel node is ready for the dispatcher; a node
whose work is done takes STATE 2 without faults and 3 with them, or 4 where not every group of a kernel node of an
aborted graph has run, while another node of its graph is not complete. While its partition stops, or is pre-empted at a
node boundary, no node begins (R343, R348). -/
def NodesBeginAndComplete : Prop :=
  ∀ (plot graph i : Nat) (g : Graph) (p : Partition) (n : Node) (s : State), plot < 32 → p.plot = plot →
    (s.seqr plot).graph? graph = some g → s.part? g.part = some p → g.nodes[i]? = some n → p.stopping = false →
    ((s.seqr plot).boundary.contains p.id = true → exec (.nodeReady plot graph i) s = .next s) ∧
    ((s.seqr plot).boundary.contains p.id = false → g.ready n = true → n.kind = 0 ∨ n.kind = 2 → ∃ t n', exec (.nodeReady plot graph i) s = .next t ∧
      t.node? plot graph i = some n' ∧ n'.state = 1 ∧ (n.kind = 0 → n'.ready = true) ∧ n'.kind = n.kind ∧
      n'.placed = n.placed ∧ t.tiles = s.tiles) ∧
    ((∀ x ∈ s.pkg.savedSeqs, ¬(x.plot = plot ∧ x.part = p.id)) → n.done g.aborted.isSome = true → ∀ j m, j ≠ i → g.nodes[j]? = some m → m.state < 2 →
      ∃ t n', exec (.nodeComplete plot graph i) s = .next t ∧ t.node? plot graph i = some n' ∧
        n'.state = (if n.kind = 0 ∧ n.placed ≠ n.groups then 4 else if n.faults = 0 then 2 else 3) ∧
        n'.faults = n.faults ∧ t.node? plot graph j = some m ∧ t.tiles = s.tiles)

/-- R305, R306: the next group of the node that became ready first takes what it needs of the first awake unit on which
it fits, from the unit after the last placement on. -/
def PlacementsTakeWhatFits : Prop :=
  ∀ (plot u i : Nat) (g : Graph) (n : Node) (p : Partition) (c : CodeImage) (size : Nat × Nat) (f : Fit) (s : State),
    plot < 32 → p.plot = plot → firstReady (s.candidates plot) = some (g, i, n) → s.part? g.part = some p →
    s.codeImage p n.code = .ok (some c) → s.imageSize p n c = .ok size →
    firstFit (fun x => s.fits (s.barred s.placed) s.placed s.swappedOut g i n c size x)
      (cyclicFrom (vget (s.seqr plot).ptr n.level 0)
        ((p.units n.level).filter fun x => (unitBlocks n.level x).all s.awake)) = some (u, f) →
    ∃ t h, exec (.groupPlacement plot) s = .next t ∧ t.groups = s.groups ++ [h] ∧ h.part = p.id ∧ h.graph = g.id ∧
      h.node = i ∧ h.index = n.placed ∧ h.members = groupTiles n.level u n.members.toNat ∧ h.tokmask = n.tokmask ∧
      h.windows = f.windows ∧ h.slots = f.slots ∧ h.started = false ∧ t.tiles = s.tiles ∧ SameMemory s t

/-- R12, R239, R307: a placed group whose blocks are awake starts on all its member tiles at once: each of its threads
is at its entry in group state with every register 0, and the tokens of its mask are FREE. -/
def GroupsStartTheirThreads : Prop :=
  ∀ (gid : Nat) (g : Group) (p : Partition) (x : Graph) (c : CodeImage) (text sp : List Byte) (s : State),
    s.group? gid = some g → s.partOf gid = some p → g.started = false → g.ended = false →
    g.terminated = false → g.away = false → p.stopping = false → g.earliest ≤ s.now → (∀ t ∈ g.members, s.awake (t / 16) = true) →
    (s.seqr g.plot).graph? g.graph = some x → s.codeImage p g.codeVa = .ok (some c) →
    s.seqRead p (g.codeVa + BitVec.ofNat 64 c.textAt) c.text = .ok text →
    s.seqRead p (g.codeVa + BitVec.ofNat 64 c.spAt) c.spb = .ok sp →
    ∃ t, exec (.groupStart gid) s = .next t ∧ t.group? gid = some { g with started := true } ∧
      ∀ tile ∈ g.members,
        (∀ k, k < 64 → g.tokmask.getLsbD k = true → (t.token tile k).state = .free) ∧
        ∀ (j k : Nat) (e : BitVec 2 × Nat), ((g.slots.filter fun y => y.1 == tile).map (·.2))[j]? = some k → g.entries[j]? = some e →
          ((g.slots.filter fun y => y.1 == tile).map (·.2)).Nodup → k < 4 →
          let th := t.thread tile k
          th.status = .running ∧ th.gid = gid ∧ th.pc = BitVec.ofNat 64 e.2 ∧ th.role = e.1 ∧ th.sup = false ∧
            th.group = BitVec.ofNat 32 g.index ∧ th.flags = 0#8 ∧ th.evt = 0#16 ∧ th.tvec = p.tvec ∧
            ∀ r, th.reg r = 0#64

/-- R296, R303, R307, R346: a group whose threads have halted and whose work is done ends: its threads' slots are empty,
and it counts for its node, with a fault where one of its tokens ended FAULTED or POISON. One that TERMINATE has stopped
ends, with a fault, once what it wrote is visible, and not before. -/
def GroupsEndAndCount : Prop :=
  ∀ (gid : Nat) (g : Group) (p : Partition) (n : Node) (s : State), s.group? gid = some g → s.partOf gid = some p →
    g.ended = false → g.away = false → p.stopping = false → s.node? g.plot g.graph g.node = some n →
    let counts (t : State) (fault : Bool) : Prop := ∃ h, t.group? gid = some h ∧ h.ended = true ∧ h.slots = [] ∧
      h.rects = [] ∧ (∀ x ∈ g.slots, x.2 < 4 → (t.thread x.1 x.2).status = .empty) ∧
      t.node? g.plot g.graph g.node = some { n with
        ended := n.ended + 1
        faults := n.faults + (if fault then 1 else 0) }
    (g.terminated = false → g.started = true → s.groupDone g = true →
      ∃ t, exec (.groupEnd gid) s = .next t ∧ counts t (s.groupFaulted g)) ∧
    (g.terminated = true → (∀ tile ∈ g.members, s.quietOn g tile = true) →
      ∃ t, exec (.groupEnd gid) s = .next t ∧ counts t true) ∧
    (g.terminated = true → (∃ tile ∈ g.members, s.quietOn g tile = false) → exec (.groupEnd gid) s = .next s)

/-- R308: a block that has held no group for 65,536 cycles is gated; a waking block whose cycles have passed is awake. -/
def BlocksGateAndWake : Prop :=
  ∀ (b : Nat) (s : State), b < 128 →
    ((s.partAt (16 * b)).isSome = true → (∀ g ∈ s.groups, g.ended = false → ∀ t ∈ g.members, t / 16 ≠ b) →
      s.blockArmed b = false → s.awake b = true → s.pkg.idleSince.get 0 b + 65536 ≤ s.now →
      ∃ t, exec (.blockGate b) s = .next t ∧ t.awake b = false ∧ (∀ k, k ≠ b → t.awake k = s.awake k) ∧
        t.tiles = s.tiles ∧ SameMemory s t) ∧
    (b ∉ s.pkg.gated → (∀ w ∈ s.pkg.waking, w.1 = b → w.2 ≤ s.now) →
      ∃ t, exec (.blockWakeComplete b) s = .next t ∧ t.awake b = true ∧ (∀ k, k ≠ b → t.awake k = s.awake k) ∧
        t.tiles = s.tiles ∧ SameMemory s t)

/-- R384: a round of an armed section begins with the accumulators of its recorded PFLOW's tiles at 0, the others as
they were; after its drain the section goes on with the passes left, or ends. -/
def ArmedRoundsMoveOn : Prop :=
  ∀ (tile : Nat) (a : Armed) (f d : Cmd) (s : State), tile < 2048 →
    let p := (s.ctx tile).pool
    p.armed = some a → p.lastFlow = some f → p.lastDrain = some d → (s.tile tile).stopped = false → a.failed = false →
    (a.phase = 0 → ∃ t, exec (.armedRound tile) s = .next t ∧
      (∀ i, (t.ctx tile).pool.acc.get 0#32 i = if f.a.getLsbD (i / 64) then 0#32 else p.acc.get 0#32 i) ∧
      SameMemory s t) ∧
    (a.phase = 4 → a.round < a.passesLeft → ∃ t, exec (.armedRound tile) s = .next t ∧
      (t.ctx tile).pool.armed = some { a with passesLeft := a.passesLeft - a.round, phase := 0 } ∧ SameMemory s t) ∧
    (a.phase = 4 → a.passesLeft ≤ a.round → ∃ t, exec (.armedRound tile) s = .next t ∧
      (t.ctx tile).pool.armed = none ∧ (t.ctx tile).pool.acc = p.acc ∧ SameMemory s t)

/-- R222, R235, R252, R343: a stop word starts the wave of its partition, on channel 5 from the die roots to its blocks;
where the wave reaches a tile, the tile stops, and
the open region of each of its threads in group state is discarded and counted. Stated for a tile that is not the
last to report. -/
def StopWavesStopTheirTiles : Prop :=
  ∀ (part : Nat) (p : Partition) (s : State), s.part? part = some p →
    (∃ t, exec (.stopWordWrite part) s = .next t ∧ t.part? part = some { p with stopping := true, reached := [] } ∧
      (∀ b ∈ p.blocks, ∃ x : Packet, (5, x) ∈ (t.switch 4 (unitOf 4 (16 * b))).waiting ∧ x.vc = 5 ∧
        x.payload = .stop part b) ∧ t.tiles = s.tiles ∧ SameMemory s t) ∧
    ∀ tile other, tile < 2048 → p.stopping = true → p.stopped = false → p.blocks.contains (tile / 16) = true →
      (s.tile tile).stopped = false → other ∈ p.tiles → other ≠ tile → (s.tile other).stopped = false →
      ∃ t, exec (.stopWaveArrival part tile) s = .next t ∧ (t.tile tile).stopped = true ∧
        (∀ l ∈ (t.tile tile).tlb, l.part ≠ part) ∧
        ∀ k, k < 4 → let th := s.thread tile k
          th.status = .running → th.sup = false → th.reentry.toNat + 1 < th.reentrymax.toNat →
          (t.thread tile k).pc = th.resume ∧ (t.thread tile k).buffered = [] ∧ (t.thread tile k).held = [] ∧
            (t.thread tile k).reentry = th.reentry + 1#8

/-- R343, R346, R348: SWAP exchanges the context of every tile of a stopped partition with its shadow; RESUME lets the
tiles run again, their threads at their resume points with age 0, the first word of each waiting for every result in
flight; TERMINATE stops a group, which ends, with a fault, once what it wrote is visible: at once where nothing of it is
on its way, and where its context stands in shadow storage; a pre-emption at a node boundary keeps further groups from being placed and, with no group of the partition running,
saves the sequencer's pointers and its graphs. -/
def PartitionsSwapResumeAndTerminate : Prop :=
  ∀ (part : Nat) (p : Partition) (s : State), s.part? part = some p →
    (p.stopped = true → p.tiles.Nodup → ∃ t, exec (.swap part) s = .next t ∧
      (∀ tile ∈ p.tiles, t.ctx tile = (s.tile tile).shadow ∧ (t.tile tile).shadow = s.ctx tile) ∧
      (∀ tile, tile ∉ p.tiles → t.tile tile = s.tile tile) ∧ SameMemory s t) ∧
    (p.stopped = true → ∃ t p', exec (.resume part) s = .next t ∧ t.part? part = some p' ∧ p'.stopping = false ∧
      p'.stopped = false ∧ ∀ tile ∈ p.tiles, (t.tile tile).stopped = false ∧
        ∀ k, k < 4 → (t.thread tile k).age = 0 ∧ (t.thread tile k).fresh = true ∧
          (t.thread tile k).pc = (s.thread tile k).pc) ∧
    (∀ gid g, s.group? gid = some g → g.ended = false →
      let ends (t : State) : Prop := ∃ h, t.group? gid = some h ∧ h.ended = true ∧ (∀ m ∈ t.images, m.gid ≠ gid) ∧
        ∀ n, s.node? g.plot g.graph g.node = some n →
          t.node? g.plot g.graph g.node = some { n with ended := n.ended + 1, faults := n.faults + 1 }
      (g.away = true → ∃ t, exec (.terminate gid) s = .next t ∧ ends t) ∧
      (g.away = false → g.terminated = false →
        (∃ t, exec (.terminate gid) s = .next t ∧
          (∀ x ∈ g.slots, x.2 < 4 → (s.thread x.1 x.2).gid = gid → (t.thread x.1 x.2).status = .empty) ∧
          (ends t ∨ ∃ h, t.group? gid = some h ∧ h.ended = false ∧ h.terminated = true)) ∧
        ((∀ w ∈ s.pkg.far, w.gid ≠ gid) → (∀ m ∈ s.images, m.gid = gid → m.committing = false) → (∀ tile ∈ g.members, ∀ c ∈ (s.ctx tile).cmds, c.gid ≠ gid) →
          (∀ tile slot, slot < 4 → let th := s.thread tile slot
            th.gid = gid → th.inflight = [] ∧ th.departing = [] ∧ th.held = [] ∧ th.outstanding = []) →
          ∃ t, exec (.terminate gid) s = .next t ∧ ends t))) ∧
    ∀ plot, plot < 32 → ∃ t, exec (.nodeBoundaryPreemption plot part) s = .next t ∧
      (t.seqr plot).boundary.contains part = true ∧
      ((∀ g ∈ s.groups, g.plot = plot → g.part = part → g.ended = true) →
        (∀ x ∈ s.pkg.savedSeqs, x.plot = plot → x.part ≠ part) →
        { plot := plot, part := part, ptr := (s.seqr plot).ptr,
          graphs := (s.seqr plot).graphs.filter fun g => g.part == part } ∈ t.pkg.savedSeqs) ∧ t.tiles = s.tiles ∧ SameMemory s t

/-! ## The parts of statements that have several -/

/-- R71, R72 with R70: a taken branch to a good target continues there; CALL and JALR write pc + 4, and nothing
else has changed. -/
def BranchesGoToTheirTarget : Prop :=
  ∀ (i : Instr) (c : Ctl) (d : BitVec 5) (f : Thread → Word) (s : State),
    BranchWord i c d f → issues i c s = true → targetOk s (f s.begin.cur) →
    ∃ t, exec i s = .next t ∧ t.cur.pc = f s.begin.cur ∧ RegisterGets s t d 2 (s.cur.pc + 4#64) ∧
      SameRegsBut d s t ∧ SamePreds s t ∧ SameSpecials s t ∧ SameUnits s t ∧ SameMemory s t

/-- R70: a taken branch to a misaligned target traps ALIGN, and one to an address outside the group's text traps
ACCESS, precisely at the word, with TVAL the target; no link is written. Stated for a thread in group state whose
handler is set. -/
def BranchesTrapOnBadTargets : Prop :=
  ∀ (i : Instr) (c : Ctl) (d : BitVec 5) (f : Thread → Word) (s : State),
    BranchWord i c d f → issues i c s = true → ¬targetOk s (f s.begin.cur) → s.cur.sup = false →
    s.cur.tvec ≠ 0#64 → s.cur.trapsPoisoned = false →
    ∃ t, exec i s = .next t ∧ t.cur.pc = s.cur.tvec ∧ t.cur.sup = true ∧ t.cur.tepc = s.cur.pc ∧
      t.cur.tval = f s.begin.cur ∧
      bits t.cur.tcause 5 0 = (if (f s.begin.cur).toNat % 4 = 0 then 4 else 2) ∧
      (∀ n r, t.cur.regAt n r = s.begin.cur.regAt n r) ∧ SamePreds s t ∧ SameMemory s t

/-- R53: the reply of a load whose value is known writes its register, and no other register of its thread, no
other thread, pool, token or TE, and no byte of memory changes. -/
def LoadReplyWritesTheRegister : Prop :=
  ∀ (tile slot k : Nat) (o : Outstanding) (v : Word) (s : State),
    tile < 2048 → slot < 4 →
    ((s.thread tile slot).outstanding.find? fun x => x.id == k && (x.src == .load || x.src == .value)) = some o →
    o.due ≤ s.now → o.inNet = false → o.value = some v →
    ∃ t, exec (.loadReply tile slot k) s = .next t ∧
      (t.thread tile slot).reg o.dst = (if o.dst = 0#5 then 0#64 else v) ∧
      (∀ r, r ≠ o.dst → (t.thread tile slot).reg r = ((s.thread tile slot).settle s.now).reg r) ∧
      (∀ x ∈ (t.thread tile slot).outstanding, x.id ≠ o.id) ∧
      (t.thread tile slot).pc = (s.thread tile slot).pc ∧
      (t.thread tile slot).specials = (s.thread tile slot).specials ∧
      (∀ p q, ¬(p = tile ∧ q = slot) → t.thread p q = s.thread p q) ∧
      (∀ p, (t.ctx p).pool = (s.ctx p).pool ∧ ∀ n, t.token p n = s.token p n) ∧ SameMemory s t

/-- R66: LDLIT leaves outstanding in d the 8 bytes of the text at (pc AND NOT 7) + 8 × sx(imm13, 13). -/
def LiteralLoadsReadTheText : Prop :=
  ∀ (c : Ctl) (d : BitVec 5) (imm : BitVec 13) (s : State) (l : Nat),
    issues (.ldlit c d imm) c s = true →
    s.textLoc s.focus.tile s.cur.gid s.cur.sup ((s.cur.pc &&& ~~~7#64) + BitVec.ofInt 64 (8 * imm.toInt)) 8 = some l →
    ∃ t o, exec (.ldlit c d imm) s = .next t ∧ Awaits s t o ∧ o.dst = d ∧
      o.value = some (BitVec.ofNat 64 (leNat ((List.range 8).map fun j => s.mem.read (l + j)))) ∧
      ∀ n r, t.cur.regAt n r = s.begin.cur.regAt n r

/-- R101: LDPRM through a window that is bound loads the 8 bytes of G at PWBASE + s(a) + 8 × off6 where they lie in
the window, whether or not PWBASE is a multiple of 8, or, behind earlier accesses of its thread, has them still to be read
(DEDUCED, log entry 19); outside it, and through a window that is not bound, it writes 0 and posts PB or PN. -/
def ParameterLoadsStayInTheirWindow : Prop :=
  ∀ (c : Ctl) (d a : BitVec 5) (off : BitVec 6) (win : BitVec 2) (s : State),
    issues (.ldprm c d a off win) c s = true →
    let i : Instr := .ldprm c d a off win
    let o := s.begin.cur.reg a + BitVec.ofNat 64 (8 * off.toNat)
    let base := vget s.cur.pwbase win.toNat 0#64
    let lim := vget s.cur.pwlim win.toNat 0#32
    (lim = 0#32 ∨ (o.toNat % 8 = 0 ∧ lim.toNat < o.toNat + 8) →
      ∃ t x, exec i s = .next t ∧ t.cur.outstanding = s.cur.outstanding ++ [x] ∧ x.dst = d ∧ x.value = some 0#64 ∧
        t.cur.flags = s.cur.flags ||| (if lim = 0#32 then 0x80#8 else 0x40#8) ∧ t.cur.pc = s.cur.pc + 4#64 ∧
        (∀ n r, t.cur.regAt n r = s.begin.cur.regAt n r) ∧ SamePreds s t) ∧
    (lim ≠ 0#32 → o.toNat % 8 = 0 → o.toNat + 8 ≤ lim.toNat →
      (∀ b ∈ (s.atIssue i c).cur.buffered, b.space ≠ .g) →
      (∀ place s1,
        (s.atIssue i c).resolve (.tile s.focus.tile) s.focus.tile s.cur.gid .g (base + o) 8 needLoad = .ok (place, s1) →
        s1.readFault s.focus.tile s.cur.gid .g place [none] = none →
        ∃ t x, exec i s = .next t ∧ Awaits s t x ∧ x.dst = d ∧
          x.value = (if (s.atIssue i c).cur.mustWait .g then none
            else some (BitVec.ofNat 64 (leNat (s.loadBytes s.focus.tile s.cur.gid .g place 8)))) ∧
          x.queued.map (·.places) =
            (if (s.atIssue i c).cur.mustWait .g then some (placesFrom place 8) else none) ∧
          ∀ n r, t.cur.regAt n r = s.begin.cur.regAt n r) ∧
      ((base + o).toNat % 8 ≠ 0 → ∀ ps s1,
        (s.atIssue i c).resolveEach (base + o) 8 = .ok (ps, s1) →
        s1.readFaults s.focus.tile s.cur.gid ps = none →
        ∃ t x, exec i s = .next t ∧ Awaits s t x ∧ x.dst = d ∧
          x.value = (if (s.atIssue i c).cur.mustWait .g then none
            else some (BitVec.ofNat 64 (leNat (ps.map fun p => s.seenByte s.focus.tile p)))) ∧
          x.queued.map (·.places) = (if (s.atIssue i c).cur.mustWait .g then some ps else none) ∧
          ∀ n r, t.cur.regAt n r = s.begin.cur.regAt n r))

/-- R102, R104: LDACQ, once the thread's earlier accesses to its space are performed and the stores of its earlier
regions visible at tile scope, leaves the bytes at s(a) outstanding in d, zero-extended; before that it stands as an acquiring
read that is still to be performed, and its thread goes on, which is DEDUCED from R240 (log entry 19). -/
def AcquireLoadsWaitForTheirStream : Prop :=
  ∀ (c : Ctl) (d a : BitVec 5) (sp : BitVec 2) (scope : BitVec 3) (sz : BitVec 1) (s s1 : State) (place : Nat),
    let i : Instr := .ldacq c d a sp scope sz
    issues i c s = true →
    let u := s.atIssue i c
    let size := if sz = 1#1 then 8 else 4
    u.resolve (.tile s.focus.tile) s.focus.tile s.cur.gid (spaceOf sp) (s.begin.cur.reg a) size needLoad =
      .ok (place, s1) →
    (u.cur.mustWait (spaceOf sp) = false → s1.readFault s.focus.tile s.cur.gid (spaceOf sp) place [none] = none →
      ∃ t o, exec i s = .next t ∧ Awaits s t o ∧ o.dst = d ∧
        o.value = some (BitVec.ofNat 64 (leNat (s.loadBytes s.focus.tile s.cur.gid (spaceOf sp) place size))) ∧
        ∀ n r, t.cur.regAt n r = s.begin.cur.regAt n r) ∧
    (u.cur.mustWait (spaceOf sp) = true → s1.readFault s.focus.tile s.cur.gid (spaceOf sp) place [none] = none →
      ∃ t o, exec i s = .next t ∧ Awaits s t o ∧ o.dst = d ∧ o.value = none ∧
        o.queued = some { places := placesFrom place size, taken := List.replicate size none, acquire := true,
                          after := u.cur.nextSid } ∧
        ∀ n r, t.cur.regAt n r = s.begin.cur.regAt n r)

/-- R102, R104: STREL waits until every earlier store and atomic of the thread is visible at its scope; its store of the
low bytes of s(d) at s(a) then goes on its way, and no discard repeats it; and the word ends once that store is
performed. No byte of memory changes before the store is acknowledged. That the store is on its way by itself, and that
the second operand register of the wait tells so, is the model's choice (log entry 12). -/
def ReleaseStoresArePerformed : Prop :=
  ∀ (c : Ctl) (d a : BitVec 5) (sp : BitVec 2) (scope : BitVec 3) (sz : BitVec 1) (s : State),
    let i : Instr := .strel c d a sp scope sz
    let u := s.atIssue i c
    let size := if sz = 1#1 then 8 else 4
    (∀ (s1 : State) (place : Nat), issues i c s = true →
      u.resolve (.tile s.focus.tile) s.focus.tile s.cur.gid (spaceOf sp) (s.begin.cur.reg a) size needStore =
        .ok (place, s1) →
      (u.released scope.toNat = false → ∃ t, exec i s = .next t ∧ Held s t) ∧
      (u.released scope.toNat = true → u.cur.nextSid + 1 < 2 ^ 64 →
        ∃ t, exec i s = .next t ∧ Held s t ∧ t.cur.resume = s.cur.pc + 4#64 ∧ t.cur.latchB ≠ 0#64 ∧
          t.cur.inflight.map (·.buf) =
            u.cur.inflight.map (·.buf) ++ [⟨spaceOf sp, place, s.begin.cur.reg a, .store size (s.begin.cur.reg d)⟩])) ∧
    (s.focus.slot < 4 → s.begin.cur.waiting = true → s.cur.latchB ≠ 0#64 →
      ((s.cur.inflight.any fun f => f.sid + 1 == s.cur.latchB.toNat) = true → ∃ t, exec i s = .next t ∧ Held s t) ∧
      ((s.cur.inflight.any fun f => f.sid + 1 == s.cur.latchB.toNat) = false →
        ∃ t, exec i s = .next t ∧ t.cur.pc = s.cur.pc + 4#64 ∧ t.cur.waiting = false ∧
          (∀ n r, t.cur.regAt n r = s.begin.cur.regAt n r) ∧ SamePreds s t ∧ SameSpecials s t ∧ SameUnits s t ∧
          SameMemory s t))

/-- R49, R50, R76, R341: MFS writes the special register it names to d; MFS FLAGS waits for a division that has still
to post its flag. -/
def SpecialRegistersAreRead : Prop :=
  ∀ (c : Ctl) (d : BitVec 5) (n : BitVec 13) (f : State → Word) (s : State),
    SpecialRegister n f → issues (.mfs c d n) c s = true →
    ((n = 0x007#13 → ¬divides s) →
      ∃ t, exec (.mfs c d n) s = .next t ∧ RegisterGets s t d 2 (f (s.atIssue (.mfs c d n) c)) ∧ OnlyRegister s t d) ∧
    (n = 0x007#13 → divides s → ∃ t, exec (.mfs c d n) s = .next t ∧ Waits s t)

/-- R152: MFS FTRAP writes FTRAP to d, and clears V and MORE, bits 63 and 62, as it reads. -/
def FabricTrapIsReadAndCleared : Prop :=
  ∀ (c : Ctl) (d : BitVec 5) (s : State), issues (.mfsFtrap c d) c s = true →
    ∃ t, exec (.mfsFtrap c d) s = .next t ∧ RegisterGets s t d 2 s.cur.ftrap ∧
      t.cur.ftrap = s.cur.ftrap &&& 0x3FFFFFFFFFFFFFFF#64 ∧ t.cur.pc = s.cur.pc + 4#64 ∧ SameRegsBut d s t ∧
      SamePreds s t ∧ { t.cur.specials with ftrap := s.cur.ftrap } = s.cur.specials ∧ SameUnits s t ∧ SameMemory s t

/-- R50, R57, R58, R341: ERET, MFS and MTS of a supervisor register, and MTS of PWBASE or PWLIM trap ILLEGAL in group
state whatever their guard, with TVAL the word. -/
def PrivilegedWordsTrapInGroupState : Prop :=
  ∀ (i : Instr) (c : Ctl) (s : State), PrivilegedWord i c → s.focus.slot < 4 → s.begin.cur.waiting = false →
    hasHandler s → ∃ t w, encodeWord i = some w ∧ exec i s = .next t ∧ EntersHandler s t 0x01 s.cur.pc (w.setWidth 64) 0#64

/-- R57, R58: a word that is no instruction traps ILLEGAL with TVAL the word. -/
def IllegalWordsTrap : Prop :=
  ∀ (w : BitVec 32) (s : State), s.focus.slot < 4 → hasHandler s →
    ∃ t, exec (.illegal w) s = .next t ∧ EntersHandler s t 0x01 s.cur.pc (w.setWidth 64) 0#64

/-- R78, R342: TRAP enters the handler with cause SWTRAP and TVAL s(a), to return to the next word, its open region
committed. -/
def SoftwareTrapsEnterTheHandler : Prop :=
  ∀ (c : Ctl) (a : BitVec 5) (s : State), issues (.trap c a) c s = true → hasHandler s →
    ∃ t, exec (.trap c a) s = .next t ∧ EntersHandler s t 0x0D (s.cur.pc + 4#64) (s.begin.cur.reg a) 0#64 ∧
      t.cur.buffered = [] ∧ t.cur.inflight.map (·.buf) = accesses s

/-- R342: a trap of a thread that is in supervisor state, or whose TVEC is 0, stops the thread; none of its
registers changes, and neither does any other thread. -/
def TrapsWithoutHandlerStopTheThread : Prop :=
  ∀ (c : Ctl) (a : BitVec 5) (s : State), issues (.trap c a) c s = true → s.cur.sup = true ∨ s.cur.tvec = 0#64 →
    ∃ t, exec (.trap c a) s = .next t ∧ t.cur.status = .stopped ∧ t.cur.pc = s.cur.pc ∧
      (∀ n r, t.cur.regAt n r = s.begin.cur.regAt n r) ∧ SamePreds s t ∧
      (s.cur.sup = true → t.cur.tcause = s.cur.tcause ∧ t.cur.tepc = s.cur.tepc ∧ t.cur.tval = s.cur.tval) ∧
      SameUnits s t

/-- R12, R78, R79: HALT ends its thread once every command has left its buffer; until then it waits. -/
def HaltEndsTheThread : Prop :=
  ∀ (c : Ctl) (s : State), issues (.halt c) c s = true →
    ((s.atIssue (.halt c) c).cur.departing = [] →
      ∃ t, exec (.halt c) s = .next t ∧ t.cur.status = .halted ∧ accesses t = accesses s ∧
        (∀ n r, t.cur.regAt n r = s.begin.cur.regAt n r) ∧ SamePreds s t ∧
        { t.cur.specials with status := s.cur.status } = s.cur.specials ∧ SameUnits s t ∧ SameMemory s t) ∧
    ((s.atIssue (.halt c) c).cur.departing ≠ [] → ∃ t, exec (.halt c) s = .next t ∧ Waits s t)

/-- R78, R80: YIELD sets the issue age to 0; RMARK, in group state, commits the open region and opens the next at
pc + 4 with its counter 0; neither changes a register, a special register or memory. -/
def YieldAndMarkChangeNoValue : Prop :=
  ∀ (c : Ctl) (s : State),
    (issues (.yield c) c s = true →
      ∃ t, exec (.yield c) s = .next t ∧ OnlyRegister s t 0#5 ∧ t.cur.age = 0 ∧ accesses t = accesses s) ∧
    (issues (.rmark c) c s = true →
      ∃ t, exec (.rmark c) s = .next t ∧ OnlyRegister s t 0#5 ∧ accesses t = accesses s ∧
        t.cur.departing ++ t.cur.held = s.cur.departing ++ s.cur.held ∧
        (s.cur.sup = false → t.cur.buffered = [] ∧ t.cur.held = [] ∧ t.cur.resume = s.cur.pc + 4#64 ∧
          t.cur.reentry = 0#8))

/-- R12, R109: WFE clears in EVT the bits of s(a) that it finds there and goes on; where it finds none, it waits, and goes
on once one of them is set and the commands that its marker released have left the buffer. -/
def WaitForEventClearsTheBitsItFinds : Prop :=
  ∀ (c : Ctl) (a : BitVec 5) (s : State),
    let goesOn (m : BitVec 16) : Prop := ∃ t, exec (.wfe c a) s = .next t ∧ t.cur.evt = s.cur.evt &&& ~~~m ∧
      t.cur.pc = s.cur.pc + 4#64 ∧ (∀ n r, t.cur.regAt n r = s.begin.cur.regAt n r) ∧ SamePreds s t ∧
      { t.cur.specials with evt := s.cur.evt } = s.cur.specials ∧ SameUnits s t ∧ SameMemory s t
    (issues (.wfe c a) c s = true →
      let m := (s.begin.cur.reg a).setWidth 16
      (s.cur.evt &&& m ≠ 0#16 → goesOn m) ∧
      (s.cur.evt &&& m = 0#16 → ∃ t, exec (.wfe c a) s = .next t ∧ Waits s t)) ∧
    (s.focus.slot < 4 → s.begin.cur.waiting = true →
      let m := s.cur.latchA.setWidth 16
      (s.cur.evt &&& m ≠ 0#16 → s.cur.departing = [] → goesOn m) ∧
      (s.cur.evt &&& m = 0#16 ∨ s.cur.departing ≠ [] → ∃ t, exec (.wfe c a) s = .next t ∧ Waits s t))

/-- R81, R82: TWAIT, once its thread's commands have left their buffer, goes on where the token's state meets its
level, traps TOKFAULT with the token's cause where it does not but is FAULTED or POISON, and else waits. The cause of
a token slot that an error has poisoned is the model's choice (log entry 75). -/
def TokenWaitFollowsTheTokenState : Prop :=
  ∀ (c : Ctl) (tok : BitVec 6) (level : BitVec 2) (s : State),
    let i : Instr := .twait c tok level
    issues i c s = true → s.outsideMask tok.toNat = false → (s.atIssue i c).cur.departing = [] → s.cur.twait = none →
    let k := s.token s.focus.tile tok.toNat
    let st := if k.poisoned then TokState.poison else k.state
    (levelMet level st = true → ∃ t, exec i s = .next t ∧ OnlyRegister s t 0#5) ∧
    (levelMet level st = false → st = .faulted ∨ st = .poison → hasHandler s →
      ∃ t, exec i s = .next t ∧
        EntersHandler s t 0x09 s.cur.pc (if k.poisoned then 5#64 else k.cause.setWidth 64)
          (BitVec.ofNat 64 (256 * tok.toNat))) ∧
    (levelMet level st = false → st ≠ .faulted → st ≠ .poison →
      ∃ t, exec i s = .next t ∧ Waits s t ∧ t.cur.twait = some ⟨tok.toNat, level.toNat, none⟩)

/-- R108, R310, R421: DBAR sends the thread's arrival to the slot of its group's barrier once its accesses are visible
at the scope of the group's level, to the tile's own slot for the next cycle and on channel 4 of the network elsewhere,
and waits; it goes on once the phase has changed. What of its die's far writes its release covers is the model's
choice (log entry 12). -/
def DomainBarrierArrivesAndWaits : Prop :=
  ∀ (c : Ctl) (s : State) (g : Group), s.group? s.cur.gid = some g →
    (issues (.dbar c) c s = true → s.cur.arrived = false →
      (s.atIssue (.dbar c) c).released g.level = true →
      ∃ t, exec (.dbar c) s = .next t ∧ Waits s t ∧ t.cur.arrived = true ∧ t.cur.phaseAtWait = g.phase ∧
        (g.level = 0 → t.group? s.cur.gid = some { g with arrivals := g.arrivals ++ [s.now + 1] }) ∧
        (g.level ≠ 0 → t.groups = s.groups ∧ (s.focus.tile < 2048 →
          ∃ p : Packet, (t.tile s.focus.tile).presented = (s.tile s.focus.tile).presented ++ [p] ∧ p.vc = 4 ∧
            p.payload = .arrival g.gid s.focus.tile s.focus.slot))) ∧
    (issues (.dbar c) c s = true → s.cur.arrived = false →
      (s.atIssue (.dbar c) c).released g.level = false →
      ∃ t, exec (.dbar c) s = .next t ∧ Waits s t ∧ t.cur.arrived = false ∧ t.groups = s.groups) ∧
    (s.focus.slot < 4 → s.cur.waiting = true → s.cur.arrived = true → g.phase ≠ s.cur.phaseAtWait →
      ∃ t, exec (.dbar c) s = .next t ∧ OnlyRegister s t 0#5 ∧ t.cur.waiting = false ∧ t.groups = s.groups) ∧
    (s.focus.slot < 4 → s.cur.waiting = true → s.cur.arrived = true → g.phase = s.cur.phaseAtWait →
      ∃ t, exec (.dbar c) s = .next t ∧ Waits s t ∧ t.groups = s.groups)

/-- R310, R421: an arrival that has reached a group's barrier counts; that of the last of its participants takes the
count to 0 and sends the release, which turns the phase after the cycles of its level. No other group, no thread and no
byte of memory changes. -/
def BarrierArrivalsTurnThePhase : Prop :=
  ∀ (gid : Nat) (g : Group) (s : State), s.group? gid = some g →
    (∀ a, (g.arrivals.find? fun a => decide (a ≤ s.now)) = some a →
      ∃ t h, exec (.barrierArrival gid) s = .next t ∧ t.group? gid = some h ∧ h.arrivals = g.arrivals.erase a ∧
        h.phase = g.phase ∧
        (g.barrier + 1 = g.slots.length → h.barrier = 0 ∧
          h.release = some (s.now + if g.level = 0 then 1 else if g.level = 1 then 3 else if g.level = 2 then 8 else
            if g.level = 3 then 15 else 24)) ∧
        (g.barrier + 1 ≠ g.slots.length → h.barrier = g.barrier + 1 ∧ h.release = g.release) ∧
        (∀ n, n ≠ gid → t.group? n = s.group? n) ∧ t.tiles = s.tiles ∧ t.mem = s.mem ∧ t.poison = s.poison) ∧
    (∀ n, g.release = some n → (g.released n).phase = (!g.phase) ∧ (g.released n).release = none) ∧
    ∀ n, g.release ≠ some n → g.released n = g

/-- R61, R62, R243: the divider writes its quotient or remainder to its register when it is due, posts DZ with it where
the divisor was 0, and is free; where the slot no longer holds a thread of the group that asked, it only is free. -/
def DividerWritesItsResult : Prop :=
  ∀ (tile : Nat) (v : Division) (s : State),
    tile < 2048 → v.slot < 4 → (s.tile tile).divider = some v → v.due ≤ s.now →
    ∃ t, exec (.dividerResult tile) s = .next t ∧ (t.tile tile).divider = none ∧
      ((s.thread tile v.slot).gid = v.gid →
        (t.thread tile v.slot).reg v.dst = (if v.dst = 0#5 then 0#64 else v.value) ∧
        (t.thread tile v.slot).flags = (s.thread tile v.slot).flags ||| (if v.dz then 0x02#8 else 0#8) ∧
        (∀ r, r ≠ v.dst → (t.thread tile v.slot).reg r = ((s.thread tile v.slot).settle s.now).reg r) ∧
        ∀ o ∈ (t.thread tile v.slot).outstanding, o.src ≠ .division) ∧
      ((s.thread tile v.slot).gid ≠ v.gid → t.thread tile v.slot = s.thread tile v.slot) ∧
      (t.thread tile v.slot).pc = (s.thread tile v.slot).pc ∧
      (∀ p q, ¬(p = tile ∧ q = v.slot) → t.thread p q = s.thread p q) ∧
      (∀ p, p ≠ tile → t.tile p = s.tile p) ∧ SameMemory s t

/-- R165, R201, R225: ROPEN at the head of an image with no instance opens one: the snapshot of every TE of the image
is what the TE held before ROPEN's own updates. While an instance stands it only holds its TE; in an image
without a domain it does no more than its dequeues. -/
def RegionOpenTakesASnapshot : Prop :=
  ∀ (t : Trig) (f : Comp) (s : State) (sh : Shape) (m : Image),
    fires .region t f s sh → s.imageOf s.focusTe = some m →
    (m.head.isSome = true → m.active = false →
      ∃ u n, exec (.ropen t f) s = .next u ∧ u.image? m.id = some n ∧ n.state = .opened ∧ n.ordered = m.ordered ∧
        n.reentry = m.reentry ∧ n.snapshots = (m.tes.map fun p => (p, (s.teAt p).snapshot)) ∧
        n.heldTokens = [] ∧ (u.teAt s.focusTe).holding = none ∧ SameMemory s u) ∧
    (m.head.isSome = true → m.active = true →
      ∃ u, exec (.ropen t f) s = .next u ∧ (u.teAt s.focusTe).holding = some s.focus.teSlot ∧ u.images = s.images ∧
        (u.teAt s.focusTe).queues = (s.teAt s.focusTe).queues ∧
        (u.teAt s.focusTe).snapshot = (s.teAt s.focusTe).snapshot ∧ SameMemory s u) ∧
    (m.head = none → ∃ u, exec (.ropen t f) s = .next u ∧ u.images = s.images ∧ SameMemory s u)

/-- R165, R228, R231, R233: RCLOSE closes the instance of its image; RABORT discards it: the counter rises, the
domain is idle and re-enters in ordered mode, or stops at its limit, or where an error has poisoned a snapshot that the
discard restores (R234). Without an instance neither does more than its dequeues, and once the instance's commit has
begun RABORT discards nothing (R208). That RABORT discards an instance that is closed as well, and the stop for a
poisoned snapshot, are the model's choice (log entries 80 and 38). -/
def RegionCloseAndAbortEndTheInstance : Prop :=
  ∀ (t : Trig) (f : Comp) (s : State) (sh : Shape) (m : Image),
    fires .region t f s sh → s.imageOf s.focusTe = some m →
    (m.active = true →
      ∃ u n, exec (.rclose t f) s = .next u ∧ u.image? m.id = some n ∧ n.state = .closed ∧ n.reentry = m.reentry ∧
        n.ordered = m.ordered ∧ n.snapshots = m.snapshots ∧ SameMemory s u) ∧
    (m.discards = true → m.reentry.toNat + 1 < m.reentrymax.toNat →
      ∃ u n, exec (.rabort t f) s = .next u ∧ u.image? m.id = some n ∧ n.ordered = true ∧
        n.reentry = m.reentry + 1#8 ∧ n.snapshots = [] ∧ n.heldTokens = [] ∧
        (m.snapPoison = [] → n.state = .idle ∧ SameMemory s u) ∧
        (m.snapPoison ≠ [] → n.state = .stopped ∧ n.started = false)) ∧
    (m.discards = true → m.reentry.toNat + 1 = m.reentrymax.toNat →
      ∃ u n, exec (.rabort t f) s = .next u ∧ u.image? m.id = some n ∧ n.state = .stopped ∧ n.started = false) ∧
    (m.active = true → m.committing = true → m.discarded ≠ some s.now →
      ∃ u, exec (.rabort t f) s = .next u ∧ u.images = s.images ∧ SameMemory s u) ∧
    (m.active = false →
      (∃ u, exec (.rclose t f) s = .next u ∧ u.images = s.images ∧ SameMemory s u) ∧
      ∃ u, exec (.rabort t f) s = .next u ∧ u.images = s.images ∧ SameMemory s u)

/-- R47, R220, R361: a command word without a reply that passes its checks enters its thread's command buffer as the
youngest, held by the open region in group state and committed in supervisor state; a PFLOW takes the accumulator
tiles that it names. Nothing else changes. With all 16 entries of the buffer held it waits, the commands of its region
committed. -/
def CommandsEnterTheirBuffer : Prop :=
  ∀ (i : Instr) (c : Ctl) (func : BitVec 7) (a b : BitVec 5) (s : State), CommandWord i c func a b →
    issues i c s = true → s.begin.cur.bufferFull = false →
    let x := s.begin.cur.reg a
    let y := s.begin.cur.reg b
    (s.atIssue i c).commandTrap func x y = none →
    (16 ≤ (s.atIssue i c).cur.held.length + (s.atIssue i c).cur.departing.length →
      ∃ t, exec i s = .next t ∧ Waits s t ∧ t.cur.departing ++ t.cur.held = s.cur.departing ++ s.cur.held) ∧
    ((s.atIssue i c).cur.held.length + (s.atIssue i c).cur.departing.length < 16 →
    ∃ t q new, exec i s = .next t ∧ q.func = func ∧ q.a = x ∧ q.b = y ∧ q.slot = s.focus.slot ∧ q.gid = s.cur.gid ∧
      q.reply = none ∧ q.stage = .waiting ∧ q.armed = false ∧
      (s.cur.sup = false → t.cur.departing ++ t.cur.held = s.cur.departing ++ s.cur.held ++ [q]) ∧
      (s.cur.sup = true → t.cur.departing = s.cur.departing ++ [q]) ∧
      (t.ctx s.focus.tile).pool.owners = (s.ctx s.focus.tile).pool.owners ++ new ∧
      (∀ o ∈ new, o.flow = q.id) ∧
      (∀ k, (∃ o ∈ new, o.acct = k) ↔ (func = 0x05#7 ∧ k < 32 ∧ x.getLsbD k = true)) ∧
      t.cur.pc = s.cur.pc + 4#64 ∧ (∀ n r, t.cur.regAt n r = s.begin.cur.regAt n r) ∧ SamePreds s t ∧
      SameSpecials s t ∧ SameButOwners s t)

/-- R47, R219, R220, R275: a command word with a reply that passes its checks is sent once the thread's earlier
commands have left the buffer; its reply is outstanding in d, and the token it produces is PENDING. Until then it
holds its thread. -/
def CommandsWithReplyAwaitIt : Prop :=
  ∀ (i : Instr) (c : Ctl) (func : BitVec 7) (d a b : BitVec 5) (s : State), ReplyWord i c func d a b →
    issues i c s = true →
    let x := s.begin.cur.reg a
    let y := s.begin.cur.reg b
    (s.atIssue i c).commandTrap func x y = none →
    ((s.atIssue i c).cur.departing = [] →
      ∃ t q o, exec i s = .next t ∧ q ∈ (t.ctx s.focus.tile).cmds ∧ q.func = func ∧ q.a = x ∧ q.b = y ∧
        q.slot = s.focus.slot ∧ q.gid = s.cur.gid ∧ q.reply = some d ∧ q.stage = .waiting ∧
        t.cur.outstanding = s.cur.outstanding ++ [o] ∧ o.dst = d ∧ o.src = .reply q.id ∧
        TokenTurns s t s.focus.tile q .pending ∧ t.cur.pc = s.cur.pc + 4#64 ∧
        (∀ n r, t.cur.regAt n r = s.begin.cur.regAt n r) ∧ SamePreds s t ∧ SameSpecials s t ∧
        (∀ p, t.teAt p = s.teAt p) ∧ SameMemory s t) ∧
    ((s.atIssue i c).cur.departing ≠ [] → ∃ t, exec i s = .next t ∧ Waits s t)

/-- R279: the supervisor releases a frozen command, which runs on from the element that stopped it, its token no
longer frozen; or terminates it, which ends its token FAULTED with the cause of the fault, once what it has written to
another die or the host is visible at its SCOPE (R317; log entry 12). Stated for commands that start no stream. -/
def FrozenCommandsAreReleasedOrTerminated : Prop :=
  ∀ (tile : Nat) (c : Cmd) (cause : BitVec 6) (addr : Word) (s : State), Stands s tile c → c.func ≠ 0x13#7 →
    c.stage = .frozen cause addr →
    (∃ t, exec (.releaseFrozenCommand tile c.id) s = .next t ∧
      t.cmd? tile c.id = some { c with stage := .running } ∧
      (∀ k, produced c.b = some k → (t.token tile k).frozen = false ∧
        (t.token tile k).state = (s.token tile k).state) ∧ SameMemory s t) ∧
    (s.lags tile c.id = false →
      ∃ t, exec (.terminateFrozenCommand tile c.id) s = .next t ∧ Ended s t tile c .faulted ∧
        (∀ k, produced c.b = some k → (t.token tile k).cause = cause) ∧ SameMemory s t) ∧
    (s.lags tile c.id = true →
      ∃ t, exec (.terminateFrozenCommand tile c.id) s = .next t ∧
        t.cmd? tile c.id = some { c with stage := .ending .faulted cause } ∧ SameMemory s t)

/-- R379, R289, R294, R295, R335: a PZERO at work writes 0 into every accumulator of the tiles that TILES names, and into
no other; a CPY at work on its last byte writes it where DST and the descriptor say: its tile reads it there, and every
other byte reads as before. It ends VISIBLE with it, but where one of its writes to another die or to the host is not
yet visible at its SCOPE, and then once none is. A byte for the own die's stack whose command has earlier bytes on their
way to another die's goes behind those. Until the request of the byte has arrived and its bank is its own, nothing
moves. That far writes are on their way for a free number of cycles, and that the tiles of the die read them from when
they leave it, is the model's choice (log entry 12), and so is when a request is made and what it books (log entries 65
and 67). -/
def EnginesCompleteTheirWork : Prop :=
  ∀ (tile : Nat) (c : Cmd) (s : State), Runs s tile c →
    let e : Instr := .engineCommandComplete tile c.id
    (c.func = 0x07#7 →
      ∃ t, exec e s = .next t ∧ Ended s t tile c .visible ∧
        (∀ i, (t.ctx tile).pool.acc.get 0#32 i =
          if c.a.getLsbD (i / 64) then 0#32 else (s.ctx tile).pool.acc.get 0#32 i) ∧
        (∀ p, p ≠ tile → t.ctx p = s.ctx p) ∧ SameMemory s t) ∧
    (c.func = 0x21#7 → s.throttled (dieOf tile) = false →
      (c.pos = c.elems → s.lags tile c.id = false →
        ∃ t, exec e s = .next t ∧ Ended s t tile c .visible ∧ SameMemory s t) ∧
      (c.chunk ≠ [] → c.pos ≠ c.elems → c.ask = .onWay ∨ (∃ n, c.ask = .booked n ∧ s.now < n) → exec e s = .next s) ∧
      (s.mem.wf = true → ∀ v place s1 n, c.chunk = [v] → c.readDone = true → c.pos + 1 = c.elems →
        c.ask = .booked n → n ≤ s.now →
        let a := c.dstAddr c.pos
        s.copyElement tile c.gid c.dspace a 1 needStore = .ok (place, s1) →
        let l := s.locOf (copyTile tile c.dspace a) c.gid c.dspace place
        let far := farPlace tile c.dspace place = true
        let late := far ∧ (if c.dspace = .h then 6 else 4) < c.mode 9 7
        let behind := ¬far ∧ c.dspace = .g ∧ ∃ w ∈ s.pkg.far, w.tile = tile ∧ w.maker = .command c.id c.left c.slot ∧
          w.space = .g
        (¬behind → ∃ t, exec e s = .next t ∧
          t.byteAt (copyTile tile c.dspace a) c.gid c.dspace place = v.setWidth 8 ∧
          (∀ x, x ≠ l → t.mem.read x = s.mem.read x ∧ t.seenByte tile x = s.seenByte tile x) ∧ t.poison = s.poison ∧
          (¬late → s.lags tile c.id = false → Ended s t tile c .visible) ∧
          (late ∨ s.lags tile c.id = true →
            ∃ x, t.cmd? tile c.id = some x ∧ x.pos = c.elems ∧ x.stage = .ending .visible 0#6)) ∧
        (behind → ∃ t w, exec e s = .next t ∧ SameMemory s t ∧ t.pkg.far = s.pkg.far ++ [w] ∧
          w.maker = .command c.id c.left c.slot ∧ w.place = place ∧ w.cells.map (·.2) = [v.setWidth 8] ∧
          (∀ x ∈ s.pkg.far, x.tile = tile → x.maker = w.maker → x.due ≤ w.due) ∧
          ∃ x, t.cmd? tile c.id = some x ∧ x.pos = c.elems ∧ x.stage = .ending .visible 0#6)))

/-- R355, R359, R373, R320: the wavefront of a PMODE puts its mode word in force, and that of a PMAP its map entries, in
their order; accumulators and held entries stand. Over a joined pool that spans dies, whose leader's die has lost the
way to another of them, it ends the command FAULTED with cause LINK: that it needs those ways is the model's choice (log
entry 97). -/
def WavefrontsConfigureThePool : Prop :=
  ∀ (tile : Nat) (c : Cmd) (s : State), Runs s tile c → s.runningHead tile .config = some c →
    (s.ctx tile).pool.armed = none →
    (s.spanLost tile (s.ctx tile).pool.joined = true → s.lags tile c.id = false →
      ∃ t, exec (.configWavefront tile) s = .next t ∧ Ended s t tile c .faulted ∧
        (∀ k, produced c.b = some k → (t.token tile k).cause = 0x13#6) ∧
        (t.ctx tile).pool.mode = (s.ctx tile).pool.mode ∧ (t.ctx tile).pool.beds = (s.ctx tile).pool.beds ∧
        (t.ctx tile).pool.map = (s.ctx tile).pool.map ∧ (t.ctx tile).pool.held = (s.ctx tile).pool.held ∧
        (t.ctx tile).pool.acc = (s.ctx tile).pool.acc ∧ SameMemory s t) ∧
    (s.spanLost tile (s.ctx tile).pool.joined = false →
    (c.func = 0x00#7 → bits c.a 47 44 = (s.ctx tile).pool.joined →
      ∃ t, exec (.configWavefront tile) s = .next t ∧ Ended s t tile c .visible ∧ (t.ctx tile).pool.mode = c.a ∧
        (t.ctx tile).pool.beds = (s.ctx tile).pool.beds ∧ (t.ctx tile).pool.map = (s.ctx tile).pool.map ∧
        (t.ctx tile).pool.held = (s.ctx tile).pool.held ∧ (t.ctx tile).pool.acc = (s.ctx tile).pool.acc ∧
        SameMemory s t) ∧
    (c.func = 0x03#7 → (∀ x ∈ c.list, x / 1024 % 32 = 0) →
      let k := bits c.b 10 0
      let p := tile + c.aux
      ∃ t, exec (.configWavefront tile) s = .next t ∧ Ended s t tile c .visible ∧
        (∀ i x, c.list[i]? = some x → (t.ctx p).pool.map.get 0#16 (k + i) = BitVec.ofNat 16 x) ∧
        (∀ i, i < k ∨ k + c.list.length ≤ i → (t.ctx p).pool.map.get 0#16 i = (s.ctx p).pool.map.get 0#16 i) ∧
        (t.ctx tile).pool.mode = (s.ctx tile).pool.mode ∧ (t.ctx tile).pool.held = (s.ctx tile).pool.held ∧
        (t.ctx tile).pool.acc = (s.ctx tile).pool.acc ∧ SameMemory s t))

/-- R366 to R369: a pass of a PFLOW adds the sum of each bed that takes part into the accumulator ACC + (floor(p / HOLD)
mod ACCN); the accumulators that no such bed names stand. Stated with the sum for a pass of one bed. After the last
pass the PFLOW is VISIBLE. Stated for a pool whose leader's die reaches every die of the pool (log entry 97). -/
def PassesAccumulate : Prop :=
  ∀ (tile : Nat) (c : Cmd) (s : State), Runs s tile c → s.runningHead tile .flow = some c → c.func = 0x05#7 →
    let p := (s.ctx tile).pool
    let need := (c.b.toNat % 1024 + 1) * (if [3, 4, 6].contains (bits p.mode 59 56) then 2 else 1)
    let named := p.beds.filter fun w => c.a.getLsbD (bedTarget w c.pos / 64)
    need ≤ p.flowPort.length → s.passPoisoned tile c = false → s.throttled (dieOf tile) = false →
    s.spanLost tile p.joined = false →
    ∃ t, exec (.poolPass tile) s = .next t ∧
      (∀ j, (∀ w ∈ named, bedTarget w c.pos ≠ j) → (t.ctx tile).pool.acc.get 0#32 j = p.acc.get 0#32 j) ∧
      (∀ w, named = [w] →
        let r := bedRange p.joined w
        (t.ctx tile).pool.acc.get 0#32 (bedTarget w c.pos) =
          BitVec.ofNat 32 (treeAdd p.mode ((p.acc.get 0#32 (bedTarget w c.pos)).toNat, flagNone)
            (bedSum p.mode (s.cellLeaf tile p.mode (p.flowPort.take need).toArray (c.b.toNat % 1024 + 1)
              (c.pos % bedHold w)) r.1 r.2)).1) ∧
      (c.pos + 1 = bits c.a 63 32 → Ended s t tile c .visible) ∧
      (c.pos + 1 ≠ bits c.a 63 32 → ∃ q ∈ (t.ctx tile).cmds, q.id = c.id ∧ q.pos = c.pos + 1) ∧
      (t.ctx tile).pool.flowPort = p.flowPort.drop need ∧ (t.ctx tile).pool.mode = p.mode ∧
      (t.ctx tile).pool.beds = p.beds ∧ (t.ctx tile).pool.map = p.map ∧ (t.ctx tile).pool.held = p.held ∧ SameMemory s t

/-- R385, R386: a running stream delivers its next elements to a column as one token of in.m of TE (c, 0), with the
tag of the stream's format and the user tag 2, while the TE has one of its 4 stream slots free. -/
def StreamsDeliverToColumns : Prop :=
  ∀ (tile i : Nat) (u : Sub) (s : State) (start size o : Nat), tile < 2048 → i < 8 →
    let st := s.stream tile i
    let p : TeId := (tile, u.sub, 0)
    let m := Nat.min (tokenShape st.fmt).2 (size - o % size)
    let es := (List.range m).filterMap fun j => st.elem? (start + o % size + j)
    st.running = true → st.frozen = none → (s.tile tile).stopped = false → st.subs = [u] → u.sub < 20 →
    u.place st.total = some (start, size, o) → st.total ≤ st.fetched → es.length = m →
    (s.teAt p).streamTokens < 4 → (s.teAt p).usedSlots 4 < 8 →
    ∃ t x, exec (.streamElementDelivery tile i) s = .next t ∧
      (t.teAt p).queue 4 = (s.teAt p).queue 4 ++ [x] ∧ x.data = BitVec.ofNat 32 (packElems (poolSize st.fmt) es) ∧
      x.fmt = (tokenShape st.fmt).1 ∧ x.utag = 2#2 ∧ x.stream = true ∧
      (t.stream tile i).subs = [{ u with taken := u.taken + m }] ∧
      (∀ q, OtherTe p q → t.teAt q = s.teAt q) ∧ SameMemory s t

/-- R13, R85: the takeover of a TE by an FLOAD puts the slots, the router word and the W words of its record in place,
clears P, X and LAP and the input queues, and leaves the TE stopped; after the last TE of the image the token is
VISIBLE. While the image that holds the TE commits an instance, the takeover waits: DEDUCED from R229 (log entry
87). -/
def TakeoverConfiguresTheTe : Prop :=
  ∀ (tile : Nat) (c : Cmd) (h : ImageHeader) (rs : List TeRecord) (r : Rect) (x : TeRecord) (s : State),
    Stands s tile c → c.func = 0x30#7 → c.stage = .running → c.upstream = false →
    parseImage (c.list.map (BitVec.ofNat 8)) c.colOff c.rowOff = .ok (h, rs) → s.rect? c.gid tile = some r →
    rs[c.pos]? = some x → x.words.length ≤ 8192 →
    let p := r.te x.col x.row
    ((∃ m, s.imageOf p = some m ∧ m.committing = true) → exec (.floadTakeover tile c.id) s = .next s) ∧
    ((∀ m, s.imageOf p = some m → m.committing = false) →
    ∃ t, exec (.floadTakeover tile c.id) s = .next t ∧
      (t.teAt p).slots = x.slots ∧ (t.teAt p).router = x.router ∧ (t.teAt p).p = 0#16 ∧
      (t.teAt p).x = Vector.replicate 8 0#16 ∧ (t.teAt p).lap = 0#8 ∧ (∀ k, k < 6 → (t.teAt p).queue k = []) ∧
      (t.teAt p).started = false ∧ (t.teAt p).image ≠ none ∧
      (∀ j v, x.words[j]? = some v → j < s.wSize p.1 → t.readW p j = v) ∧
      (c.pos + 1 = rs.length → Ended s t tile c .visible) ∧
      (c.pos + 1 < rs.length → ∃ q ∈ (t.ctx tile).cmds, q.id = c.id ∧ q.pos = c.pos + 1))

/-- R149, R161: the reply of a column unit to the request whose turn it is enters in.f of the requesting TE: the value
of R149 of its operand, with its flags, tagged FP32 with the request's user tag; the slot that the firing reserved is
reserved no longer. -/
def ColumnUnitsReply : Prop :=
  ∀ (tile col row : Nat) (q : ColReq) (s : State), tile < 2048 → col < 20 → row < 10 →
    let reqs := vget (s.ctx tile).colReqs col []
    nextRow reqs (vget (s.ctx tile).lastRow col 9) = some row → (reqs.find? fun x => x.row == row) = some q →
    let p : TeId := (tile, col, row)
    ∃ t x, exec (.columnUnitReply tile col) s = .next t ∧ (t.teAt p).queue 5 = (s.teAt p).queue 5 ++ [x] ∧
      x.data = (columnReply q.func (ftzOf s tile) q.operand).1 ∧
      x.flags = (columnReply q.func (ftzOf s tile) q.operand).2 ∧ x.fmt = 0#3 ∧ x.utag = q.utag ∧
      (t.teAt p).reservedF = (s.teAt p).reservedF - 1 ∧ (∀ k, k < 5 → (t.teAt p).queue k = (s.teAt p).queue k) ∧
      vget (t.ctx tile).colReqs col [] = dropFirst row reqs ∧ vget (t.ctx tile).lastRow col 9 = row ∧ OnlyTe s t p

/-- R15, R51, R177, R273: the collector delivers the control token that is due and whose turn it is: its bit is set in
EVT and its flags are ORed into FLAGS of its thread, and its TE has its slot back; one for a thread of another tile sets
out on channel 4. A token of a thread that has halted reaches none. -/
def ControlTokensReachTheirThread : Prop :=
  ∀ (tile k : Nat) (x : CtlToken) (s : State), tile < 2048 → (s.tile tile).stopped = false →
    let due := (s.ctx tile).collector.filter fun y => decide (y.due ≤ s.now)
    nextServed due (s.ctx tile).lastServed = some k →
    (due.find? fun y => teKey y.col y.row == k) = some x → x.slot < 4 →
    let th := s.thread x.tile x.slot
    ∃ t, exec (.controlTokenDelivery tile) s = .next t ∧
      (x.tile = tile → th.status = .running ∨ th.status = .stopped → th.gid = x.gid →
        (t.thread x.tile x.slot).evt = th.evt ||| (1#16 <<< x.bit.toNat) ∧
        (t.thread x.tile x.slot).flags = th.flags ||| x.flags ∧
        (∀ r, (t.thread x.tile x.slot).reg r = th.reg r) ∧ SameMemory s t) ∧
      (x.tile ≠ tile → t.thread x.tile x.slot = th ∧ SameMemory s t ∧
        ∃ p : Packet, (t.tile tile).presented = (s.tile tile).presented ++ [p] ∧ p.vc = 4 ∧
          p.payload = .token { x with source := tile }) ∧
      (¬((th.status = .running ∨ th.status = .stopped) ∧ th.gid = x.gid) → t.thread x.tile x.slot = th) ∧
      (∀ p q, ¬(p = x.tile ∧ q = x.slot) → t.thread p q = s.thread p q) ∧
      (t.ctx tile).collector = dropToken k (s.ctx tile).collector ∧
      (t.te tile x.col x.row).ctlTokens = (s.te tile x.col x.row).ctlTokens - 1

/-- R189, R190, R191: an audit, like a count whose parity fails, stops its sender from pushing; the report puts the
receiver's true free count in the sender's place, and the sender pushes again; a lost return leaves the count one
short. -/
def LinkAuditsRestoreTheCount : Prop :=
  ∀ (l : LinkAt) (s : State), l.tile < 2048 → l.col < 20 → l.row < 10 →
    let p := linkTe l
    let d := dirOf l.dir
    ((s.finalOf maxHops p d 0).isSome = true → (∀ j, j < 4 → (s.teAt p).route j ≠ d + 1) →
      ∃ t, exec (.linkAudit l) s = .next t ∧ (∀ carry, t.freeOut p d carry = 0) ∧
        vget (t.teAt p).credit d 0 = vget (s.teAt p).credit d 0 ∧ OnlyTe s t p) ∧
    (vget (s.teAt p).auditing d none ≠ none →
      ∃ t, exec (.auditReport l) s = .next t ∧ vget (t.teAt p).credit d 0 = s.trueFree p d ∧
        vget (t.teAt p).auditing d none = none ∧ vget (t.teAt p).creditBad d false = false ∧
        ∀ n k, t.thread n k = s.thread n k) ∧
    (∃ t, exec (.linkParityFailure l .countParity) s = .next t ∧ (∀ carry, t.freeOut p d carry = 0) ∧
      OnlyTe s t p) ∧
    (∃ t, exec (.linkParityFailure l .returnLost) s = .next t ∧
      vget (t.teAt p).credit d 0 = vget (s.teAt p).credit d 0 - 1 ∧ OnlyTe s t p) ∧
    ∀ n, ∃ t, exec (.linkParityFailure l (.silentCount n)) s = .next t ∧ vget (t.teAt p).credit d 0 = n ∧ OnlyTe s t p

/-- R191, R229, R232, R233: after the audit that follows a dropped token the receiving instance is discarded, and counts;
with no instance open the TEs of the image stop, unless a cause of this cycle has discarded one, which the drop then
joins. A stop that comes while a commit is under way is kept until that is complete, and in the cycle in which a takeover
ended the domain nothing of the image changes. -/
def DroppedTokensDiscardTheInstance : Prop :=
  ∀ (tile col row : Nat) (d : LinkDir) (m : Image) (s : State), tile < 2048 → col < 20 → row < 10 →
    let p : TeId := (tile, col, row)
    vget (s.teAt p).audited (dirOf d) false = true → s.imageOf p = some m →
    ∃ t, exec (.queueOverflow tile col row d) s = .next t ∧ vget (t.teAt p).audited (dirOf d) false = false ∧
      (m.endedAt = some s.now → t.images = s.images) ∧
      (m.endedAt ≠ some s.now →
        (m.discards = true → ∃ m', t.image? m.id = some m' ∧ m'.active = false ∧ m'.reentry = m.reentry + 1#8) ∧
        (m.discards = false → m.discarded = some s.now → ∃ m', t.image? m.id = some m' ∧ m'.reentry = m.reentry) ∧
        (m.discards = false → m.discarded ≠ some s.now →
          (m.committing = false → ∀ q ∈ m.tes, (t.teAt q).started = false) ∧
          (m.committing = true → t.image? m.id = some { m with stopAfter := true } ∧
            ∀ q, (t.teAt q).started = (s.teAt q).started)))

/-- R198, R199, R169: an access whose home grants it leaves out.m and waits in the home as the youngest of its
entries; a store, an atomic without a result and CSKIP are answered with their completion token at once. One that the
home withholds stays where it is. -/
def HomesAcceptChainAccesses : Prop :=
  ∀ (p : TeId) (m : Image) (r : ChainReq) (k : ChainCtx) (s : State), Offers s p m r k →
    let h := s.homeOf m
    let e : Instr := .chainAccessAccept p.1 p.2.1 p.2.2
    (h.withholds m k r = true → ∃ t, exec e s = .next t ∧ t.homeOf m = h ∧ t.teAt p = s.teAt p ∧ SameMemory s t) ∧
    (h.withholds m k r = false → (r.inRegion = true → k.closed = false ∧ h.writesOf m.id < 192) →
      (isLdc r.op = true → m.state = .opened → m.ordered = true) →
      ∀ place, (r.op = .cskip ∧ place = 0) ∨ (r.op ≠ .cskip ∧ ∃ s1,
        s.chainPlace m p r = .ok (place, s1) ∧ s1.wayLost p.1 (chainSpace r.op) place = false) →
      ∃ t x, exec e s = .next t ∧ (t.homeOf m).entries = h.entries ++ [x] ∧ x.img = m.id ∧ x.req = r ∧ x.te = p ∧
        x.loc = place ∧ x.state = .wait ∧ x.value = none ∧ (t.teAt p).outM = (s.teAt p).outM.tail ∧
        (isLdc r.op = false → r.returning = false → ∃ y, Answers s t m p y ∧ y.data = 0#32 ∧ y.fmt = 7#3 ∧
          y.utag = 1#2) ∧
        (isLdc r.op = true ∨ r.returning = true → (t.teAt p).queue 4 = (s.teAt p).queue 4) ∧ SameMemory s t)

/-- R195, R200, R210: the release of the access that a chain wants next moves the chain on; a store of an instance is
held in its release order, and one outside an instance, whose way is not lost, is performed, or, to another die, on its
way there, where its tile reads its bytes already (log entry 12). One outside an instance waits for its bank first, and
the chain with it. -/
def ChainsReleaseInOrder : Prop :=
  ∀ (level unit ctx : Nat) (k : ChainCtx) (x : Entry) (m : Image) (s : State),
    let h := s.homeAt level unit
    h.ctxs[ctx]? = some k → h.next k = some x → m.id = k.img → LivesAt s m level unit → isStc x.req.op = true →
    x.req.returning = false → (s.tile m.leader).stopped = false →
    let e : Instr := .chainRelease level unit ctx
    (x.req.inRegion = false → (s.chainTurn m x).1 = false →
      ∃ t, exec e s = .next t ∧ (t.homeAt level unit).ctxs = h.ctxs ∧
        (t.homeAt level unit).entries.map (·.id) = h.entries.map (·.id) ∧ SameMemory s t) ∧
    (x.req.inRegion = true ∨ (s.chainTurn m x).1 = true →
    ∃ t k', exec e s = .next t ∧ k' ∈ (t.homeAt level unit).ctxs ∧ k'.img = k.img ∧ k'.chain = k.chain ∧
      (x.req.beat + 1 = x.req.beats → x.req.succ = 0#8 → k'.lap = k.lap + 1#8 ∧ k'.pos = none) ∧
      (x.req.beat + 1 ≠ x.req.beats ∨ x.req.succ ≠ 0#8 → k'.lap = k.lap ∧
        k'.pos = some ⟨x.req.firing, x.req.beat, x.req.beats, x.req.own, x.req.succ⟩) ∧
      (x.req.inRegion = true → (∃ y ∈ (t.homeAt level unit).entries, y.id = x.id ∧ y.state = .held h.nextOrder) ∧
        (t.homeAt level unit).nextOrder = h.nextOrder + 1 ∧ SameMemory s t) ∧
      (x.req.inRegion = false → s.mem.wf = true →
        s.placePoisoned x.te.1 m.gid (chainSpace x.req.op) x.loc = false →
        s.wayLost x.te.1 (chainSpace x.req.op) x.loc = false → x.req.size ≤ 2 →
        (∀ y ∈ (t.homeAt level unit).entries, y.id ≠ x.id) ∧
        t.loadBytes x.te.1 m.gid (chainSpace x.req.op) x.loc x.req.bytes = leBytes x.req.bytes x.req.data.toNat ∧
        ∀ a, a ∉ locations s x.te.1 m.gid (chainSpace x.req.op) x.loc x.req.bytes → t.mem.read a = s.mem.read a))

/-- R169, R199: the reply of a chain load that its bank has served answers with its value, tagged INT32 with the user
tag 0. -/
def ChainLoadsReply : Prop :=
  ∀ (level unit id : Nat) (x : Entry) (v : W32) (m : Image) (s : State),
    let h := s.homeAt level unit
    (h.entries.find? fun x => x.id == id && isLdc x.req.op && !x.replied && decide (x.due ≤ s.now)) = some x →
    x.value = some v → m.id = x.img → LivesAt s m level unit →
    ∃ t y, exec (.chainLoadReply level unit id) s = .next t ∧ Answers s t m x.te y ∧ y.data = v ∧ y.fmt = 7#3 ∧
      y.utag = 0#2 ∧ (∀ z ∈ (t.homeAt level unit).entries, z.id = id → z.replied = true) ∧
      (∀ q, OtherTe x.te q → t.teAt q = s.teAt q) ∧ SameMemory s t

/-- R211: an instance whose access has waited 512 cycles for a grant with no shared entry free is discarded, counts,
and re-enters in ordered mode. -/
def ChainOverflowDiscardsTheInstance : Prop :=
  ∀ (level unit since : Nat) (m : Image) (s : State), LivesAt s m level unit → m.blockedSince = some since →
    since + 512 ≤ s.now → m.discards = true →
    ∃ t m', exec (.chainOverflow level unit m.id) s = .next t ∧ t.image? m.id = some m' ∧ m'.ordered = true ∧
      m'.active = false ∧ m'.reentry = m.reentry + 1#8 ∧
      ∀ x ∈ (t.homeOf m).entries, x.img = m.id → x.req.inRegion = false

/-- R208, R215, R229, R233: the commit of a closed instance performs the accesses that its home holds, each once its bank
is its own; when none is held or on its way to another die any more it hands the control tokens of the instance to their
collectors and the old values of its returning atomics to their TEs, its domain is idle, in speculative mode and with its
counter 0, and a stop that came meanwhile takes effect. Stated with the bytes for an instance of one held store. That an
access to another die is on its way for a free number of cycles is the model's choice (log entry 12). -/
def CommitsPerformWhatIsHeld : Prop :=
  ∀ (m : Image) (s : State), s.liveImage? m.id = some m → s.commitReady m = true →
    let held := s.heldChains m
    let begun (t : State) : Prop := ∃ n, t.image? m.id = some n ∧ n.committing = true ∧ n.state = .closed ∧
      n.heldTokens = m.heldTokens
    (held = [] → s.farChain m.id = true →
      exec (.instanceCommit m.id) s = .next (s.modImage m.id fun x => { x with committing := true })) ∧
    (held = [] → s.farChain m.id = false → ∃ t, exec (.instanceCommit m.id) s = .next t ∧ Committed s t m ∧
      (m.home = 0 → ∀ q v, (q, v) ∈ m.heldAnswers → q.1 < 2048 → q.2.1 < 20 → q.2.2 < 10 →
        ∃ y ∈ (t.teAt q).queue 4, y.data = v ∧ y.fmt = 7#3 ∧ y.utag = 0#2) ∧ SameMemory s t) ∧
    (∀ x, held = [[x]] → s.farChain m.id = false → isStc x.req.op = true → x.req.size ≤ 2 → s.mem.wf = true →
      ((s.chainTurn m x).1 = false → ∃ t, exec (.instanceCommit m.id) s = .next t ∧ begun t ∧
        (∃ y ∈ (t.homeOf m).entries, y.id = x.id ∧ y.req = x.req) ∧ SameMemory s t) ∧
      ((s.chainTurn m x).1 = true → s.placePoisoned x.te.1 m.gid (chainSpace x.req.op) x.loc = false →
        s.wayLost x.te.1 (chainSpace x.req.op) x.loc = false →
        (farPlace x.te.1 (chainSpace x.req.op) x.loc = true →
          ∃ t, exec (.instanceCommit m.id) s = .next t ∧ begun t ∧ t.farChain m.id = true ∧
            (∀ y ∈ (t.homeOf m).entries, y.id ≠ x.id) ∧ SameMemory s t) ∧
        (farPlace x.te.1 (chainSpace x.req.op) x.loc = false →
          ∃ t, exec (.instanceCommit m.id) s = .next t ∧ Committed s t m ∧
            t.loadBytes x.te.1 m.gid (chainSpace x.req.op) x.loc x.req.bytes =
              leBytes x.req.bytes x.req.data.toNat ∧
            ∀ a, a ∉ locations s x.te.1 m.gid (chainSpace x.req.op) x.loc x.req.bytes →
              t.mem.read a = s.mem.read a)))

end Sys2Proof.Claims

open Sys2Proof Sys2Proof.Machine Sys2Proof.Claims

/-- R60, R61, R63, R64, R65 with R43 and R52: each register word answers a next state in which d holds its value
after its latency, and nothing but d and the pc has changed. -/
def Obligations.RegisterWordsWriteTheirResult : Prop :=
  ∀ (i : Instr) (c : Ctl) (d : BitVec 5) (lat : Nat) (f : Thread → Word) (s : State),
    RegisterWord i c d lat f → issues i c s = true →
    ∃ t, exec i s = .next t ∧ RegisterGets s t d lat (f s.begin.cur) ∧ OnlyRegister s t d

/-- R67, R68 with R43: each predicate word answers a next state in which pd holds its value two cycles later, and
with `.p` pd xor 1 its complement; every other predicate, every register, every special register, every other unit
and every byte of memory is as before.  PORN is pa OR NOT pb, which is the model's choice between two sentences of
R68 (log entry 18). -/
def Obligations.PredicateWordsWriteTheirPredicate : Prop :=
  ∀ (i : Instr) (c : Ctl) (pd : BitVec 4) (pair : Bool) (f : Thread → Bool) (s : State),
    PredicateWord i c pd pair f → issues i c s = true →
    ∃ t, exec i s = .next t ∧ PredicateGets s t pd (f s.begin.cur) ∧
      (pair = true → PredicateGets s t (pd ^^^ 1#4) (!f s.begin.cur)) ∧
      (∀ n p, p ≠ pd → (pair = true → p ≠ pd ^^^ 1#4) → t.cur.predAt n p = s.begin.cur.predAt n p) ∧
      (∀ n r, t.cur.regAt n r = s.begin.cur.regAt n r) ∧
      t.cur.pc = s.cur.pc + 4#64 ∧ SameSpecials s t ∧ SameUnits s t ∧ SameMemory s t

/-- Branches: where they go, and where they trap instead (R70 to R72). -/
def Obligations.BranchesGoWhereTheySay : Prop := BranchesGoToTheirTarget ∧ BranchesTrapOnBadTargets

/-- R73: LOOP counts s(d) down and branches while it is not 0; with s(d) = 0 it writes nothing and falls through. -/
def Obligations.LoopCountsDownAndBranches : Prop :=
  ∀ (c : Ctl) (d : BitVec 5) (imm : BitVec 13) (s : State),
    issues (.loop c d imm) c s = true →
    let v := s.begin.cur.reg d
    let target := s.cur.pc + BitVec.ofInt 64 (4 * imm.toInt)
    (1 < v.toNat → targetOk s target) →
    ∃ t, exec (.loop c d imm) s = .next t ∧
      t.cur.pc = (if 1 < v.toNat then target else s.cur.pc + 4#64) ∧
      (v = 0#64 → ∀ n, t.cur.regAt n d = s.begin.cur.regAt n d) ∧ (v ≠ 0#64 → RegisterGets s t d 2 (v - 1#64)) ∧
      SameRegsBut d s t ∧ SamePreds s t ∧ SameSpecials s t ∧ SameUnits s t ∧ SameMemory s t

/-- R61, R62: a division that issues while the divider is free occupies it with the quotient or the remainder of
R61, to be written to d at most 68 cycles later, DZ with it for a zero divisor; until then d is outstanding. -/
def Obligations.DivisionsOccupyTheDivider : Prop :=
  ∀ (i : Instr) (c : Ctl) (d a b : BitVec 5) (f : Word → Word → Word) (s : State),
    DivisionWord i c d a b f → issues i c s = true → s.dividerBusy = false →
    ∃ t v, exec i s = .next t ∧ (t.tile s.focus.tile).divider = some v ∧ v.slot = s.focus.slot ∧ v.dst = d ∧
      v.value = f (s.begin.cur.reg a) (s.begin.cur.reg b) ∧ v.dz = (s.begin.cur.reg b == 0#64) ∧ v.due ≤ s.now + 68 ∧
      t.cur.awaits d = (d != 0#5) ∧ t.cur.pc = s.cur.pc + 4#64 ∧
      (∀ n r, t.cur.regAt n r = s.begin.cur.regAt n r) ∧ SamePreds s t ∧ SameSpecials s t ∧ SameUnits s t ∧
      SameMemory s t

/-- R92, R93, R94, R95, R98, R53: a load that passes its checks leaves its result outstanding in d: the bytes at its
address, the sign extended or not, with the bytes that its region has buffered in place of those of memory, to be
written no earlier than the latency of R259. Behind accesses of its stream or stores of earlier regions that are not
performed it stands as a read that is still to be performed, with its places and the bytes that its region has buffered,
and its thread goes on; behind an atomic that its region buffers it holds its thread. A post-increment form writes its
address register either way. That a load behind earlier accesses makes its thread wait no longer than a word that reads d
is DEDUCED from R240 (log entry 19). -/
def Obligations.LoadsAwaitTheirBytes : Prop :=
  ∀ (i : Instr) (c : Ctl) (space : Space) (d : BitVec 5) (addr : Thread → Word) (size : Nat) (signed : Bool)
    (a : BitVec 5) (f : Thread → Word) (s s1 : State) (place : Nat),
    LoadWord i c space d addr size signed a f → issues i c s = true →
    let u := s.atIssue i c
    u.resolve (.tile s.focus.tile) s.focus.tile s.cur.gid space (addr s.begin.cur) size needLoad = .ok (place, s1) →
    let srcs := byteSources space u.cur.buffered.reverse place size
    let bytes := mergeBytes (forwarded srcs) (u.loadBytes s.focus.tile s.cur.gid space place size)
    (srcs.contains .atomic = false → u.cur.mustWait space = false →
      s1.readFault s.focus.tile s.cur.gid space place (forwarded srcs) = none →
      ∃ t o, exec i s = .next t ∧ Awaits s t o ∧ o.dst = d ∧ o.space = space ∧ o.place = place ∧ o.queued = none ∧
        o.value = some (if signed then sx (leNat bytes) (8 * size) else BitVec.ofNat 64 (leNat bytes)) ∧
        s.now + latencyOf s.focus.tile space place ≤ o.due ∧
        RegisterGets s t a 2 (f s.begin.cur) ∧ SameRegsBut a s t) ∧
    (srcs.contains .atomic = false → u.cur.mustWait space = true →
      s1.readFault s.focus.tile s.cur.gid space place (forwarded srcs) = none →
      ∃ t o, exec i s = .next t ∧ Awaits s t o ∧ o.dst = d ∧ o.space = space ∧ o.place = place ∧ o.value = none ∧
        o.queued = some { places := placesFrom place size, taken := forwarded srcs, signed := signed,
                          after := u.cur.nextSid } ∧
        RegisterGets s t a 2 (f s.begin.cur) ∧ SameRegsBut a s t) ∧
    (srcs.contains .atomic = true → ∃ t, exec i s = .next t ∧ Held s t)

/-- The results that arrive later: those of loads and of the divider (R53, R61, R62). -/
def Obligations.ScoreboardedResultsAreWritten : Prop := LoadReplyWritesTheRegister ∧ DividerWritesItsResult

/-- The loads that the text and the parameter windows answer (R66, R101). -/
def Obligations.LiteralAndParameterLoadsRead : Prop :=
  LiteralLoadsReadTheText ∧ ParameterLoadsStayInTheirWindow

/-- LDACQ and STREL: they wait for earlier accesses, and then read and write (R102, R104). -/
def Obligations.AcquiresAndReleasesWaitForTheirAccesses : Prop :=
  AcquireLoadsWaitForTheirStream ∧ ReleaseStoresArePerformed

/-- R92, R93, R94, R96, R97: a store that passes its checks joins the accesses of its thread as the youngest, with
its place and its data, in its region's buffer in group state and on its way at once in supervisor state; no byte
of memory changes before it is performed. A post-increment form writes its address register. -/
def Obligations.StoresJoinTheirStream : Prop :=
  ∀ (i : Instr) (c : Ctl) (space : Space) (addr : Thread → Word) (size : Nat) (d a : BitVec 5) (f : Thread → Word)
    (s s1 : State) (place : Nat),
    StoreWord i c space addr size d a f → issues i c s = true →
    (s.atIssue i c).resolve (.tile s.focus.tile) s.focus.tile s.cur.gid space (addr s.begin.cur) size needStore =
      .ok (place, s1) →
    let b : Buffered := ⟨space, place, addr s.begin.cur, .store size (s.begin.cur.reg d)⟩
    ∃ t, exec i s = .next t ∧ t.cur.pc = s.cur.pc + 4#64 ∧
      (s.cur.sup = false → accesses t = accesses s ++ [b]) ∧
      (s.cur.sup = true → t.cur.inflight.map (·.buf) = s.cur.inflight.map (·.buf) ++ [b]) ∧
      RegisterGets s t a 2 (f s.begin.cur) ∧ SameRegsBut a s t ∧ SamePreds s t ∧ SameSpecials s t ∧
      SameUnits s t ∧ SameMemory s t

/-- R96, R221, R256, R335: the acknowledgement of a thread's oldest committed store to a space, once its bank is
its own, writes the bytes at its place with those of its data: its tile reads them there, every other byte reads as
before, and the store is no longer in flight. A far store of G leaves the die instead: memory is as it was, the tile
reads the bytes already, and the store stays in flight, past its die, until it has been performed; a later
acknowledgement then ends it. Before that, or while the bank is not its own, nothing changes but what the bank has
booked. Stated for a store that no gateway drops, no other package refuses and no poison stops. How long a far store
takes, and that the threads of its die read its bytes from when it leaves it, is the model's choice (log entry 12). -/
def Obligations.AcknowledgedStoresAreInMemory : Prop :=
  ∀ (tile slot : Nat) (sp : BitVec 2) (f : InFlight) (fs : List InFlight) (size : Nat) (data : Word) (s : State),
    tile < 2048 → slot < 4 → (s.thread tile slot).streamOf (spaceOf sp) = f :: fs →
    f.buf.act = .store size data → size ≤ 8 → s.mem.wf = true →
    let th := s.thread tile slot
    let gid := th.gid
    ∃ t, exec (.storeAcknowledgement tile slot sp) s = .next t ∧ t.poison = s.poison ∧
      (∀ r, (t.thread tile slot).reg r = th.reg r) ∧ (t.thread tile slot).pc = th.pc ∧
      (∀ p q, ¬(p = tile ∧ q = slot) → t.thread p q = s.thread p q) ∧
      (f.passed = true → (∀ x, t.mem.read x = s.mem.read x) ∧
        (s.farAccess tile slot f.sid = true → t = s) ∧
        (s.farAccess tile slot f.sid = false → ∀ x ∈ (t.thread tile slot).inflight, x.sid ≠ f.sid)) ∧
      (f.passed = false → th.mayPerform f = true → s.bankReady tile gid (th.serveFrom f) f = true →
        s.gatewayDrops ((s.ownerOf gid).getD 0) tile f.buf.space f.buf.place = false →
        s.refuses gid f.buf.space f.buf.place = false → s.placePoisoned tile gid f.buf.space f.buf.place = false →
        t.loadBytes tile gid f.buf.space f.buf.place size = leBytes size data.toNat ∧
        (∀ x, x ∉ locations s tile gid f.buf.space f.buf.place size →
          t.mem.read x = s.mem.read x ∧ t.seenByte tile x = s.seenByte tile x) ∧
        (farAway tile f.buf = true → f.buf.space = .g → t.mem = s.mem) ∧
        (∀ x ∈ (t.thread tile slot).inflight, x.sid = f.sid → farAway tile f.buf = true ∧ x.passed = true)) ∧
      (f.passed = false → th.mayPerform f = false → t = s) ∧
      (f.passed = false → s.bankReady tile gid (th.serveFrom f) f = false → (∀ x, t.mem.read x = s.mem.read x) ∧
        (t.thread tile slot).inflight.map (fun x => (x.sid, x.buf, x.passed)) =
          th.inflight.map fun x => (x.sid, x.buf, x.passed))

/-- R105, R106: an atomic with d = s0, a CAS excepted, joins the accesses of its thread as a store does. -/
def Obligations.AtomicsWithoutResultJoinTheirStream : Prop :=
  ∀ (i : Instr) (c : Ctl) (space : Space) (op : AmoOp) (a b : BitVec 5) (f : Word → Word → Word → Word)
    (s s1 : State) (place : Nat),
    AtomicWord i c space op 0#5 a b f → issues i c s = true →
    (s.atIssue i c).resolve (.tile s.focus.tile) s.focus.tile s.cur.gid space (s.begin.cur.reg a) 8 needAmo =
      .ok (place, s1) →
    let x : Buffered := ⟨space, place, s.begin.cur.reg a, .amo op (s.begin.cur.reg b)⟩
    op ≠ .cas ∧ ∃ t, exec i s = .next t ∧ t.cur.pc = s.cur.pc + 4#64 ∧
      (s.cur.sup = false → accesses t = accesses s ++ [x]) ∧
      (s.cur.sup = true → t.cur.inflight.map (·.buf) = s.cur.inflight.map (·.buf) ++ [x]) ∧
      (∀ n r, t.cur.regAt n r = s.begin.cur.regAt n r) ∧ SamePreds s t ∧ SameSpecials s t ∧
      SameUnits s t ∧ SameMemory s t

/-- R105, R106: an atomic with d ≠ s0, once every earlier access of its stream is performed and every other one visible
at the scope that its space implies, with what its tile's die has on its way (log entry 12), reads 8 bytes at s(a),
writes the value of R105 of them there and nowhere else, and leaves the old value outstanding in d. Before that it
stands, with its operands, as an access that is still to be performed, and its thread goes on, which is DEDUCED from
R240 (log entry 19). -/
def Obligations.AtomicsReturnTheOldValue : Prop :=
  ∀ (i : Instr) (c : Ctl) (space : Space) (op : AmoOp) (d a b : BitVec 5) (f : Word → Word → Word → Word)
    (s s1 : State) (place : Nat),
    AtomicWord i c space op d a b f → d ≠ 0#5 → issues i c s = true →
    let u := s.atIssue i c
    u.resolve (.tile s.focus.tile) s.focus.tile s.cur.gid space (s.begin.cur.reg a) 8 needAmo.learns =
      .ok (place, s1) →
    s1.readFault s.focus.tile s.cur.gid space place [none] = none →
    (u.cur.mustWait space = false → u.released (impliedScope space place) = true →
      ∀ old, ReadsAs s s.cur.gid space place old → s.mem.wf = true →
      ∃ t o, exec i s = .next t ∧ t.cur.outstanding = s.cur.outstanding ++ [o] ∧ o.dst = d ∧ o.value = some old ∧
        ReadsAs t s.cur.gid space place (f old (s.begin.cur.reg b) (s.begin.cur.reg d)) ∧
        (∀ x, x ∉ locations s s.focus.tile s.cur.gid space place 8 → t.mem.read x = s.mem.read x) ∧
        t.poison = s.poison ∧ t.cur.pc = s.cur.pc + 4#64 ∧ (∀ n r, t.cur.regAt n r = s.begin.cur.regAt n r) ∧
        SamePreds s t ∧ SameSpecials s t ∧ SameUnits s t) ∧
    ((u.cur.mustWait space = true ∨ u.released (impliedScope space place) = false) →
      ∃ t o, exec i s = .next t ∧ Awaits s t o ∧ o.dst = d ∧ o.value = none ∧
        o.queued = some { places := placesFrom place 8, taken := List.replicate 8 none,
                          amo := some (op, s.begin.cur.reg b, s.begin.cur.reg d), acquire := true,
                          after := u.cur.nextSid } ∧
        ∀ n r, t.cur.regAt n r = s.begin.cur.regAt n r)

/-- R43, R56: a word whose guard is 0 has no effect: it goes on at pc + 4. Stated for the words of the tables of register,
division, predicate, branch, load, store and atomic words, and for FENCE, SBAR and DRAIN. -/
def Obligations.FalseGuardsHaveNoEffect : Prop :=
  ∀ (i : Instr) (c : Ctl) (s : State), PlainWord i c → skips i c s →
    ∃ t, exec i s = .next t ∧ OnlyRegister s t 0#5 ∧ accesses t = accesses s ∧ t.cur.outstanding = s.cur.outstanding

/-- R74, R75: BSEL finds the first bucket that is not below s(a), branches by that entry's offset, and writes the
bucket's excess over s(a) to d and its padding mask to PADM; the entry 0xFFFFFFFF ends the table and gives 0 for
both. Its result is there after the cycles of R75 and those that it waits for the banks of its table's lines: which
lines it reads, one a cycle and in their order, is the model's choice (log entry 8). -/
def Obligations.BucketSelectBranchesToTheBucket : Prop :=
  ∀ (c : Ctl) (d a b : BitVec 5) (s : State) (k : Nat) (bucket offset : Nat → Nat) (w : Window),
    let i : Instr := .bsel c d a b
    let u := s.atIssue i c
    let dim := (s.begin.cur.reg a).toNat
    let base := (s.begin.cur.reg b).toNat
    issues i c s = true → k < 64 → base % 8 = 0 → u.cur.mustWait .sp = false → (∀ x ∈ u.cur.buffered, x.space ≠ .sp) →
    (s.partOf s.cur.gid).isSome = true → s.window? s.cur.gid s.focus.tile = some w → base + 8 * (k + 1) ≤ w.size →
    w.size ≤ 2 ^ 21 →
    (∀ j, j ≤ k → s.placePoisoned s.focus.tile s.cur.gid .sp (base + 8 * j) = false ∧
      bucket j < 2 ^ 32 ∧ offset j < 2 ^ 32 ∧
      s.loadBytes s.focus.tile s.cur.gid .sp (base + 8 * j) 8 = leBytes 4 (bucket j) ++ leBytes 4 (offset j)) →
    (∀ j, j < k → bucket j < dim ∧ bucket j ≠ 0xFFFFFFFF) →
    (∀ j, j < k → bucket (j + 1) = 0xFFFFFFFF ∨ bucket j < bucket (j + 1)) →
    (bucket k = 0xFFFFFFFF ∨ dim ≤ bucket k) →
    let excess := if bucket k = 0xFFFFFFFF then 0 else bucket k - dim
    let target := s.cur.pc + BitVec.ofInt 64 (4 * (BitVec.ofNat 32 (offset k)).toInt)
    let wait := (u.takeBanks s.cur.gid 1 0 (u.bselBanks (s.begin.cur.reg b) (k / 8 + 1))).1
    targetOk s target →
    ∃ t, exec i s = .next t ∧ t.cur.pc = target ∧
      t.cur.padm = (if 64 ≤ excess then BitVec.allOnes 64 else BitVec.ofNat 64 (2 ^ excess - 1)) ∧
      RegisterGets s t d (8 + k / 8 + wait) (BitVec.ofNat 64 excess) ∧ SameRegsBut d s t ∧ SamePreds s t ∧
      { t.cur.specials with padm := s.cur.padm } = s.cur.specials ∧ SameUnits s t ∧ SameMemory s t

/-- The reads of special registers, FTRAP among them (R49, R74, R152). -/
def Obligations.SpecialRegistersRead : Prop := SpecialRegistersAreRead ∧ FabricTrapIsReadAndCleared

/-- R49, R50, R77, R341: MTS writes s(d) to the special register it names, without the reserved bits of its row;
every special register that it does not name is as before, but REENTRY, whose region ends. MTS FLAGS waits for a
division that has still to post its flag. -/
def Obligations.SpecialRegistersAreWritten : Prop :=
  ∀ (c : Ctl) (d : BitVec 5) (n : BitVec 13) (f : Word → Word) (s : State),
    SpecialWrite n f → issues (.mts c d n) c s = true →
    ((n = 0x007#13 → ¬divides s) →
      ∃ t, exec (.mts c d n) s = .next t ∧ t.cur.pc = s.cur.pc + 4#64 ∧
        (∀ g, SpecialRegister n g → g t = f (s.begin.cur.reg d)) ∧
        (∀ m g, m ≠ n → m ≠ 0x00E#13 → SpecialRegister m g → g t = g s.begin) ∧
        t.cur.ftrap = s.cur.ftrap ∧ t.cur.copy = s.cur.copy ∧ t.cur.sieve = s.cur.sieve ∧
        (∀ n r, t.cur.regAt n r = s.begin.cur.regAt n r) ∧ (n ≠ 0x005#13 → SamePreds s t) ∧ SameUnits s t ∧
        SameMemory s t) ∧
    (n = 0x007#13 → divides s → ∃ t, exec (.mts c d n) s = .next t ∧ Waits s t)

/-- R50, R57, R58: every word that is illegal traps ILLEGAL, whatever its guard, its stall counts and its operands. -/
def Obligations.IllegalWordsTrapWhateverTheirGuard : Prop :=
  PrivilegedWordsTrapInGroupState ∧ IllegalWordsTrap

/-- Software traps: into the handler, or, without one, to a stop (R78, R342). -/
def Obligations.SoftwareTrapsEnterOrStop : Prop :=
  SoftwareTrapsEnterTheHandler ∧ TrapsWithoutHandlerStopTheThread

/-- R78: TFENCE with no enabled flag raised only goes on; with one it traps TFENCE at the next word, TVAL the
enabled flags that are raised. It waits for a division that has still to post its flag. -/
def Obligations.TrapFenceTrapsOnEnabledFlags : Prop :=
  ∀ (c : Ctl) (s : State), issues (.tfence c) c s = true →
    let f := s.cur.flags &&& s.cur.trapen
    (divides s → ∃ t, exec (.tfence c) s = .next t ∧ Waits s t) ∧
    (¬divides s → f = 0#8 → ∃ t, exec (.tfence c) s = .next t ∧ OnlyRegister s t 0#5) ∧
    (¬divides s → f ≠ 0#8 → hasHandler s →
      ∃ t, exec (.tfence c) s = .next t ∧ EntersHandler s t 0x0C (s.cur.pc + 4#64) (f.setWidth 64) 0#64)

/-- R78, R342: ERET goes on at TEPC; with TSTATE.SUP = 0 the thread is in group state again, and the region that
opens at TEPC counts from TSTATE.REENTRY. -/
def Obligations.ReturnFromTrapResumesAtTepc : Prop :=
  ∀ (c : Ctl) (s : State), issues (.eret c) c s = true →
    ∃ t, exec (.eret c) s = .next t ∧ t.cur.pc = s.cur.tepc ∧
      t.cur.sup = s.cur.tstate.getLsbD 0 ∧
      (s.cur.tstate.getLsbD 0 = false →
        t.cur.resume = s.cur.tepc ∧ t.cur.reentry = s.cur.tstate.extractLsb' 8 8 ∧ t.cur.buffered = []) ∧
      (∀ n r, t.cur.regAt n r = s.begin.cur.regAt n r) ∧ SamePreds s t ∧
      { t.cur.specials with sup := s.cur.sup } = s.cur.specials ∧ SameUnits s t ∧ SameMemory s t

/-- The words that end, yield and mark (R12, R78 to R80). -/
def Obligations.HaltYieldAndMark : Prop := HaltEndsTheThread ∧ YieldAndMarkChangeNoValue

/-- R108, R110, R295, R335: FENCE, SBAR and DRAIN go on at once where what they wait for has been performed, or, for
FENCE and DRAIN, is visible at the scope, and else hold their thread until it has. SBAR waits for the elements too that
the selected streams had delivered: those to another die, for the model performs every other as it delivers it. FENCE
waits as well for the far writes of its die that its thread may have read, and DRAIN for those of its tile's copies:
that far writes are performed later and which of them a word covers is the model's choice (log entry 12). -/
def Obligations.BarriersWaitForTheirAccesses : Prop :=
  ∀ (i : Instr) (c : Ctl) (f g : State → Bool) (s : State), WaitWord i c f g →
    (issues i c s = true → f (s.atIssue i c) = true →
      ∃ t, exec i s = .next t ∧ OnlyRegister s t 0#5 ∧ accesses t = accesses s) ∧
    (issues i c s = true → f (s.atIssue i c) = false →
      ∃ t, exec i s = .next t ∧ Waits s t ∧ accesses t = accesses s) ∧
    (s.focus.slot < 4 → s.begin.cur.waiting = true → g s.begin = true →
      ∃ t, exec i s = .next t ∧ OnlyRegister s t 0#5 ∧ t.cur.waiting = false ∧ accesses t = accesses s) ∧
    (s.focus.slot < 4 → s.begin.cur.waiting = true → g s.begin = false →
      ∃ t, exec i s = .next t ∧ Waits s t ∧ accesses t = accesses s)

/-- The waits for events and for tokens (R81, R82, R109). -/
def Obligations.EventAndTokenWaits : Prop := WaitForEventClearsTheBitsItFinds ∧ TokenWaitFollowsTheTokenState

/-- The domain barrier: DBAR, and the arrivals that its slot counts (R108, R310, R421). -/
def Obligations.DomainBarriersArriveAndTurn : Prop :=
  DomainBarrierArrivesAndWaits ∧ BarrierArrivalsTurnThePhase

/-- R361, R371, R375, R350: ACCRD of an accumulator whose covering drains have ended leaves it outstanding in d, an INT32
accumulator sign-extended and an FP32 one zero-extended, as the mode word that serves the pool says: the leader's in a
member of a joined pool, which is DEDUCED from R375 (log entry 46). While a PFLOW whose drain ended before it still runs
on its accumulator tile, ACCRD waits, which is DEDUCED from R371 (log entry 68). -/
def Obligations.AccumulatorReadsReturnTheAccumulator : Prop :=
  ∀ (c : Ctl) (d a : BitVec 5) (imm : BitVec 8) (s : State), issues (.accrd c d a imm) c s = true →
    let p := (s.ctx s.focus.tile).pool
    let mode := (s.ctx (p.memberOf.getD s.focus.tile)).pool.mode
    let n := (s.begin.cur.reg a + imm.setWidth 64).toNat % 2048
    (∀ o ∈ p.owners, o.acct = n / 64 → o.drainEnded = true) → p.armed = none →
    ((∀ o ∈ p.owners, o.acct = n / 64 → o.flowEnded = true) → n ∉ p.accPoison →
      ∃ t o, exec (.accrd c d a imm) s = .next t ∧ Awaits s t o ∧ o.dst = d ∧
        o.value = some (if bits mode 55 52 = 9 then (p.acc.get 0#32 n).signExtend 64
          else (p.acc.get 0#32 n).setWidth 64) ∧
        ∀ n r, t.cur.regAt n r = s.begin.cur.regAt n r) ∧
    ((∃ o ∈ p.owners, o.acct = n / 64 ∧ o.flowEnded = false) →
      ∃ t, exec (.accrd c d a imm) s = .next t ∧ Waits s t)

/-- R142, R145, R153, R171, R178: a compute-form slot that fires sends the tokens of its beats, in their order, to
the end of the queues that its outputs lead to, where there is room for them. -/
def Obligations.ElementsSendTheirTokens : Prop :=
  ∀ (i : Instr) (t : Trig) (f : Comp) (k : Form) (w : Bool → TE → Work) (s : State) (sh : Shape),
    ComputeSlot i t f k w → fires k t f s sh →
    let p := s.focusTe
    let l := sentBy s f sh (workOf w s) (beatsOf t)
    steady sh l (beatsOf t) →
    ∃ u, exec i s = .next u ∧ ∀ (q : TeId) (ch : Nat), q ≠ p → q.2.2 < 10 → ch < 4 →
      let out := l.filter fun x => decide (x.2.dest < 4) &&
        (s.finalOf maxHops p x.2.dest 0).any fun y => y.1 == q && y.2.1 == ch
      (∀ d seams, d < 4 → s.finalOf maxHops p d 0 = some (q, ch, seams) →
        (s.teAt q).usedSlots ch + out.length ≤ depthOf ch + 2 * seams) →
      (u.teAt q).queue ch = (s.teAt q).queue ch ++ out.map fun x =>
        { data := x.2.data, fmt := x.2.fmt, utag := x.2.utag, region := s.instanceOf p }

/-- R142, R145, R146, R164: a compute-form slot that fires writes to W and to the index registers what its beats
send there, the last write of a place standing; XINC steps the index registers that a selector names and the
instruction does not write. -/
def Obligations.ElementsWriteTheirRegisters : Prop :=
  ∀ (i : Instr) (t : Trig) (f : Comp) (k : Form) (w : Bool → TE → Work) (s : State) (sh : Shape),
    ComputeSlot i t f k w → fires k t f s sh →
    let p := s.focusTe
    let e := s.teAt p
    let n := beatsOf t
    let l := sentBy s f sh (workOf w s) n
    steady sh l n →
    let xw := ((l.filter fun x => decide (8 ≤ x.2.dest) && decide (x.2.dest ≤ 15)).map fun x =>
      (x.2.dest - 8, x.2.data.setWidth 16)) ++ (workOf w s).xs (readIn s f sh (n - 1))
    let ww := (l.filter fun x => decide (16 ≤ x.2.dest) && decide (x.2.dest ≤ 24)).map fun x =>
      (wAddress e f x.2.dest x.1 % 8192, x.2.data)
    ∃ u, exec i s = .next u ∧
      (∀ j, j < 8 → vget (u.teAt p).x j 0#16 =
        (lastFor xw j).getD (vget e.x j 0#16 + if 16 + j ∈ sh.names ++ sh.dests then stepOf f.xinc n else 0#16)) ∧
      (∀ a, u.readW p a = (lastFor ww (a % 8192)).getD (s.readW p a))

/-- R134, R145, R146, R164, R165: what a compute-form slot leaves in the predicates, in the lap and in the flags of
its TE: its own writes at the end of the last beat, then PUPD, then LAPINC; the flags of its beats and of the
tokens it dequeued, DONE excepted, whose control token takes the flags with it. -/
def Obligations.ElementsUpdatePredicatesAndLap : Prop :=
  ∀ (i : Instr) (t : Trig) (f : Comp) (k : Form) (w : Bool → TE → Work) (s : State) (sh : Shape),
    ComputeSlot i t f k w → fires k t f s sh →
    let p := s.focusTe
    let e := s.teAt p
    let n := beatsOf t
    let wk := workOf w s
    steady sh (sentBy s f sh wk n) n →
    let own := (wk.preds (readIn s f sh (n - 1)) (tagIn s sh (n - 1))).foldl (fun a y => putBit16 a y.1 y.2) e.p
    let old := own.getLsbD f.ppred.toNat
    let v := (beatOf s f sh wk n (n - 1)).value
    let new : Bool := match f.pop.toNat with
      | 0 => true
      | 1 => false
      | 2 => !old
      | 3 => v.any fun x => notZero t.fmt x
      | 4 => v.any fun x => x.getLsbD 31
      | _ => v.any fun x => x.getLsbD 0
    ∃ u, exec i s = .next u ∧
      (u.teAt p).p = (if f.pupd = 1#1 then putBit16 own f.ppred.toNat new else own) ∧
      (u.teAt p).lap = (wk.lap (readIn s f sh (n - 1))).getD e.lap + (if f.lapinc = 1#1 then 1#8 else 0#8) ∧
      (k ≠ .doneTok → (u.teAt p).flags = (List.range n).foldl (fun a b =>
        sh.deq.foldl (fun a ch => a ||| ((((e.queue ch)[b]?).map (·.flags)).getD 0#8 &&& 0x1F#8))
          (a ||| ((beatOf s f sh wk n b).flags &&& 0x1F#8))) e.flags)

/-- R145, R166, R179, R181: a compute-form slot that fires dequeues one token of each channel it names in every beat, and
leaves every other TE's registers, every thread, every pool and token, and every byte of memory as they were. A MERGE
whose control and chosen data name one channel, of which R181 has it dequeue both, takes one token of it in a beat:
DEDUCED (log entry 37). -/
def Obligations.ElementsDequeueAndLeaveTheRest : Prop :=
  ∀ (i : Instr) (t : Trig) (f : Comp) (k : Form) (w : Bool → TE → Work) (s : State) (sh : Shape),
    ComputeSlot i t f k w → fires k t f s sh →
    ∃ u, exec i s = .next u ∧ stays s u s.focusTe ∧ (u.teAt s.focusTe).slots = (s.teAt s.focusTe).slots ∧
      (u.teAt s.focusTe).outM = (s.teAt s.focusTe).outM ∧
      ∀ ch, ch < 6 → (∀ d seams, d < 4 → s.finalOf maxHops s.focusTe d 0 ≠ some (s.focusTe, ch, seams)) →
        (u.teAt s.focusTe).queue ch =
          if ch ∈ sh.deq then ((s.teAt s.focusTe).queue ch).drop (beatsOf t) else (s.teAt s.focusTe).queue ch

/-- R149, R161: the requests of a firing wait at the column unit of its TE's column in the order of its beats, each
with its function, its operand and its user tag, a slot of in.f reserved for each. -/
def Obligations.ElementsRequestTheColumnUnit : Prop :=
  ∀ (i : Instr) (t : Trig) (f : Comp) (k : Form) (w : Bool → TE → Work) (s : State) (sh : Shape),
    ComputeSlot i t f k w → fires k t f s sh →
    let p := s.focusTe
    let n := beatsOf t
    let wk := workOf w s
    steady sh (sentBy s f sh wk n) n →
    let asked := (List.range n).filterMap fun b => (beatOf s f sh wk n b).column
    ∃ u, exec i s = .next u ∧
      vget (u.ctx p.1).colReqs p.2.1 [] = vget (s.ctx p.1).colReqs p.2.1 [] ++ (asked.map fun q =>
        ⟨p.2.2, q.1, q.2.1, q.2.2, (s.instanceOf p).isSome, (s.teAt p).image.getD 0⟩) ∧
      (u.teAt p).reservedF = (s.teAt p).reservedF + asked.length

/-- R15, R134, R165, R245: DONE pushes a control token with its EVT bit and the flags its TE has gathered, to the tile's
collector, where it is due three cycles later, or, inside an instance, into the tokens that the instance holds to its
commit. That the flags of what the DONE slot itself dequeues stay for a later token is the model's choice (log entry
78). -/
def Obligations.DoneSendsAControlToken : Prop :=
  ∀ (t : Trig) (f : Comp) (s : State) (sh : Shape) (m : Image),
    (Instr.done t f).wf = true → fires .doneTok t f s sh → s.imageOf s.focusTe = some m →
    let e := s.teAt s.focusTe
    let x : CtlToken := ⟨s.focus.col, s.focus.row, f.imm12.setWidth 4, e.flags, e.dest.1, e.dest.2, m.gid,
      s.now + 3, s.focus.tile⟩
    ∃ u, exec (.done t f) s = .next u ∧ (u.teAt s.focusTe).ctlTokens = e.ctlTokens + 1 ∧
      (m.active = false → (u.ctx s.focus.tile).collector = (s.ctx s.focus.tile).collector ++ [x] ∧ u.images = s.images) ∧
      (m.active = true → (u.ctx s.focus.tile).collector = (s.ctx s.focus.tile).collector ∧
        u.image? m.id = some { m with heldTokens := m.heldTokens ++ [(s.focus.tile, x)] })

/-- R143: a compute-form or memory-form slot whose TE does not run, or that is not ready, changes nothing. -/
def Obligations.UnreadySlotsDoNothing : Prop :=
  ∀ (i : Instr) (t : Trig) (s : State),
    (∀ (f : Comp) (k : Form) (w : Bool → TE → Work), ComputeSlot i t f k w →
      (∀ sh, formShape k t f (s.teAt s.focusTe) (readIn s f {} 0) = some sh →
        s.teRuns s.focusTe = false ∨ s.slotReady s.focusTe t sh = false) → exec i s = .next s) ∧
    (∀ (m : MemF) (k : ChainOp), MemorySlot i t m k →
      (s.teRuns s.focusTe = false ∨ s.slotReady s.focusTe t (memShape t m) = false) → exec i s = .next s)

/-- How the instance of a region domain opens, closes and is aborted (R165, R167, R225). -/
def Obligations.RegionsOpenCloseAndAbort : Prop :=
  RegionOpenTakesASnapshot ∧ RegionCloseAndAbortEndTheInstance

/-- R151, R152, R165, R231: TRAP completes by taking the fabric trap: in every image the slot does not fire, the image
stops with all its TEs, and an instance that it has, whose commit has not begun, is undone, counts and is stopped. The
thread that started the image
receives the trap: FTRAP where it is free, with the slot, its place in the group's rectangle and IMM12 as DETAIL, MORE
where it is not, and bit 15 of EVT; once that thread has halted, no thread does. In a TE without an image nothing
happens, and nothing does in the cycle in which a takeover ended the image's domain (R232), or while its commit is under
way, after which the slot meets its trap again (DEDUCED from R233, log entry 87). -/
def Obligations.ElementTrapStopsItsImage : Prop :=
  ∀ (t : Trig) (f : Comp) (s : State) (sh : Shape), fires .trapTok t f s sh →
    (s.imageOf s.focusTe = none → exec (.teTrap t f) s = .next s) ∧
    (∀ m, s.imageOf s.focusTe = some m → m.committing = true ∨ m.endedAt = some s.now →
      exec (.teTrap t f) s = .next s) ∧
    ∀ m, s.imageOf s.focusTe = some m → m.committing = false → m.endedAt ≠ some s.now →
      ∃ u n, exec (.teTrap t f) s = .next u ∧ u.image? m.id = some n ∧ n.started = false ∧
        (∀ p ∈ m.tes, (u.teAt p).started = false) ∧
        (m.discards = true → n.state = .stopped ∧ n.reentry = m.reentry + 1#8 ∧ n.snapshots = [] ∧ n.heldTokens = []) ∧
        (m.active = false → ∀ p, (u.teAt p).snapshot = (s.teAt p).snapshot ∧ (u.teAt p).queues = (s.teAt p).queues) ∧
        (s.ownerThread m = none → ∀ p q, u.thread p q = s.thread p q) ∧
        ∀ tile slot, s.ownerThread m = some (tile, slot) → slot < 4 →
          let th := s.thread tile slot
          let c := match s.rectOfTe s.focusTe with
            | some r => (r.meshC s.focusTe - r.col, r.meshR s.focusTe - r.row)
            | none => (s.focus.col, s.focus.row)
          (u.thread tile slot).evt = th.evt ||| 0x8000#16 ∧
          (th.ftrap.getLsbD 63 = true → (u.thread tile slot).ftrap = th.ftrap ||| 0x4000000000000000#64) ∧
          (th.ftrap.getLsbD 63 = false → (u.thread tile slot).ftrap = BitVec.ofNat 64 (2 ^ 63 + f.imm12.toNat * 2 ^ 32 +
            s.focus.teSlot % 32 * 2 ^ 24 + c.2 % 256 * 2 ^ 16 + c.1 % 256 * 2 ^ 8 + 0x15)) ∧
          (∀ p q, ¬(p = tile ∧ q = slot) → u.thread p q = s.thread p q) ∧ (m.active = false → SameMemory s u)

/-- R143, R194, R213, R214: a memory-form slot that fires sends the access of each of its beats on out.m, in their
order: its chain, its lap, its own and its neighbours' numbers, its operation and size, its address, the offset
that ADDR reads plus (off8 + the beat) × the size, and its data; a slot of in.m is reserved for each. -/
def Obligations.ChainSlotsSendTheirAccesses : Prop :=
  ∀ (i : Instr) (t : Trig) (m : MemF) (k : ChainOp) (s : State), MemorySlot i t m k → firesChain t m s →
    let p := s.focusTe
    let e := s.teAt p
    ∃ u l, exec i s = .next u ∧ (u.teAt p).outM = e.outM ++ l ∧ l.length = beatsOf t ∧
      (u.teAt p).reservedM = e.reservedM + beatsOf t ∧
      (∀ (b : Nat) (r : ChainReq), l[b]? = some r →
        r.beat = b ∧ r.beats = beatsOf t ∧ r.op = k ∧ r.chain = m.chain ∧ r.lap = e.lap ∧ r.own = m.own ∧
        r.pred = m.pred ∧ r.succ = m.succ ∧ r.size = m.size.toNat ∧ r.amo = m.amo ∧ r.slot = s.focus.teSlot ∧
        r.inRegion = (s.instanceOf p).isSome ∧ r.data = chainRead e m.deq b m.data.toNat ∧
        r.addr = chainRead e m.deq b m.addr.toNat + BitVec.ofNat 32
          ((m.off8.toNat + if m.addr.toNat < 6 ∧ m.deq.getLsbD m.addr.toNat = true then 0 else b) * 2 ^ m.size.toNat)) ∧
      (∀ ch, ch < 6 → (u.teAt p).queue ch = if m.deq.getLsbD ch then (e.queue ch).drop (beatsOf t) else e.queue ch) ∧
      (u.teAt p).snapshot = e.snapshot ∧ stays s u p

/-- Engine commands at their issue, without a reply and with one (R47, R219, R220). -/
def Obligations.CommandsEnterTheirBufferOrWait : Prop := CommandsEnterTheirBuffer ∧ CommandsWithReplyAwaitIt

/-- R48, R307, R276, R340: a command whose token word is malformed traps CMDREJECT with TVAL its function; one that
names a token outside TOKMASK traps TOKFAULT with TVAL 4; one that produces a token that counts as PENDING traps
TOKREUSE; the last two give the token in TAUX. Which of several tokens outside TOKMASK TAUX gives is the model's choice
(log entry 74). -/
def Obligations.CommandsTrapOnTheirTokenWord : Prop :=
  ∀ (i : Instr) (c : Ctl) (func : BitVec 7) (a b : BitVec 5) (s : State),
    (CommandWord i c func a b ∨ ∃ d, ReplyWord i c func d a b) →
    issues i c s = true → s.begin.cur.bufferFull = false → hasHandler s →
    let y := s.begin.cur.reg b
    (tokenWordBad y → ∃ t, exec i s = .next t ∧ EntersHandler s t 0x0A s.cur.pc (func.setWidth 64) 0#64) ∧
    (¬tokenWordBad y → ∀ k, (namedTokens y).find? s.outsideMask = some k →
      ∃ t, exec i s = .next t ∧ EntersHandler s t 0x09 s.cur.pc 0x04#64 (BitVec.ofNat 64 (256 * k))) ∧
    (¬tokenWordBad y → (∀ k ∈ namedTokens y, s.outsideMask k = false) → ∀ k, produced y = some k →
      s.pendingToken k = true →
      ∃ t v, exec i s = .next t ∧ EntersHandler s t 0x08 s.cur.pc v (BitVec.ofNat 64 (256 * k)))

/-- R220, R275, R285, R292, R406, R408: the oldest committed command of a thread leaves its buffer when its engine's
queue has room: CPSHAPE and GIDX are then in effect; a copy or sieve command with a bad descriptor ends FAULTED; any
other stands in its engine's queue with its token PENDING. With no room it stays. -/
def Obligations.CommandsLeaveTheirBuffer : Prop :=
  ∀ (tile slot : Nat) (c : Cmd) (rest : List Cmd) (s : State), tile < 2048 → slot < 4 → c.slot = slot →
    (s.thread tile slot).departing = c :: rest → c.armed = false → c.stage = .waiting →
    let th := s.thread tile slot
    let e : Instr := .commandBufferDeparture tile slot
    let room := ∀ q, queueOf c.func = some q → s.queueLength tile q < q.room
    (¬room → exec e s = .next s) ∧
    (room → c.func = 0x20#7 → ∃ t, exec e s = .next t ∧ (t.thread tile slot).departing = rest ∧
      (t.thread tile slot).copy = vset th.copy (bits c.b 2 0) c.a ∧ (t.thread tile slot).sieve = th.sieve ∧
      (∀ k, t.token tile k = s.token tile k) ∧ (t.ctx tile).cmds = (s.ctx tile).cmds ∧ SameMemory s t) ∧
    (room → c.func = 0x28#7 → ∃ t, exec e s = .next t ∧ (t.thread tile slot).departing = rest ∧
      (t.thread tile slot).sieve = vset th.sieve (bits c.b 1 0) c.a ∧ (t.thread tile slot).copy = th.copy ∧
      (∀ k, t.token tile k = s.token tile k) ∧ (t.ctx tile).cmds = (s.ctx tile).cmds ∧ SameMemory s t) ∧
    (room → c.func ≠ 0x20#7 → c.func ≠ 0x28#7 →
      ({ c with copy := th.copy, sieve := th.sieve } : Cmd).descriptorOk = true →
      ∃ t q, exec e s = .next t ∧ (t.thread tile slot).departing = rest ∧ q ∈ (t.ctx tile).cmds ∧ q.id = c.id ∧
        q.func = c.func ∧ q.a = c.a ∧ q.b = c.b ∧ q.stage = .waiting ∧ q.copy = th.copy ∧ q.sieve = th.sieve ∧
        TokenTurns s t tile c .pending ∧ SameMemory s t) ∧
    (room → c.func ≠ 0x20#7 → c.func ≠ 0x28#7 →
      ({ c with copy := th.copy, sieve := th.sieve } : Cmd).descriptorOk = false →
      ∃ t, exec e s = .next t ∧ (t.thread tile slot).departing = rest ∧ Ended s t tile c .faulted ∧ SameMemory s t)

/-- R277 to R282, R89: a command whose turn it is and whose consumed tokens are satisfied begins: TJOIN only turns its
token VISIBLE; TRESET frees the named tokens that are final; TQUERY and FGET write their reply; FPUT writes its word
of W. One that found a consumed token FAULTED or POISON performs nothing and ends FAULTED with cause 0x09. -/
def Obligations.EnginesBeginCommands : Prop :=
  ∀ (tile : Nat) (c : Cmd) (s : State), BeginsNext s tile c →
    let e : Instr := .engineCommandBegin tile c.id
    (c.upstream = true → c.flags = 0#8 → ∃ t, exec e s = .next t ∧ Ended s t tile c .faulted ∧
      (∀ k, produced c.b = some k → (t.token tile k).cause = 0x09#6) ∧
      (∀ p, t.teAt p = s.teAt p) ∧ (t.ctx tile).pool.acc = (s.ctx tile).pool.acc ∧ SameMemory s t) ∧
    (c.upstream = false → c.satisfied = 7#3 →
      (c.func = 0x38#7 → ∃ t, exec e s = .next t ∧ Ended s t tile c .visible ∧ SameMemory s t) ∧
      (c.func = 0x39#7 → (∀ k, produced c.b = some k → c.a.getLsbD k = false) →
        ∃ t, exec e s = .next t ∧
          (∀ k, produced c.b = some k → (t.token tile k).state = .visible) ∧
          (∀ k, k < 64 → c.a.getLsbD k = true →
            (t.token tile k).state = if (s.token tile k).seen.final then .free else (s.token tile k).state) ∧
          (∀ k, k < 64 → c.a.getLsbD k = false → produced c.b ≠ some k → t.token tile k = s.token tile k) ∧
          SameMemory s t) ∧
      (∀ d, c.reply = some d → c.slot < 4 → (s.thread tile c.slot).gid = c.gid → c.func = 0x3A#7 →
        let x := s.token tile (c.a.toNat % 64)
        x.poisoned = false →
        ∃ t v, exec e s = .next t ∧ Ended s t tile c .visible ∧
          (t.thread tile c.slot).reg d = (if d = 0#5 then 0#64 else v) ∧
          v.toNat % 256 = (match x.state with
            | .free => 0 | .pending => 1 | .read => 2 | .visible => 3 | .skipped => 4 | .faulted => 5 | .poison => 6) ∧
          v.toNat / 2 ^ 8 % 256 = x.cause.toNat ∧ v.getLsbD 16 = x.frozen ∧ v.toNat / 2 ^ 17 % 128 = x.func.toNat ∧
          v.toNat / 2 ^ 32 = x.prog % 2 ^ 32 ∧ SameMemory s t) ∧
      (∀ p n, s.wTarget tile c = some (p, n) →
        (c.func = 0x33#7 → ∃ t, exec e s = .next t ∧ Ended s t tile c .visible ∧
          t.readW p n = BitVec.ofNat 32 (c.b.toNat % 2 ^ 32) ∧
          (∀ q m, s.wKey q m ≠ s.wKey p n ∨ q.1 ≠ p.1 → t.readW q m = s.readW q m) ∧ SameMemory s t) ∧
        (∀ d, c.reply = some d → c.slot < 4 → (s.thread tile c.slot).gid = c.gid → c.func = 0x34#7 →
          s.wBad p n = false →
          ∃ t, exec e s = .next t ∧ Ended s t tile c .visible ∧
            (t.thread tile c.slot).reg d = (if d = 0#5 then 0#64 else (s.readW p n).setWidth 64) ∧
            (∀ q m, t.readW q m = s.readW q m) ∧ SameMemory s t)) ∧
      (c.func = 0x33#7 ∨ c.func = 0x34#7 → s.wTarget tile c = none →
        ∃ t, exec e s = .next t ∧ Ended s t tile c .faulted ∧ (∀ q m, t.readW q m = s.readW q m) ∧ SameMemory s t))

/-- Running commands: their last piece of work, and what the supervisor does with a frozen one (R279, R294, R379). -/
def Obligations.EnginesWorkAndFreeze : Prop :=
  EnginesCompleteTheirWork ∧ FrozenCommandsAreReleasedOrTerminated

/-- The pool: configuration wavefronts and passes (R355, R369, R373). -/
def Obligations.PoolsConfigureAndAccumulate : Prop := WavefrontsConfigureThePool ∧ PassesAccumulate

/-- What reaches a TE from outside: the elements of streams, and a new image (R85, R386). -/
def Obligations.TesAreFedAndConfigured : Prop := StreamsDeliverToColumns ∧ TakeoverConfiguresTheTe

/-- The units that serve the TEs of a tile: column units and the collector (R149, R177). -/
def Obligations.FabricUnitsServeTheTes : Prop := ColumnUnitsReply ∧ ControlTokensReachTheirThread

/-- The neighbour links: audits, failures of their counts, and dropped tokens (R189 to R191). -/
def Obligations.LinksAuditAndRecover : Prop := LinkAuditsRestoreTheCount ∧ DroppedTokensDiscardTheInstance

/-- The home of a chain: what it accepts, and what it answers (R169, R198, R199). -/
def Obligations.HomesAcceptAndReply : Prop := HomesAcceptChainAccesses ∧ ChainLoadsReply

/-- Chain-ordered memory: release, overflow and commit (R195, R208, R211, R229). -/
def Obligations.ChainsReleaseOverflowAndCommit : Prop :=
  ChainsReleaseInOrder ∧ ChainOverflowDiscardsTheInstance ∧ CommitsPerformWhatIsHeld

/-- The packets of the control network, requests to and from other dies and packages, and the links between them:
every part of this statement names its own rules, and the log entries of what in it is the model's choice: 10 (the
modules' numbers), 48 and 56 (replies to other packages), 54 (what packets carry), 55 and 57 (lost replies and ways). -/
def Obligations.NetworkAndLinksMoveOn : Prop :=
  EgressesGrantOneHead ∧ SettingsWritesResetTheArbiter ∧ LostRequestsEnd ∧ RemoteRequestsAreServed ∧
    ModulesFailAndReplay

/-- The requests of the host, what the supervisor and the management processor write and read, power samples, and errors
of storage; every part names its own rules (R234, R322, R323, R328, R332, R333, R342, R349 to R351, R415 to R420). The
telemetry indices and details of the management map (log entry 61) and what the host may reach and how it is refused (log
entries 62 and 71) are the model's choice, and so is the order of the octets of the digest in a report (log entry 15). -/
def Obligations.HostAndSupervisorAreServed : Prop :=
  HostRequestsAreAnswered ∧ ScrubsClearPoison ∧ InvalidationsDropTranslations ∧ ManagementWritesTakeEffect ∧
    CountersClearOnRead ∧ NoncesAreAttested ∧ SamplesSetTheDuty ∧ SramScrubsCountErrors ∧ UncorrectableErrorsPoison

/-- R413, R416: the resets of the package and of a die. What memory reads after them (log entries 2 and 60) and the
event counter of a reset die (log entry 60) are the model's choice. -/
def Obligations.PackageAndDieResets : Prop := ColdResetClearsThePackage ∧ DieResetClearsTheDie

/-- R355, R413: the reset of a partition, in every state. That the swapped context is reset as the running one, and that
an armed section ends, is the model's choice (log entry 60). -/
def Obligations.PartitionResetClearsItsTiles : Prop := Sys2Proof.Claims.PartitionResetClearsItsTiles

/-- R322, R414, R416: the boot, in every state and with every input; log entries 10 and 57 name what of it is the model's
choice. -/
def Obligations.BootGoesStepByStep : Prop := Sys2Proof.Claims.BootGoesStepByStep

/-- How graphs are launched and their groups placed, started and ended. What of it is the model's choice is marked in log
entries 50 (when STATE and FAULTS are written), 51 (what a start and an end clear, and what FAULTS counts) and 81 (a
launch register's bits 63:32). -/
def Obligations.GraphsRunTheirGroups : Prop :=
  LaunchesStartGraphs ∧ NodesBeginAndComplete ∧ PlacementsTakeWhatFits ∧ GroupsStartTheirThreads ∧ GroupsEndAndCount ∧
    BlocksGateAndWake ∧ ArmedRoundsMoveOn

/-- How a partition is stopped, swapped, resumed and terminated. -/
def Obligations.PartitionsStopAndResume : Prop := StopWavesStopTheirTiles ∧ PartitionsSwapResumeAndTerminate

/-- R43: s0 reads 0 and p0 reads 1, and a write to either, p0 as the complement of a pair among them, is discarded and
is no error: the word goes on, every register reads as before, and so does every predicate but a pd that is not p0 and,
with the pair bit, pd xor 1. -/
def Obligations.HardwiredRegistersStand : Prop :=
  (∀ (th : Thread) (n : Nat), th.regAt n 0#5 = 0#64 ∧ th.predAt n 0#4 = true) ∧
  (∀ (i : Instr) (c : Ctl) (lat : Nat) (f : Thread → Word) (s : State), RegisterWord i c 0#5 lat f →
    issues i c s = true →
    ∃ t, exec i s = .next t ∧ OnlyRegister s t 0#5 ∧ ∀ n r, t.cur.regAt n r = s.begin.cur.regAt n r) ∧
  ∀ (i : Instr) (c : Ctl) (pd : BitVec 4) (pair : Bool) (f : Thread → Bool) (s : State), PredicateWord i c pd pair f →
    issues i c s = true → pd = 0#4 ∨ (pair = true ∧ pd = 1#4) →
    ∃ t, exec i s = .next t ∧ t.cur.pc = s.cur.pc + 4#64 ∧ (∀ n, t.cur.predAt n 0#4 = true) ∧
      (∀ n p, p ≠ pd → (pair = true → p ≠ pd ^^^ 1#4) → t.cur.predAt n p = s.begin.cur.predAt n p) ∧
      ∀ n r, t.cur.regAt n r = s.begin.cur.regAt n r

/-- R12, R175, R254, R275, R355, R413, R414: after a cold reset BOOTSTATE is 0 and CYCLE counts from 0; no group, graph
or partition exists, no thread runs and no TE is configured; every token is FREE, every pool has the mode word 0 and
no bed, and every egress has AGE_MAX 32 and equal weights. -/
def Obligations.ResetLeavesNothingRunning : Prop :=
  let s := State.reset
  s.now = 0 ∧ s.pkg.bootState = 0#8 ∧ s.groups = [] ∧ s.parts = [] ∧ s.images = [] ∧ s.poison = [] ∧
    s.mem.wf = true ∧ (∀ a, s.mem.read a = Memory.unlisted) ∧
    ∀ tile,
      (∀ k, (s.thread tile k).status = .empty) ∧ (∀ k, (s.token tile k).state = .free) ∧
      (∀ c r, (s.te tile c r).slots = [] ∧ (s.te tile c r).started = false) ∧ (s.ctx tile).pool.mode = 0#64 ∧
      (s.ctx tile).pool.beds = [] ∧
      ∀ level unit e, bits (vget (s.switch level unit).egress e {}).settings 7 0 = 32 ∧
        ∀ p, p < 6 → bits (vget (s.switch level unit).egress e {}).settings (11 + 4 * p) (8 + 4 * p) = 1

/-- R39, R55, R57, R143, R241: a step with an issue on its agenda runs the instruction that the bytes at the pc of the
thread the scheduler chooses decode to, on that thread; a word that decodes to none runs as `illegal`; a word that
holds its thread runs again; the priority encoder of a TE runs its lowest ready slot; an event on the agenda runs as
it stands; and with nothing on the agenda a step makes the plan of the next cycle, which holds the issue of every tile
that a run has touched and the turn of every TE that runs. -/
def Obligations.StepRunsTheDecodedInstruction : Prop :=
  ∀ (s : State) (rest : List Action),
    let u : State := { s with agenda := rest }
    (∀ tile k l, s.agenda = .issue tile :: rest → u.winner tile = some k →
      u.textLoc tile (u.thread tile k).gid (u.thread tile k).sup (u.thread tile k).pc 4 = some l →
      let v : State := { u.aged tile k with focus := { u.focus with tile := tile, slot := k } }
      (∀ i, decode (u.mem.readBytes l 4) = .ok i → step s = exec i v) ∧
      (∀ x, decode (u.mem.readBytes l 4) = .error x →
        step s = exec (.illegal (BitVec.ofNat 32 (u.mem.readLe l 4))) v)) ∧
    (∀ tile, s.agenda = .issue tile :: rest → u.winner tile = none → step s = .next u) ∧
    (∀ tile k l i, s.agenda = .poll tile k :: rest → (u.thread tile k).waiting = true →
      (u.thread tile k).status = .running → (u.tile tile).stopped = false →
      u.textLoc tile (u.thread tile k).gid (u.thread tile k).sup (u.thread tile k).pc 4 = some l →
      decode (u.mem.readBytes l 4) = .ok i →
      step s = exec i { u with focus := { u.focus with tile := tile, slot := k } }) ∧
    (∀ tile col row k i, s.agenda = .te tile col row :: rest →
      u.firstReadySlot (tile, col, row) 0 (u.te tile col row).slots = some (k, i) →
      step s = exec i { u with focus := { u.focus with tile := tile, col := col, row := row, teSlot := k } }) ∧
    (∀ i, s.agenda = .event i :: rest → step s = exec i u) ∧
    (s.agenda = [] → ∃ l, step s = .next { s with agenda := l } ∧ (∀ tile ∈ s.tiles.keys, .issue tile ∈ l) ∧
      (∀ tile ∈ s.tiles.keys, ∀ k, k < 4 → (s.thread tile k).waiting = true → .poll tile k ∈ l) ∧
      ∀ tile ∈ s.tiles.keys, ∀ p ∈ s.tesOf tile, (s.teAt p).started = true → .te p.1 p.2.1 p.2.2 ∈ l)

/-- R39 to R46, R138 to R148: the bytes of every well-formed control word and of every well-formed element slot decode
to the instruction they were made from, with every operand at every value its encoding admits. -/
def Obligations.DecodingInvertsEncoding : Prop :=
  ∀ (i : Instr), i.wf = true →
    (∀ w, encodeWord i = some w → decode (encode i) = .ok i ∧ (encode i).length = 4 ∧
      decodeTableWord 32 w.toNat = some i) ∧
    (∀ w, encodeWord i = none → encodeSlot i = some w → decodeElement (encode i) = .ok i ∧ (encode i).length = 16 ∧
      decodeTableWord 128 w.toNat = some i)

/-- R6: every step keeps the memory in its one canonical form, with strictly rising addresses and no entry that an
unlisted address would read. -/
def Obligations.StepsKeepMemoryCanonical : Prop :=
  ∀ (s t : State), s.mem.wf = true → step s = .next t → t.mem.wf = true

/-- R39 to R48, R57: the words that the manual sets beside their source, in the table after R23, decode to the
instruction that they stand for, and 0xFFFFFFFF is none. -/
def Obligations.WordsOfTheManualDecode : Prop :=
  decode (leBytes 4 0x13002218) = .ok (.add ⟨1#4, 3#4⟩ 1#5 2#5 3#5) ∧
  decode (leBytes 4 0x001084FF) = .ok (.addi ⟨0#4, 0#4⟩ 4#5 4#5 0xFF#8) ∧
  decode (leBytes 4 0x0038910B) = .ok (.cmp ⟨0#4, 0#4⟩ 2#4 2#3 4#5 5#5 1#1) ∧
  decode (leBytes 4 0x0068C10B) = .ok (.ldsp ⟨0#4, 0#4⟩ 6#5 1#5 2#6 3#2) ∧
  decode (leBytes 4 0x0030FABC) = .ok (.setsh ⟨0#4, 0#4⟩ 7#5 0x1ABC#13) ∧
  decode (leBytes 4 0x024BFFFC) = .ok (.br ⟨0#4, 2#4⟩ 0x3FFFC#18) ∧
  decode (leBytes 4 0x00B85800) = .ok (.twait ⟨0#4, 0#4⟩ 5#6 2#2) ∧
  decode (leBytes 4 0x00C52111) = .ok (.pstat ⟨0#4, 0#4⟩ 9#5 1#5 2#5) ∧
  (decode (leBytes 4 0xFFFFFFFF)).toOption = none
end

