-- ==== Sys2Proof/Laws/State.lean ====
section
/-! SUPPORT. What each named update of the state leaves: one lemma for each field that it does not touch, and
what the field that it does touch holds afterwards. -/

namespace Sys2Proof.Machine

/-! ### s.setTile t x -/

@[simp] theorem setTile_now (s : State) (t : Nat) (x : Tile) : (s.setTile t x).now = s.now := rfl
@[simp] theorem setTile_agenda (s : State) (t : Nat) (x : Tile) : (s.setTile t x).agenda = s.agenda := rfl
@[simp] theorem setTile_focus (s : State) (t : Nat) (x : Tile) : (s.setTile t x).focus = s.focus := rfl
@[simp] theorem setTile_mem (s : State) (t : Nat) (x : Tile) : (s.setTile t x).mem = s.mem := rfl
@[simp] theorem setTile_poison (s : State) (t : Nat) (x : Tile) : (s.setTile t x).poison = s.poison := rfl
@[simp] theorem setTile_homes (s : State) (t : Nat) (x : Tile) : (s.setTile t x).homes = s.homes := rfl
@[simp] theorem setTile_images (s : State) (t : Nat) (x : Tile) : (s.setTile t x).images = s.images := rfl
@[simp] theorem setTile_switches (s : State) (t : Nat) (x : Tile) : (s.setTile t x).switches = s.switches := rfl
@[simp] theorem setTile_groups (s : State) (t : Nat) (x : Tile) : (s.setTile t x).groups = s.groups := rfl
@[simp] theorem setTile_seqs (s : State) (t : Nat) (x : Tile) : (s.setTile t x).seqs = s.seqs := rfl
@[simp] theorem setTile_parts (s : State) (t : Nat) (x : Tile) : (s.setTile t x).parts = s.parts := rfl
@[simp] theorem setTile_pkg (s : State) (t : Nat) (x : Tile) : (s.setTile t x).pkg = s.pkg := rfl
@[simp] theorem setTile_nextId (s : State) (t : Nat) (x : Tile) : (s.setTile t x).nextId = s.nextId := rfl
@[simp] theorem setTile_free (s : State) (t : Nat) (x : Tile) : (s.setTile t x).free = s.free := rfl

/-! ### s.modTile t f -/

@[simp] theorem modTile_now (s : State) (t : Nat) (f : Tile → Tile) : (s.modTile t f).now = s.now := rfl
@[simp] theorem modTile_agenda (s : State) (t : Nat) (f : Tile → Tile) : (s.modTile t f).agenda = s.agenda := rfl
@[simp] theorem modTile_focus (s : State) (t : Nat) (f : Tile → Tile) : (s.modTile t f).focus = s.focus := rfl
@[simp] theorem modTile_mem (s : State) (t : Nat) (f : Tile → Tile) : (s.modTile t f).mem = s.mem := rfl
@[simp] theorem modTile_poison (s : State) (t : Nat) (f : Tile → Tile) : (s.modTile t f).poison = s.poison := rfl
@[simp] theorem modTile_homes (s : State) (t : Nat) (f : Tile → Tile) : (s.modTile t f).homes = s.homes := rfl
@[simp] theorem modTile_images (s : State) (t : Nat) (f : Tile → Tile) : (s.modTile t f).images = s.images := rfl
@[simp] theorem modTile_switches (s : State) (t : Nat) (f : Tile → Tile) : (s.modTile t f).switches = s.switches := rfl
@[simp] theorem modTile_groups (s : State) (t : Nat) (f : Tile → Tile) : (s.modTile t f).groups = s.groups := rfl
@[simp] theorem modTile_seqs (s : State) (t : Nat) (f : Tile → Tile) : (s.modTile t f).seqs = s.seqs := rfl
@[simp] theorem modTile_parts (s : State) (t : Nat) (f : Tile → Tile) : (s.modTile t f).parts = s.parts := rfl
@[simp] theorem modTile_pkg (s : State) (t : Nat) (f : Tile → Tile) : (s.modTile t f).pkg = s.pkg := rfl
@[simp] theorem modTile_nextId (s : State) (t : Nat) (f : Tile → Tile) : (s.modTile t f).nextId = s.nextId := rfl
@[simp] theorem modTile_free (s : State) (t : Nat) (f : Tile → Tile) : (s.modTile t f).free = s.free := rfl

/-! ### s.modCtx t f -/

@[simp] theorem modCtx_now (s : State) (t : Nat) (f : Context → Context) : (s.modCtx t f).now = s.now := rfl
@[simp] theorem modCtx_agenda (s : State) (t : Nat) (f : Context → Context) : (s.modCtx t f).agenda = s.agenda := rfl
@[simp] theorem modCtx_focus (s : State) (t : Nat) (f : Context → Context) : (s.modCtx t f).focus = s.focus := rfl
@[simp] theorem modCtx_mem (s : State) (t : Nat) (f : Context → Context) : (s.modCtx t f).mem = s.mem := rfl
@[simp] theorem modCtx_poison (s : State) (t : Nat) (f : Context → Context) : (s.modCtx t f).poison = s.poison := rfl
@[simp] theorem modCtx_homes (s : State) (t : Nat) (f : Context → Context) : (s.modCtx t f).homes = s.homes := rfl
@[simp] theorem modCtx_images (s : State) (t : Nat) (f : Context → Context) : (s.modCtx t f).images = s.images := rfl
@[simp] theorem modCtx_switches (s : State) (t : Nat) (f : Context → Context) : (s.modCtx t f).switches = s.switches := rfl
@[simp] theorem modCtx_groups (s : State) (t : Nat) (f : Context → Context) : (s.modCtx t f).groups = s.groups := rfl
@[simp] theorem modCtx_seqs (s : State) (t : Nat) (f : Context → Context) : (s.modCtx t f).seqs = s.seqs := rfl
@[simp] theorem modCtx_parts (s : State) (t : Nat) (f : Context → Context) : (s.modCtx t f).parts = s.parts := rfl
@[simp] theorem modCtx_pkg (s : State) (t : Nat) (f : Context → Context) : (s.modCtx t f).pkg = s.pkg := rfl
@[simp] theorem modCtx_nextId (s : State) (t : Nat) (f : Context → Context) : (s.modCtx t f).nextId = s.nextId := rfl
@[simp] theorem modCtx_free (s : State) (t : Nat) (f : Context → Context) : (s.modCtx t f).free = s.free := rfl

/-! ### s.setThread t k th -/

@[simp] theorem setThread_now (s : State) (t k : Nat) (th : Thread) : (s.setThread t k th).now = s.now := rfl
@[simp] theorem setThread_agenda (s : State) (t k : Nat) (th : Thread) : (s.setThread t k th).agenda = s.agenda := rfl
@[simp] theorem setThread_focus (s : State) (t k : Nat) (th : Thread) : (s.setThread t k th).focus = s.focus := rfl
@[simp] theorem setThread_mem (s : State) (t k : Nat) (th : Thread) : (s.setThread t k th).mem = s.mem := rfl
@[simp] theorem setThread_poison (s : State) (t k : Nat) (th : Thread) : (s.setThread t k th).poison = s.poison := rfl
@[simp] theorem setThread_homes (s : State) (t k : Nat) (th : Thread) : (s.setThread t k th).homes = s.homes := rfl
@[simp] theorem setThread_images (s : State) (t k : Nat) (th : Thread) : (s.setThread t k th).images = s.images := rfl
@[simp] theorem setThread_switches (s : State) (t k : Nat) (th : Thread) : (s.setThread t k th).switches = s.switches := rfl
@[simp] theorem setThread_groups (s : State) (t k : Nat) (th : Thread) : (s.setThread t k th).groups = s.groups := rfl
@[simp] theorem setThread_seqs (s : State) (t k : Nat) (th : Thread) : (s.setThread t k th).seqs = s.seqs := rfl
@[simp] theorem setThread_parts (s : State) (t k : Nat) (th : Thread) : (s.setThread t k th).parts = s.parts := rfl
@[simp] theorem setThread_pkg (s : State) (t k : Nat) (th : Thread) : (s.setThread t k th).pkg = s.pkg := rfl
@[simp] theorem setThread_nextId (s : State) (t k : Nat) (th : Thread) : (s.setThread t k th).nextId = s.nextId := rfl
@[simp] theorem setThread_free (s : State) (t k : Nat) (th : Thread) : (s.setThread t k th).free = s.free := rfl

/-! ### s.modThread t k f -/

@[simp] theorem modThread_now (s : State) (t k : Nat) (f : Thread → Thread) : (s.modThread t k f).now = s.now := rfl
@[simp] theorem modThread_agenda (s : State) (t k : Nat) (f : Thread → Thread) : (s.modThread t k f).agenda = s.agenda := rfl
@[simp] theorem modThread_focus (s : State) (t k : Nat) (f : Thread → Thread) : (s.modThread t k f).focus = s.focus := rfl
@[simp] theorem modThread_mem (s : State) (t k : Nat) (f : Thread → Thread) : (s.modThread t k f).mem = s.mem := rfl
@[simp] theorem modThread_poison (s : State) (t k : Nat) (f : Thread → Thread) : (s.modThread t k f).poison = s.poison := rfl
@[simp] theorem modThread_homes (s : State) (t k : Nat) (f : Thread → Thread) : (s.modThread t k f).homes = s.homes := rfl
@[simp] theorem modThread_images (s : State) (t k : Nat) (f : Thread → Thread) : (s.modThread t k f).images = s.images := rfl
@[simp] theorem modThread_switches (s : State) (t k : Nat) (f : Thread → Thread) : (s.modThread t k f).switches = s.switches := rfl
@[simp] theorem modThread_groups (s : State) (t k : Nat) (f : Thread → Thread) : (s.modThread t k f).groups = s.groups := rfl
@[simp] theorem modThread_seqs (s : State) (t k : Nat) (f : Thread → Thread) : (s.modThread t k f).seqs = s.seqs := rfl
@[simp] theorem modThread_parts (s : State) (t k : Nat) (f : Thread → Thread) : (s.modThread t k f).parts = s.parts := rfl
@[simp] theorem modThread_pkg (s : State) (t k : Nat) (f : Thread → Thread) : (s.modThread t k f).pkg = s.pkg := rfl
@[simp] theorem modThread_nextId (s : State) (t k : Nat) (f : Thread → Thread) : (s.modThread t k f).nextId = s.nextId := rfl
@[simp] theorem modThread_free (s : State) (t k : Nat) (f : Thread → Thread) : (s.modThread t k f).free = s.free := rfl

/-! ### s.setCur th -/

@[simp] theorem setCur_now (s : State) (th : Thread) : (s.setCur th).now = s.now := rfl
@[simp] theorem setCur_agenda (s : State) (th : Thread) : (s.setCur th).agenda = s.agenda := rfl
@[simp] theorem setCur_focus (s : State) (th : Thread) : (s.setCur th).focus = s.focus := rfl
@[simp] theorem setCur_mem (s : State) (th : Thread) : (s.setCur th).mem = s.mem := rfl
@[simp] theorem setCur_poison (s : State) (th : Thread) : (s.setCur th).poison = s.poison := rfl
@[simp] theorem setCur_homes (s : State) (th : Thread) : (s.setCur th).homes = s.homes := rfl
@[simp] theorem setCur_images (s : State) (th : Thread) : (s.setCur th).images = s.images := rfl
@[simp] theorem setCur_switches (s : State) (th : Thread) : (s.setCur th).switches = s.switches := rfl
@[simp] theorem setCur_groups (s : State) (th : Thread) : (s.setCur th).groups = s.groups := rfl
@[simp] theorem setCur_seqs (s : State) (th : Thread) : (s.setCur th).seqs = s.seqs := rfl
@[simp] theorem setCur_parts (s : State) (th : Thread) : (s.setCur th).parts = s.parts := rfl
@[simp] theorem setCur_pkg (s : State) (th : Thread) : (s.setCur th).pkg = s.pkg := rfl
@[simp] theorem setCur_nextId (s : State) (th : Thread) : (s.setCur th).nextId = s.nextId := rfl
@[simp] theorem setCur_free (s : State) (th : Thread) : (s.setCur th).free = s.free := rfl

/-! ### s.modCur f -/

@[simp] theorem modCur_now (s : State) (f : Thread → Thread) : (s.modCur f).now = s.now := rfl
@[simp] theorem modCur_agenda (s : State) (f : Thread → Thread) : (s.modCur f).agenda = s.agenda := rfl
@[simp] theorem modCur_focus (s : State) (f : Thread → Thread) : (s.modCur f).focus = s.focus := rfl
@[simp] theorem modCur_mem (s : State) (f : Thread → Thread) : (s.modCur f).mem = s.mem := rfl
@[simp] theorem modCur_poison (s : State) (f : Thread → Thread) : (s.modCur f).poison = s.poison := rfl
@[simp] theorem modCur_homes (s : State) (f : Thread → Thread) : (s.modCur f).homes = s.homes := rfl
@[simp] theorem modCur_images (s : State) (f : Thread → Thread) : (s.modCur f).images = s.images := rfl
@[simp] theorem modCur_switches (s : State) (f : Thread → Thread) : (s.modCur f).switches = s.switches := rfl
@[simp] theorem modCur_groups (s : State) (f : Thread → Thread) : (s.modCur f).groups = s.groups := rfl
@[simp] theorem modCur_seqs (s : State) (f : Thread → Thread) : (s.modCur f).seqs = s.seqs := rfl
@[simp] theorem modCur_parts (s : State) (f : Thread → Thread) : (s.modCur f).parts = s.parts := rfl
@[simp] theorem modCur_pkg (s : State) (f : Thread → Thread) : (s.modCur f).pkg = s.pkg := rfl
@[simp] theorem modCur_nextId (s : State) (f : Thread → Thread) : (s.modCur f).nextId = s.nextId := rfl
@[simp] theorem modCur_free (s : State) (f : Thread → Thread) : (s.modCur f).free = s.free := rfl

/-! ### s.setTe t c r e -/

@[simp] theorem setTe_now (s : State) (t c r : Nat) (e : TE) : (s.setTe t c r e).now = s.now := rfl
@[simp] theorem setTe_agenda (s : State) (t c r : Nat) (e : TE) : (s.setTe t c r e).agenda = s.agenda := rfl
@[simp] theorem setTe_focus (s : State) (t c r : Nat) (e : TE) : (s.setTe t c r e).focus = s.focus := rfl
@[simp] theorem setTe_mem (s : State) (t c r : Nat) (e : TE) : (s.setTe t c r e).mem = s.mem := rfl
@[simp] theorem setTe_poison (s : State) (t c r : Nat) (e : TE) : (s.setTe t c r e).poison = s.poison := rfl
@[simp] theorem setTe_homes (s : State) (t c r : Nat) (e : TE) : (s.setTe t c r e).homes = s.homes := rfl
@[simp] theorem setTe_images (s : State) (t c r : Nat) (e : TE) : (s.setTe t c r e).images = s.images := rfl
@[simp] theorem setTe_switches (s : State) (t c r : Nat) (e : TE) : (s.setTe t c r e).switches = s.switches := rfl
@[simp] theorem setTe_groups (s : State) (t c r : Nat) (e : TE) : (s.setTe t c r e).groups = s.groups := rfl
@[simp] theorem setTe_seqs (s : State) (t c r : Nat) (e : TE) : (s.setTe t c r e).seqs = s.seqs := rfl
@[simp] theorem setTe_parts (s : State) (t c r : Nat) (e : TE) : (s.setTe t c r e).parts = s.parts := rfl
@[simp] theorem setTe_pkg (s : State) (t c r : Nat) (e : TE) : (s.setTe t c r e).pkg = s.pkg := rfl
@[simp] theorem setTe_nextId (s : State) (t c r : Nat) (e : TE) : (s.setTe t c r e).nextId = s.nextId := rfl
@[simp] theorem setTe_free (s : State) (t c r : Nat) (e : TE) : (s.setTe t c r e).free = s.free := rfl

/-! ### s.modTe t c r f -/

@[simp] theorem modTe_now (s : State) (t c r : Nat) (f : TE → TE) : (s.modTe t c r f).now = s.now := rfl
@[simp] theorem modTe_agenda (s : State) (t c r : Nat) (f : TE → TE) : (s.modTe t c r f).agenda = s.agenda := rfl
@[simp] theorem modTe_focus (s : State) (t c r : Nat) (f : TE → TE) : (s.modTe t c r f).focus = s.focus := rfl
@[simp] theorem modTe_mem (s : State) (t c r : Nat) (f : TE → TE) : (s.modTe t c r f).mem = s.mem := rfl
@[simp] theorem modTe_poison (s : State) (t c r : Nat) (f : TE → TE) : (s.modTe t c r f).poison = s.poison := rfl
@[simp] theorem modTe_homes (s : State) (t c r : Nat) (f : TE → TE) : (s.modTe t c r f).homes = s.homes := rfl
@[simp] theorem modTe_images (s : State) (t c r : Nat) (f : TE → TE) : (s.modTe t c r f).images = s.images := rfl
@[simp] theorem modTe_switches (s : State) (t c r : Nat) (f : TE → TE) : (s.modTe t c r f).switches = s.switches := rfl
@[simp] theorem modTe_groups (s : State) (t c r : Nat) (f : TE → TE) : (s.modTe t c r f).groups = s.groups := rfl
@[simp] theorem modTe_seqs (s : State) (t c r : Nat) (f : TE → TE) : (s.modTe t c r f).seqs = s.seqs := rfl
@[simp] theorem modTe_parts (s : State) (t c r : Nat) (f : TE → TE) : (s.modTe t c r f).parts = s.parts := rfl
@[simp] theorem modTe_pkg (s : State) (t c r : Nat) (f : TE → TE) : (s.modTe t c r f).pkg = s.pkg := rfl
@[simp] theorem modTe_nextId (s : State) (t c r : Nat) (f : TE → TE) : (s.modTe t c r f).nextId = s.nextId := rfl
@[simp] theorem modTe_free (s : State) (t c r : Nat) (f : TE → TE) : (s.modTe t c r f).free = s.free := rfl

/-! ### s.modTeAt p f -/

@[simp] theorem modTeAt_now (s : State) (p : TeId) (f : TE → TE) : (s.modTeAt p f).now = s.now := rfl
@[simp] theorem modTeAt_agenda (s : State) (p : TeId) (f : TE → TE) : (s.modTeAt p f).agenda = s.agenda := rfl
@[simp] theorem modTeAt_focus (s : State) (p : TeId) (f : TE → TE) : (s.modTeAt p f).focus = s.focus := rfl
@[simp] theorem modTeAt_mem (s : State) (p : TeId) (f : TE → TE) : (s.modTeAt p f).mem = s.mem := rfl
@[simp] theorem modTeAt_poison (s : State) (p : TeId) (f : TE → TE) : (s.modTeAt p f).poison = s.poison := rfl
@[simp] theorem modTeAt_homes (s : State) (p : TeId) (f : TE → TE) : (s.modTeAt p f).homes = s.homes := rfl
@[simp] theorem modTeAt_images (s : State) (p : TeId) (f : TE → TE) : (s.modTeAt p f).images = s.images := rfl
@[simp] theorem modTeAt_switches (s : State) (p : TeId) (f : TE → TE) : (s.modTeAt p f).switches = s.switches := rfl
@[simp] theorem modTeAt_groups (s : State) (p : TeId) (f : TE → TE) : (s.modTeAt p f).groups = s.groups := rfl
@[simp] theorem modTeAt_seqs (s : State) (p : TeId) (f : TE → TE) : (s.modTeAt p f).seqs = s.seqs := rfl
@[simp] theorem modTeAt_parts (s : State) (p : TeId) (f : TE → TE) : (s.modTeAt p f).parts = s.parts := rfl
@[simp] theorem modTeAt_pkg (s : State) (p : TeId) (f : TE → TE) : (s.modTeAt p f).pkg = s.pkg := rfl
@[simp] theorem modTeAt_nextId (s : State) (p : TeId) (f : TE → TE) : (s.modTeAt p f).nextId = s.nextId := rfl
@[simp] theorem modTeAt_free (s : State) (p : TeId) (f : TE → TE) : (s.modTeAt p f).free = s.free := rfl

/-! ### s.modToken t k f -/

@[simp] theorem modToken_now (s : State) (t k : Nat) (f : TokenSlot → TokenSlot) : (s.modToken t k f).now = s.now := rfl
@[simp] theorem modToken_agenda (s : State) (t k : Nat) (f : TokenSlot → TokenSlot) : (s.modToken t k f).agenda = s.agenda := rfl
@[simp] theorem modToken_focus (s : State) (t k : Nat) (f : TokenSlot → TokenSlot) : (s.modToken t k f).focus = s.focus := rfl
@[simp] theorem modToken_mem (s : State) (t k : Nat) (f : TokenSlot → TokenSlot) : (s.modToken t k f).mem = s.mem := rfl
@[simp] theorem modToken_poison (s : State) (t k : Nat) (f : TokenSlot → TokenSlot) : (s.modToken t k f).poison = s.poison := rfl
@[simp] theorem modToken_homes (s : State) (t k : Nat) (f : TokenSlot → TokenSlot) : (s.modToken t k f).homes = s.homes := rfl
@[simp] theorem modToken_images (s : State) (t k : Nat) (f : TokenSlot → TokenSlot) : (s.modToken t k f).images = s.images := rfl
@[simp] theorem modToken_switches (s : State) (t k : Nat) (f : TokenSlot → TokenSlot) : (s.modToken t k f).switches = s.switches := rfl
@[simp] theorem modToken_groups (s : State) (t k : Nat) (f : TokenSlot → TokenSlot) : (s.modToken t k f).groups = s.groups := rfl
@[simp] theorem modToken_seqs (s : State) (t k : Nat) (f : TokenSlot → TokenSlot) : (s.modToken t k f).seqs = s.seqs := rfl
@[simp] theorem modToken_parts (s : State) (t k : Nat) (f : TokenSlot → TokenSlot) : (s.modToken t k f).parts = s.parts := rfl
@[simp] theorem modToken_pkg (s : State) (t k : Nat) (f : TokenSlot → TokenSlot) : (s.modToken t k f).pkg = s.pkg := rfl
@[simp] theorem modToken_nextId (s : State) (t k : Nat) (f : TokenSlot → TokenSlot) : (s.modToken t k f).nextId = s.nextId := rfl
@[simp] theorem modToken_free (s : State) (t k : Nat) (f : TokenSlot → TokenSlot) : (s.modToken t k f).free = s.free := rfl

/-! ### s.modCmd t k f -/

@[simp] theorem modCmd_now (s : State) (t k : Nat) (f : Cmd → Cmd) : (s.modCmd t k f).now = s.now := rfl
@[simp] theorem modCmd_agenda (s : State) (t k : Nat) (f : Cmd → Cmd) : (s.modCmd t k f).agenda = s.agenda := rfl
@[simp] theorem modCmd_focus (s : State) (t k : Nat) (f : Cmd → Cmd) : (s.modCmd t k f).focus = s.focus := rfl
@[simp] theorem modCmd_mem (s : State) (t k : Nat) (f : Cmd → Cmd) : (s.modCmd t k f).mem = s.mem := rfl
@[simp] theorem modCmd_poison (s : State) (t k : Nat) (f : Cmd → Cmd) : (s.modCmd t k f).poison = s.poison := rfl
@[simp] theorem modCmd_homes (s : State) (t k : Nat) (f : Cmd → Cmd) : (s.modCmd t k f).homes = s.homes := rfl
@[simp] theorem modCmd_images (s : State) (t k : Nat) (f : Cmd → Cmd) : (s.modCmd t k f).images = s.images := rfl
@[simp] theorem modCmd_switches (s : State) (t k : Nat) (f : Cmd → Cmd) : (s.modCmd t k f).switches = s.switches := rfl
@[simp] theorem modCmd_groups (s : State) (t k : Nat) (f : Cmd → Cmd) : (s.modCmd t k f).groups = s.groups := rfl
@[simp] theorem modCmd_seqs (s : State) (t k : Nat) (f : Cmd → Cmd) : (s.modCmd t k f).seqs = s.seqs := rfl
@[simp] theorem modCmd_parts (s : State) (t k : Nat) (f : Cmd → Cmd) : (s.modCmd t k f).parts = s.parts := rfl
@[simp] theorem modCmd_pkg (s : State) (t k : Nat) (f : Cmd → Cmd) : (s.modCmd t k f).pkg = s.pkg := rfl
@[simp] theorem modCmd_nextId (s : State) (t k : Nat) (f : Cmd → Cmd) : (s.modCmd t k f).nextId = s.nextId := rfl
@[simp] theorem modCmd_free (s : State) (t k : Nat) (f : Cmd → Cmd) : (s.modCmd t k f).free = s.free := rfl

/-! ### s.begin -/

@[simp] theorem beginCycle_now (s : State) : (s.begin).now = s.now := rfl
@[simp] theorem beginCycle_agenda (s : State) : (s.begin).agenda = s.agenda := rfl
@[simp] theorem beginCycle_focus (s : State) : (s.begin).focus = s.focus := rfl
@[simp] theorem beginCycle_mem (s : State) : (s.begin).mem = s.mem := rfl
@[simp] theorem beginCycle_poison (s : State) : (s.begin).poison = s.poison := rfl
@[simp] theorem beginCycle_homes (s : State) : (s.begin).homes = s.homes := rfl
@[simp] theorem beginCycle_images (s : State) : (s.begin).images = s.images := rfl
@[simp] theorem beginCycle_switches (s : State) : (s.begin).switches = s.switches := rfl
@[simp] theorem beginCycle_groups (s : State) : (s.begin).groups = s.groups := rfl
@[simp] theorem beginCycle_seqs (s : State) : (s.begin).seqs = s.seqs := rfl
@[simp] theorem beginCycle_parts (s : State) : (s.begin).parts = s.parts := rfl
@[simp] theorem beginCycle_pkg (s : State) : (s.begin).pkg = s.pkg := rfl
@[simp] theorem beginCycle_nextId (s : State) : (s.begin).nextId = s.nextId := rfl
@[simp] theorem beginCycle_free (s : State) : (s.begin).free = s.free := rfl

/-! ### s.setSwitch l u w -/

@[simp] theorem setSwitch_now (s : State) (l u : Nat) (w : Switch) : (s.setSwitch l u w).now = s.now := rfl
@[simp] theorem setSwitch_agenda (s : State) (l u : Nat) (w : Switch) : (s.setSwitch l u w).agenda = s.agenda := rfl
@[simp] theorem setSwitch_focus (s : State) (l u : Nat) (w : Switch) : (s.setSwitch l u w).focus = s.focus := rfl
@[simp] theorem setSwitch_mem (s : State) (l u : Nat) (w : Switch) : (s.setSwitch l u w).mem = s.mem := rfl
@[simp] theorem setSwitch_poison (s : State) (l u : Nat) (w : Switch) : (s.setSwitch l u w).poison = s.poison := rfl
@[simp] theorem setSwitch_tiles (s : State) (l u : Nat) (w : Switch) : (s.setSwitch l u w).tiles = s.tiles := rfl
@[simp] theorem setSwitch_homes (s : State) (l u : Nat) (w : Switch) : (s.setSwitch l u w).homes = s.homes := rfl
@[simp] theorem setSwitch_images (s : State) (l u : Nat) (w : Switch) : (s.setSwitch l u w).images = s.images := rfl
@[simp] theorem setSwitch_groups (s : State) (l u : Nat) (w : Switch) : (s.setSwitch l u w).groups = s.groups := rfl
@[simp] theorem setSwitch_seqs (s : State) (l u : Nat) (w : Switch) : (s.setSwitch l u w).seqs = s.seqs := rfl
@[simp] theorem setSwitch_parts (s : State) (l u : Nat) (w : Switch) : (s.setSwitch l u w).parts = s.parts := rfl
@[simp] theorem setSwitch_pkg (s : State) (l u : Nat) (w : Switch) : (s.setSwitch l u w).pkg = s.pkg := rfl
@[simp] theorem setSwitch_nextId (s : State) (l u : Nat) (w : Switch) : (s.setSwitch l u w).nextId = s.nextId := rfl
@[simp] theorem setSwitch_free (s : State) (l u : Nat) (w : Switch) : (s.setSwitch l u w).free = s.free := rfl

/-! ### s.present t p -/

@[simp] theorem present_now (s : State) (t : Nat) (p : Packet) : (s.present t p).now = s.now := rfl
@[simp] theorem present_agenda (s : State) (t : Nat) (p : Packet) : (s.present t p).agenda = s.agenda := rfl
@[simp] theorem present_focus (s : State) (t : Nat) (p : Packet) : (s.present t p).focus = s.focus := rfl
@[simp] theorem present_mem (s : State) (t : Nat) (p : Packet) : (s.present t p).mem = s.mem := rfl
@[simp] theorem present_poison (s : State) (t : Nat) (p : Packet) : (s.present t p).poison = s.poison := rfl
@[simp] theorem present_homes (s : State) (t : Nat) (p : Packet) : (s.present t p).homes = s.homes := rfl
@[simp] theorem present_images (s : State) (t : Nat) (p : Packet) : (s.present t p).images = s.images := rfl
@[simp] theorem present_switches (s : State) (t : Nat) (p : Packet) : (s.present t p).switches = s.switches := rfl
@[simp] theorem present_groups (s : State) (t : Nat) (p : Packet) : (s.present t p).groups = s.groups := rfl
@[simp] theorem present_seqs (s : State) (t : Nat) (p : Packet) : (s.present t p).seqs = s.seqs := rfl
@[simp] theorem present_parts (s : State) (t : Nat) (p : Packet) : (s.present t p).parts = s.parts := rfl
@[simp] theorem present_pkg (s : State) (t : Nat) (p : Packet) : (s.present t p).pkg = s.pkg := rfl
@[simp] theorem present_nextId (s : State) (t : Nat) (p : Packet) : (s.present t p).nextId = s.nextId := rfl
@[simp] theorem present_free (s : State) (t : Nat) (p : Packet) : (s.present t p).free = s.free := rfl

/-! ### s.enterAt l u n p -/

@[simp] theorem enterAt_now (s : State) (l u n : Nat) (p : Packet) : (s.enterAt l u n p).now = s.now := rfl
@[simp] theorem enterAt_agenda (s : State) (l u n : Nat) (p : Packet) : (s.enterAt l u n p).agenda = s.agenda := rfl
@[simp] theorem enterAt_focus (s : State) (l u n : Nat) (p : Packet) : (s.enterAt l u n p).focus = s.focus := rfl
@[simp] theorem enterAt_mem (s : State) (l u n : Nat) (p : Packet) : (s.enterAt l u n p).mem = s.mem := rfl
@[simp] theorem enterAt_poison (s : State) (l u n : Nat) (p : Packet) : (s.enterAt l u n p).poison = s.poison := rfl
@[simp] theorem enterAt_tiles (s : State) (l u n : Nat) (p : Packet) : (s.enterAt l u n p).tiles = s.tiles := rfl
@[simp] theorem enterAt_homes (s : State) (l u n : Nat) (p : Packet) : (s.enterAt l u n p).homes = s.homes := rfl
@[simp] theorem enterAt_images (s : State) (l u n : Nat) (p : Packet) : (s.enterAt l u n p).images = s.images := rfl
@[simp] theorem enterAt_groups (s : State) (l u n : Nat) (p : Packet) : (s.enterAt l u n p).groups = s.groups := rfl
@[simp] theorem enterAt_seqs (s : State) (l u n : Nat) (p : Packet) : (s.enterAt l u n p).seqs = s.seqs := rfl
@[simp] theorem enterAt_parts (s : State) (l u n : Nat) (p : Packet) : (s.enterAt l u n p).parts = s.parts := rfl
@[simp] theorem enterAt_pkg (s : State) (l u n : Nat) (p : Packet) : (s.enterAt l u n p).pkg = s.pkg := rfl
@[simp] theorem enterAt_nextId (s : State) (l u n : Nat) (p : Packet) : (s.enterAt l u n p).nextId = s.nextId := rfl
@[simp] theorem enterAt_free (s : State) (l u n : Nat) (p : Packet) : (s.enterAt l u n p).free = s.free := rfl

/-! ### s.replyFrom t e x p n o l -/

@[simp] theorem replyFrom_now (s : State) (t : Nat) (e : Bool) (x : Space) (p n o : Nat) (l : Payload) : (s.replyFrom t e x p n o l).now = s.now := rfl
@[simp] theorem replyFrom_agenda (s : State) (t : Nat) (e : Bool) (x : Space) (p n o : Nat) (l : Payload) : (s.replyFrom t e x p n o l).agenda = s.agenda := rfl
@[simp] theorem replyFrom_focus (s : State) (t : Nat) (e : Bool) (x : Space) (p n o : Nat) (l : Payload) : (s.replyFrom t e x p n o l).focus = s.focus := rfl
@[simp] theorem replyFrom_mem (s : State) (t : Nat) (e : Bool) (x : Space) (p n o : Nat) (l : Payload) : (s.replyFrom t e x p n o l).mem = s.mem := rfl
@[simp] theorem replyFrom_poison (s : State) (t : Nat) (e : Bool) (x : Space) (p n o : Nat) (l : Payload) : (s.replyFrom t e x p n o l).poison = s.poison := rfl
@[simp] theorem replyFrom_tiles (s : State) (t : Nat) (e : Bool) (x : Space) (p n o : Nat) (l : Payload) : (s.replyFrom t e x p n o l).tiles = s.tiles := rfl
@[simp] theorem replyFrom_homes (s : State) (t : Nat) (e : Bool) (x : Space) (p n o : Nat) (l : Payload) : (s.replyFrom t e x p n o l).homes = s.homes := rfl
@[simp] theorem replyFrom_images (s : State) (t : Nat) (e : Bool) (x : Space) (p n o : Nat) (l : Payload) : (s.replyFrom t e x p n o l).images = s.images := rfl
@[simp] theorem replyFrom_groups (s : State) (t : Nat) (e : Bool) (x : Space) (p n o : Nat) (l : Payload) : (s.replyFrom t e x p n o l).groups = s.groups := rfl
@[simp] theorem replyFrom_seqs (s : State) (t : Nat) (e : Bool) (x : Space) (p n o : Nat) (l : Payload) : (s.replyFrom t e x p n o l).seqs = s.seqs := rfl
@[simp] theorem replyFrom_parts (s : State) (t : Nat) (e : Bool) (x : Space) (p n o : Nat) (l : Payload) : (s.replyFrom t e x p n o l).parts = s.parts := rfl
@[simp] theorem replyFrom_pkg (s : State) (t : Nat) (e : Bool) (x : Space) (p n o : Nat) (l : Payload) : (s.replyFrom t e x p n o l).pkg = s.pkg := rfl
@[simp] theorem replyFrom_nextId (s : State) (t : Nat) (e : Bool) (x : Space) (p n o : Nat) (l : Payload) : (s.replyFrom t e x p n o l).nextId = s.nextId := rfl
@[simp] theorem replyFrom_free (s : State) (t : Nat) (e : Bool) (x : Space) (p n o : Nat) (l : Payload) : (s.replyFrom t e x p n o l).free = s.free := rfl

/-! ### s.modSeqr p f -/

@[simp] theorem modSeqr_now (s : State) (p : Nat) (f : Sequencer → Sequencer) : (s.modSeqr p f).now = s.now := rfl
@[simp] theorem modSeqr_agenda (s : State) (p : Nat) (f : Sequencer → Sequencer) : (s.modSeqr p f).agenda = s.agenda := rfl
@[simp] theorem modSeqr_focus (s : State) (p : Nat) (f : Sequencer → Sequencer) : (s.modSeqr p f).focus = s.focus := rfl
@[simp] theorem modSeqr_mem (s : State) (p : Nat) (f : Sequencer → Sequencer) : (s.modSeqr p f).mem = s.mem := rfl
@[simp] theorem modSeqr_poison (s : State) (p : Nat) (f : Sequencer → Sequencer) : (s.modSeqr p f).poison = s.poison := rfl
@[simp] theorem modSeqr_tiles (s : State) (p : Nat) (f : Sequencer → Sequencer) : (s.modSeqr p f).tiles = s.tiles := rfl
@[simp] theorem modSeqr_homes (s : State) (p : Nat) (f : Sequencer → Sequencer) : (s.modSeqr p f).homes = s.homes := rfl
@[simp] theorem modSeqr_images (s : State) (p : Nat) (f : Sequencer → Sequencer) : (s.modSeqr p f).images = s.images := rfl
@[simp] theorem modSeqr_switches (s : State) (p : Nat) (f : Sequencer → Sequencer) : (s.modSeqr p f).switches = s.switches := rfl
@[simp] theorem modSeqr_groups (s : State) (p : Nat) (f : Sequencer → Sequencer) : (s.modSeqr p f).groups = s.groups := rfl
@[simp] theorem modSeqr_parts (s : State) (p : Nat) (f : Sequencer → Sequencer) : (s.modSeqr p f).parts = s.parts := rfl
@[simp] theorem modSeqr_pkg (s : State) (p : Nat) (f : Sequencer → Sequencer) : (s.modSeqr p f).pkg = s.pkg := rfl
@[simp] theorem modSeqr_nextId (s : State) (p : Nat) (f : Sequencer → Sequencer) : (s.modSeqr p f).nextId = s.nextId := rfl
@[simp] theorem modSeqr_free (s : State) (p : Nat) (f : Sequencer → Sequencer) : (s.modSeqr p f).free = s.free := rfl

/-! ### s.modGraph p g f -/

@[simp] theorem modGraph_now (s : State) (p g : Nat) (f : Graph → Graph) : (s.modGraph p g f).now = s.now := rfl
@[simp] theorem modGraph_agenda (s : State) (p g : Nat) (f : Graph → Graph) : (s.modGraph p g f).agenda = s.agenda := rfl
@[simp] theorem modGraph_focus (s : State) (p g : Nat) (f : Graph → Graph) : (s.modGraph p g f).focus = s.focus := rfl
@[simp] theorem modGraph_mem (s : State) (p g : Nat) (f : Graph → Graph) : (s.modGraph p g f).mem = s.mem := rfl
@[simp] theorem modGraph_poison (s : State) (p g : Nat) (f : Graph → Graph) : (s.modGraph p g f).poison = s.poison := rfl
@[simp] theorem modGraph_tiles (s : State) (p g : Nat) (f : Graph → Graph) : (s.modGraph p g f).tiles = s.tiles := rfl
@[simp] theorem modGraph_homes (s : State) (p g : Nat) (f : Graph → Graph) : (s.modGraph p g f).homes = s.homes := rfl
@[simp] theorem modGraph_images (s : State) (p g : Nat) (f : Graph → Graph) : (s.modGraph p g f).images = s.images := rfl
@[simp] theorem modGraph_switches (s : State) (p g : Nat) (f : Graph → Graph) : (s.modGraph p g f).switches = s.switches := rfl
@[simp] theorem modGraph_groups (s : State) (p g : Nat) (f : Graph → Graph) : (s.modGraph p g f).groups = s.groups := rfl
@[simp] theorem modGraph_parts (s : State) (p g : Nat) (f : Graph → Graph) : (s.modGraph p g f).parts = s.parts := rfl
@[simp] theorem modGraph_pkg (s : State) (p g : Nat) (f : Graph → Graph) : (s.modGraph p g f).pkg = s.pkg := rfl
@[simp] theorem modGraph_nextId (s : State) (p g : Nat) (f : Graph → Graph) : (s.modGraph p g f).nextId = s.nextId := rfl
@[simp] theorem modGraph_free (s : State) (p g : Nat) (f : Graph → Graph) : (s.modGraph p g f).free = s.free := rfl

/-! ### s.modNode p g n f -/

@[simp] theorem modNode_now (s : State) (p g n : Nat) (f : Node → Node) : (s.modNode p g n f).now = s.now := rfl
@[simp] theorem modNode_agenda (s : State) (p g n : Nat) (f : Node → Node) : (s.modNode p g n f).agenda = s.agenda := rfl
@[simp] theorem modNode_focus (s : State) (p g n : Nat) (f : Node → Node) : (s.modNode p g n f).focus = s.focus := rfl
@[simp] theorem modNode_mem (s : State) (p g n : Nat) (f : Node → Node) : (s.modNode p g n f).mem = s.mem := rfl
@[simp] theorem modNode_poison (s : State) (p g n : Nat) (f : Node → Node) : (s.modNode p g n f).poison = s.poison := rfl
@[simp] theorem modNode_tiles (s : State) (p g n : Nat) (f : Node → Node) : (s.modNode p g n f).tiles = s.tiles := rfl
@[simp] theorem modNode_homes (s : State) (p g n : Nat) (f : Node → Node) : (s.modNode p g n f).homes = s.homes := rfl
@[simp] theorem modNode_images (s : State) (p g n : Nat) (f : Node → Node) : (s.modNode p g n f).images = s.images := rfl
@[simp] theorem modNode_switches (s : State) (p g n : Nat) (f : Node → Node) : (s.modNode p g n f).switches = s.switches := rfl
@[simp] theorem modNode_groups (s : State) (p g n : Nat) (f : Node → Node) : (s.modNode p g n f).groups = s.groups := rfl
@[simp] theorem modNode_parts (s : State) (p g n : Nat) (f : Node → Node) : (s.modNode p g n f).parts = s.parts := rfl
@[simp] theorem modNode_pkg (s : State) (p g n : Nat) (f : Node → Node) : (s.modNode p g n f).pkg = s.pkg := rfl
@[simp] theorem modNode_nextId (s : State) (p g n : Nat) (f : Node → Node) : (s.modNode p g n f).nextId = s.nextId := rfl
@[simp] theorem modNode_free (s : State) (p g n : Nat) (f : Node → Node) : (s.modNode p g n f).free = s.free := rfl

/-! ### s.modPkg f -/

@[simp] theorem modPkg_now (s : State) (f : Package → Package) : (s.modPkg f).now = s.now := rfl
@[simp] theorem modPkg_agenda (s : State) (f : Package → Package) : (s.modPkg f).agenda = s.agenda := rfl
@[simp] theorem modPkg_focus (s : State) (f : Package → Package) : (s.modPkg f).focus = s.focus := rfl
@[simp] theorem modPkg_mem (s : State) (f : Package → Package) : (s.modPkg f).mem = s.mem := rfl
@[simp] theorem modPkg_poison (s : State) (f : Package → Package) : (s.modPkg f).poison = s.poison := rfl
@[simp] theorem modPkg_tiles (s : State) (f : Package → Package) : (s.modPkg f).tiles = s.tiles := rfl
@[simp] theorem modPkg_homes (s : State) (f : Package → Package) : (s.modPkg f).homes = s.homes := rfl
@[simp] theorem modPkg_images (s : State) (f : Package → Package) : (s.modPkg f).images = s.images := rfl
@[simp] theorem modPkg_switches (s : State) (f : Package → Package) : (s.modPkg f).switches = s.switches := rfl
@[simp] theorem modPkg_groups (s : State) (f : Package → Package) : (s.modPkg f).groups = s.groups := rfl
@[simp] theorem modPkg_seqs (s : State) (f : Package → Package) : (s.modPkg f).seqs = s.seqs := rfl
@[simp] theorem modPkg_parts (s : State) (f : Package → Package) : (s.modPkg f).parts = s.parts := rfl
@[simp] theorem modPkg_nextId (s : State) (f : Package → Package) : (s.modPkg f).nextId = s.nextId := rfl
@[simp] theorem modPkg_free (s : State) (f : Package → Package) : (s.modPkg f).free = s.free := rfl

/-! ### s.countBy u i c n -/

@[simp] theorem countBy_now (s : State) (u i c n : Nat) : (s.countBy u i c n).now = s.now := rfl
@[simp] theorem countBy_agenda (s : State) (u i c n : Nat) : (s.countBy u i c n).agenda = s.agenda := rfl
@[simp] theorem countBy_focus (s : State) (u i c n : Nat) : (s.countBy u i c n).focus = s.focus := rfl
@[simp] theorem countBy_mem (s : State) (u i c n : Nat) : (s.countBy u i c n).mem = s.mem := rfl
@[simp] theorem countBy_poison (s : State) (u i c n : Nat) : (s.countBy u i c n).poison = s.poison := rfl
@[simp] theorem countBy_tiles (s : State) (u i c n : Nat) : (s.countBy u i c n).tiles = s.tiles := rfl
@[simp] theorem countBy_homes (s : State) (u i c n : Nat) : (s.countBy u i c n).homes = s.homes := rfl
@[simp] theorem countBy_images (s : State) (u i c n : Nat) : (s.countBy u i c n).images = s.images := rfl
@[simp] theorem countBy_switches (s : State) (u i c n : Nat) : (s.countBy u i c n).switches = s.switches := rfl
@[simp] theorem countBy_groups (s : State) (u i c n : Nat) : (s.countBy u i c n).groups = s.groups := rfl
@[simp] theorem countBy_seqs (s : State) (u i c n : Nat) : (s.countBy u i c n).seqs = s.seqs := rfl
@[simp] theorem countBy_parts (s : State) (u i c n : Nat) : (s.countBy u i c n).parts = s.parts := rfl
@[simp] theorem countBy_nextId (s : State) (u i c n : Nat) : (s.countBy u i c n).nextId = s.nextId := rfl
@[simp] theorem countBy_free (s : State) (u i c n : Nat) : (s.countBy u i c n).free = s.free := rfl

/-! ### s.count u i c -/

@[simp] theorem count_now (s : State) (u i c : Nat) : (s.count u i c).now = s.now := rfl
@[simp] theorem count_agenda (s : State) (u i c : Nat) : (s.count u i c).agenda = s.agenda := rfl
@[simp] theorem count_focus (s : State) (u i c : Nat) : (s.count u i c).focus = s.focus := rfl
@[simp] theorem count_mem (s : State) (u i c : Nat) : (s.count u i c).mem = s.mem := rfl
@[simp] theorem count_poison (s : State) (u i c : Nat) : (s.count u i c).poison = s.poison := rfl
@[simp] theorem count_tiles (s : State) (u i c : Nat) : (s.count u i c).tiles = s.tiles := rfl
@[simp] theorem count_homes (s : State) (u i c : Nat) : (s.count u i c).homes = s.homes := rfl
@[simp] theorem count_images (s : State) (u i c : Nat) : (s.count u i c).images = s.images := rfl
@[simp] theorem count_switches (s : State) (u i c : Nat) : (s.count u i c).switches = s.switches := rfl
@[simp] theorem count_groups (s : State) (u i c : Nat) : (s.count u i c).groups = s.groups := rfl
@[simp] theorem count_seqs (s : State) (u i c : Nat) : (s.count u i c).seqs = s.seqs := rfl
@[simp] theorem count_parts (s : State) (u i c : Nat) : (s.count u i c).parts = s.parts := rfl
@[simp] theorem count_nextId (s : State) (u i c : Nat) : (s.count u i c).nextId = s.nextId := rfl
@[simp] theorem count_free (s : State) (u i c : Nat) : (s.count u i c).free = s.free := rfl

/-! ### s.modGroup g f -/

@[simp] theorem modGroup_now (s : State) (g : Nat) (f : Group → Group) : (s.modGroup g f).now = s.now := rfl
@[simp] theorem modGroup_agenda (s : State) (g : Nat) (f : Group → Group) : (s.modGroup g f).agenda = s.agenda := rfl
@[simp] theorem modGroup_focus (s : State) (g : Nat) (f : Group → Group) : (s.modGroup g f).focus = s.focus := rfl
@[simp] theorem modGroup_mem (s : State) (g : Nat) (f : Group → Group) : (s.modGroup g f).mem = s.mem := rfl
@[simp] theorem modGroup_poison (s : State) (g : Nat) (f : Group → Group) : (s.modGroup g f).poison = s.poison := rfl
@[simp] theorem modGroup_tiles (s : State) (g : Nat) (f : Group → Group) : (s.modGroup g f).tiles = s.tiles := rfl
@[simp] theorem modGroup_homes (s : State) (g : Nat) (f : Group → Group) : (s.modGroup g f).homes = s.homes := rfl
@[simp] theorem modGroup_images (s : State) (g : Nat) (f : Group → Group) : (s.modGroup g f).images = s.images := rfl
@[simp] theorem modGroup_switches (s : State) (g : Nat) (f : Group → Group) : (s.modGroup g f).switches = s.switches := rfl
@[simp] theorem modGroup_seqs (s : State) (g : Nat) (f : Group → Group) : (s.modGroup g f).seqs = s.seqs := rfl
@[simp] theorem modGroup_parts (s : State) (g : Nat) (f : Group → Group) : (s.modGroup g f).parts = s.parts := rfl
@[simp] theorem modGroup_pkg (s : State) (g : Nat) (f : Group → Group) : (s.modGroup g f).pkg = s.pkg := rfl
@[simp] theorem modGroup_nextId (s : State) (g : Nat) (f : Group → Group) : (s.modGroup g f).nextId = s.nextId := rfl
@[simp] theorem modGroup_free (s : State) (g : Nat) (f : Group → Group) : (s.modGroup g f).free = s.free := rfl

/-! ### s.modPart p f -/

@[simp] theorem modPart_now (s : State) (p : Nat) (f : Partition → Partition) : (s.modPart p f).now = s.now := rfl
@[simp] theorem modPart_agenda (s : State) (p : Nat) (f : Partition → Partition) : (s.modPart p f).agenda = s.agenda := rfl
@[simp] theorem modPart_focus (s : State) (p : Nat) (f : Partition → Partition) : (s.modPart p f).focus = s.focus := rfl
@[simp] theorem modPart_mem (s : State) (p : Nat) (f : Partition → Partition) : (s.modPart p f).mem = s.mem := rfl
@[simp] theorem modPart_poison (s : State) (p : Nat) (f : Partition → Partition) : (s.modPart p f).poison = s.poison := rfl
@[simp] theorem modPart_tiles (s : State) (p : Nat) (f : Partition → Partition) : (s.modPart p f).tiles = s.tiles := rfl
@[simp] theorem modPart_homes (s : State) (p : Nat) (f : Partition → Partition) : (s.modPart p f).homes = s.homes := rfl
@[simp] theorem modPart_images (s : State) (p : Nat) (f : Partition → Partition) : (s.modPart p f).images = s.images := rfl
@[simp] theorem modPart_switches (s : State) (p : Nat) (f : Partition → Partition) : (s.modPart p f).switches = s.switches := rfl
@[simp] theorem modPart_groups (s : State) (p : Nat) (f : Partition → Partition) : (s.modPart p f).groups = s.groups := rfl
@[simp] theorem modPart_seqs (s : State) (p : Nat) (f : Partition → Partition) : (s.modPart p f).seqs = s.seqs := rfl
@[simp] theorem modPart_pkg (s : State) (p : Nat) (f : Partition → Partition) : (s.modPart p f).pkg = s.pkg := rfl
@[simp] theorem modPart_nextId (s : State) (p : Nat) (f : Partition → Partition) : (s.modPart p f).nextId = s.nextId := rfl
@[simp] theorem modPart_free (s : State) (p : Nat) (f : Partition → Partition) : (s.modPart p f).free = s.free := rfl

/-! ### s.modImage i f -/

@[simp] theorem modImage_now (s : State) (i : Nat) (f : Image → Image) : (s.modImage i f).now = s.now := rfl
@[simp] theorem modImage_agenda (s : State) (i : Nat) (f : Image → Image) : (s.modImage i f).agenda = s.agenda := rfl
@[simp] theorem modImage_focus (s : State) (i : Nat) (f : Image → Image) : (s.modImage i f).focus = s.focus := rfl
@[simp] theorem modImage_mem (s : State) (i : Nat) (f : Image → Image) : (s.modImage i f).mem = s.mem := rfl
@[simp] theorem modImage_poison (s : State) (i : Nat) (f : Image → Image) : (s.modImage i f).poison = s.poison := rfl
@[simp] theorem modImage_tiles (s : State) (i : Nat) (f : Image → Image) : (s.modImage i f).tiles = s.tiles := rfl
@[simp] theorem modImage_homes (s : State) (i : Nat) (f : Image → Image) : (s.modImage i f).homes = s.homes := rfl
@[simp] theorem modImage_switches (s : State) (i : Nat) (f : Image → Image) : (s.modImage i f).switches = s.switches := rfl
@[simp] theorem modImage_groups (s : State) (i : Nat) (f : Image → Image) : (s.modImage i f).groups = s.groups := rfl
@[simp] theorem modImage_seqs (s : State) (i : Nat) (f : Image → Image) : (s.modImage i f).seqs = s.seqs := rfl
@[simp] theorem modImage_parts (s : State) (i : Nat) (f : Image → Image) : (s.modImage i f).parts = s.parts := rfl
@[simp] theorem modImage_pkg (s : State) (i : Nat) (f : Image → Image) : (s.modImage i f).pkg = s.pkg := rfl
@[simp] theorem modImage_nextId (s : State) (i : Nat) (f : Image → Image) : (s.modImage i f).nextId = s.nextId := rfl
@[simp] theorem modImage_free (s : State) (i : Nat) (f : Image → Image) : (s.modImage i f).free = s.free := rfl

/-! ### s.draw.2 -/

@[simp] theorem draw_now (s : State) : (s.draw.2).now = s.now := rfl
@[simp] theorem draw_agenda (s : State) : (s.draw.2).agenda = s.agenda := rfl
@[simp] theorem draw_focus (s : State) : (s.draw.2).focus = s.focus := rfl
@[simp] theorem draw_mem (s : State) : (s.draw.2).mem = s.mem := rfl
@[simp] theorem draw_poison (s : State) : (s.draw.2).poison = s.poison := rfl
@[simp] theorem draw_tiles (s : State) : (s.draw.2).tiles = s.tiles := rfl
@[simp] theorem draw_homes (s : State) : (s.draw.2).homes = s.homes := rfl
@[simp] theorem draw_images (s : State) : (s.draw.2).images = s.images := rfl
@[simp] theorem draw_switches (s : State) : (s.draw.2).switches = s.switches := rfl
@[simp] theorem draw_groups (s : State) : (s.draw.2).groups = s.groups := rfl
@[simp] theorem draw_seqs (s : State) : (s.draw.2).seqs = s.seqs := rfl
@[simp] theorem draw_parts (s : State) : (s.draw.2).parts = s.parts := rfl
@[simp] theorem draw_pkg (s : State) : (s.draw.2).pkg = s.pkg := rfl
@[simp] theorem draw_nextId (s : State) : (s.draw.2).nextId = s.nextId := rfl

/-! ### s.fresh.2 -/

@[simp] theorem fresh_now (s : State) : (s.fresh.2).now = s.now := rfl
@[simp] theorem fresh_agenda (s : State) : (s.fresh.2).agenda = s.agenda := rfl
@[simp] theorem fresh_focus (s : State) : (s.fresh.2).focus = s.focus := rfl
@[simp] theorem fresh_mem (s : State) : (s.fresh.2).mem = s.mem := rfl
@[simp] theorem fresh_poison (s : State) : (s.fresh.2).poison = s.poison := rfl
@[simp] theorem fresh_tiles (s : State) : (s.fresh.2).tiles = s.tiles := rfl
@[simp] theorem fresh_homes (s : State) : (s.fresh.2).homes = s.homes := rfl
@[simp] theorem fresh_images (s : State) : (s.fresh.2).images = s.images := rfl
@[simp] theorem fresh_switches (s : State) : (s.fresh.2).switches = s.switches := rfl
@[simp] theorem fresh_groups (s : State) : (s.fresh.2).groups = s.groups := rfl
@[simp] theorem fresh_seqs (s : State) : (s.fresh.2).seqs = s.seqs := rfl
@[simp] theorem fresh_parts (s : State) : (s.fresh.2).parts = s.parts := rfl
@[simp] theorem fresh_pkg (s : State) : (s.fresh.2).pkg = s.pkg := rfl
@[simp] theorem fresh_free (s : State) : (s.fresh.2).free = s.free := rfl

/-! ### s.modHome l u f -/

@[simp] theorem modHome_now (s : State) (l u : Nat) (f : Home → Home) : (s.modHome l u f).now = s.now := by
  unfold State.modHome; split <;> rfl
@[simp] theorem modHome_agenda (s : State) (l u : Nat) (f : Home → Home) : (s.modHome l u f).agenda = s.agenda := by
  unfold State.modHome; split <;> rfl
@[simp] theorem modHome_focus (s : State) (l u : Nat) (f : Home → Home) : (s.modHome l u f).focus = s.focus := by
  unfold State.modHome; split <;> rfl
@[simp] theorem modHome_mem (s : State) (l u : Nat) (f : Home → Home) : (s.modHome l u f).mem = s.mem := by
  unfold State.modHome; split <;> rfl
@[simp] theorem modHome_poison (s : State) (l u : Nat) (f : Home → Home) : (s.modHome l u f).poison = s.poison := by
  unfold State.modHome; split <;> rfl
@[simp] theorem modHome_images (s : State) (l u : Nat) (f : Home → Home) : (s.modHome l u f).images = s.images := by
  unfold State.modHome; split <;> rfl
@[simp] theorem modHome_switches (s : State) (l u : Nat) (f : Home → Home) : (s.modHome l u f).switches = s.switches := by
  unfold State.modHome; split <;> rfl
@[simp] theorem modHome_groups (s : State) (l u : Nat) (f : Home → Home) : (s.modHome l u f).groups = s.groups := by
  unfold State.modHome; split <;> rfl
@[simp] theorem modHome_seqs (s : State) (l u : Nat) (f : Home → Home) : (s.modHome l u f).seqs = s.seqs := by
  unfold State.modHome; split <;> rfl
@[simp] theorem modHome_parts (s : State) (l u : Nat) (f : Home → Home) : (s.modHome l u f).parts = s.parts := by
  unfold State.modHome; split <;> rfl
@[simp] theorem modHome_pkg (s : State) (l u : Nat) (f : Home → Home) : (s.modHome l u f).pkg = s.pkg := by
  unfold State.modHome; split <;> rfl
@[simp] theorem modHome_nextId (s : State) (l u : Nat) (f : Home → Home) : (s.modHome l u f).nextId = s.nextId := by
  unfold State.modHome; split <;> rfl
@[simp] theorem modHome_free (s : State) (l u : Nat) (f : Home → Home) : (s.modHome l u f).free = s.free := by
  unfold State.modHome; split <;> rfl

/-! ### The entries of sparse tables and of vectors -/

theorem lookupKey_insertKey_same {α : Type} (k : Nat) (v : α) (l : List (Nat × α)) :
    lookupKey k (insertKey k v l) = some v := by
  induction l with
  | nil => simp [insertKey, lookupKey]
  | cons x xs ih =>
    obtain ⟨j, u⟩ := x
    simp only [insertKey]
    split
    · simp [lookupKey]
    · split
      · simp [lookupKey]
      · next h _ => simp [lookupKey, h, ih]

theorem lookupKey_insertKey_ne {α : Type} {k j : Nat} (v : α) (l : List (Nat × α)) (h : j ≠ k) :
    lookupKey j (insertKey k v l) = lookupKey j l := by
  induction l with
  | nil => simp [insertKey, lookupKey, Ne.symm h]
  | cons x xs ih =>
    obtain ⟨i, u⟩ := x
    simp only [insertKey]
    split
    · next e => subst e; simp [lookupKey, Ne.symm h]
    · split
      · simp [lookupKey, Ne.symm h]
      · simp [lookupKey, ih]

@[simp] theorem get_set_same {α : Type} (t : Sparse α) (d v : α) (k : Nat) : (t.set k v).get d k = v := by
  simp [Sparse.get, Sparse.set, lookupKey_insertKey_same]

theorem get_set_ne {α : Type} (t : Sparse α) (d v : α) {k j : Nat} (h : j ≠ k) :
    (t.set k v).get d j = t.get d j := by
  simp [Sparse.get, Sparse.set, lookupKey_insertKey_ne v t.items h]

theorem vget_vset_same {α : Type} {n : Nat} (v : Vector α n) {i : Nat} (x d : α) (h : i < n) :
    vget (vset v i x) i d = x := by
  simp [vget, vset, h]

theorem vget_vset_ne {α : Type} {n : Nat} (v : Vector α n) {i j : Nat} (x d : α) (h : j ≠ i) :
    vget (vset v i x) j d = vget v j d := by
  simp [vget, vset, Vector.getElem?_setIfInBounds_ne (Ne.symm h)]

/-! ### Tiles, contexts, threads and TEs read after a write -/

@[simp] theorem tile_modTile_same (s : State) (t : Nat) (f : Tile → Tile) : (s.modTile t f).tile t = f (s.tile t) := by
  simp [State.modTile, State.setTile, State.tile]

theorem tile_modTile_ne (s : State) {t u : Nat} (f : Tile → Tile) (h : u ≠ t) : (s.modTile t f).tile u = s.tile u := by
  simp [State.modTile, State.setTile, State.tile, get_set_ne _ _ _ h]

@[simp] theorem ctx_modCtx_same (s : State) (t : Nat) (f : Context → Context) : (s.modCtx t f).ctx t = f (s.ctx t) := by
  simp [State.modCtx, State.ctx]

theorem ctx_modCtx_ne (s : State) {t u : Nat} (f : Context → Context) (h : u ≠ t) : (s.modCtx t f).ctx u = s.ctx u := by
  simp [State.modCtx, State.ctx, tile_modTile_ne s _ h]

theorem thread_setThread_same (s : State) (t : Nat) {k : Nat} (th : Thread) (h : k < 4) :
    (s.setThread t k th).thread t k = th := by
  simp [State.setThread, State.thread, vget_vset_same _ _ _ h]

theorem thread_setThread_ne (s : State) {t k u j : Nat} (th : Thread) (h : ¬(u = t ∧ j = k)) :
    (s.setThread t k th).thread u j = s.thread u j := by
  unfold State.setThread State.thread
  by_cases hu : u = t
  · subst hu
    simp [vget_vset_ne _ _ _ (fun e => h ⟨rfl, e⟩)]
  · rw [ctx_modCtx_ne s _ hu]

theorem cur_modCur (s : State) (f : Thread → Thread) (h : s.focus.slot < 4) : (s.modCur f).cur = f s.cur := by
  simpa [State.modCur, State.setCur, State.cur] using
    thread_setThread_same s s.focus.tile (f (s.thread s.focus.tile s.focus.slot)) h

theorem thread_modCur_ne (s : State) (f : Thread → Thread) {u j : Nat}
    (h : ¬(u = s.focus.tile ∧ j = s.focus.slot)) : (s.modCur f).thread u j = s.thread u j :=
  thread_setThread_ne s _ h

@[simp] theorem modCur_cur_of_slot (s : State) (f : Thread → Thread) (h : s.focus.slot < 4) :
    (s.modCur f).cur = f s.cur := cur_modCur s f h

theorem teAt_modTeAt_same (s : State) (p : TeId) (f : TE → TE) : (s.modTeAt p f).teAt p = f (s.teAt p) := by
  simp [State.modTeAt, State.teAt, State.modTe, State.setTe, State.te]

end Sys2Proof.Machine
end

