-- ==== Sys2Proof/Laws/Memory.lean ====
section
/-! SUPPORT. The laws of memory: a read after a write, and that every operation on memory keeps its canonical
form. -/

namespace Sys2Proof.Machine

/-! ## One byte -/

/-- A canonical list with a lower bound is canonical from any smaller one. -/
theorem cellsWf_mono {lo lo' : Nat} (h : lo' ≤ lo) : ∀ l : List Host.Cell, cellsWf lo l = true → cellsWf lo' l = true
  | [], _ => rfl
  | (a, v) :: rest, hw => by
    simp only [cellsWf, Bool.and_eq_true, decide_eq_true_eq] at hw ⊢
    exact ⟨⟨by omega, hw.1.2⟩, hw.2⟩

/-- A write keeps the canonical form. -/
theorem cellsWf_writeCells (a : Nat) (v : Byte) :
    ∀ (l : List Host.Cell) (lo : Nat), lo ≤ a → cellsWf lo l = true → cellsWf lo (writeCells a v l) = true
  | [], lo, hlo, _ => by
    unfold writeCells
    split
    · rfl
    · simp [cellsWf, *]
  | (b, u) :: rest, lo, hlo, hw => by
    simp only [cellsWf, Bool.and_eq_true, decide_eq_true_eq] at hw
    obtain ⟨⟨h1, h2⟩, h3⟩ := hw
    unfold writeCells
    split
    · next e =>
      subst e
      split
      · exact cellsWf_mono (by omega) rest h3
      · simp [cellsWf, *]
    · split
      · split
        · simp [cellsWf, *]
        · simp only [cellsWf, Bool.and_eq_true, decide_eq_true_eq]
          exact ⟨⟨hlo, by assumption⟩, ⟨⟨by omega, h2⟩, h3⟩⟩
      · simp only [cellsWf, Bool.and_eq_true, decide_eq_true_eq]
        exact ⟨⟨h1, h2⟩, cellsWf_writeCells a v rest (b + 1) (by omega) h3⟩

/-- An address below every listed one reads as an unlisted one. -/
theorem readCells_below {a lo : Nat} (h : a < lo) : ∀ l : List Host.Cell, cellsWf lo l = true →
    readCells a l = Memory.unlisted
  | [], _ => rfl
  | (b, u) :: rest, hw => by
    simp only [cellsWf, Bool.and_eq_true, decide_eq_true_eq] at hw
    have hb : b ≠ a := by omega
    simp only [readCells, hb, if_false]
    exact readCells_below (by omega) rest hw.2

/-- The byte written reads back. -/
theorem readCells_writeCells_same (a : Nat) (v : Byte) : ∀ (l : List Host.Cell) (lo : Nat),
    cellsWf lo l = true → readCells a (writeCells a v l) = v
  | [], _, _ => by
    unfold writeCells
    split
    · next e => exact e.symm
    · simp [readCells]
  | (b, u) :: rest, lo, hw => by
    simp only [cellsWf, Bool.and_eq_true, decide_eq_true_eq] at hw
    unfold writeCells
    split
    · next e =>
      subst e
      split
      · next hv => rw [readCells_below (Nat.lt_succ_self _) rest hw.2, hv]
      · simp [readCells]
    · next hb =>
      split
      · next hlt =>
        split
        · next hv =>
          simp only [readCells, hb, if_false]
          rw [readCells_below (by omega) rest hw.2, hv]
        · simp [readCells]
      · simp only [readCells, hb, if_false]
        exact readCells_writeCells_same a v rest _ hw.2

/-- A write leaves every other byte. -/
theorem readCells_writeCells_ne {a b : Nat} (v : Byte) (h : b ≠ a) : ∀ l : List Host.Cell,
    readCells b (writeCells a v l) = readCells b l
  | [] => by
    unfold writeCells
    split
    · rfl
    · simp [readCells, Ne.symm h]
  | (c, u) :: rest => by
    unfold writeCells
    split
    · next e => subst e; split <;> simp [readCells, Ne.symm h]
    · split
      · split
        · rfl
        · simp [readCells, Ne.symm h]
      · simp only [readCells]
        split
        · rfl
        · exact readCells_writeCells_ne v h rest

/-! ## Memories -/

theorem wf_empty : Memory.empty.wf = true := rfl

theorem wf_write (m : Memory) (a : Nat) (v : Byte) (h : m.wf = true) : (m.write a v).wf = true :=
  cellsWf_writeCells a v m.cells 0 (Nat.zero_le _) h

theorem read_write_same (m : Memory) (a : Nat) (v : Byte) (h : m.wf = true) : (m.write a v).read a = v :=
  readCells_writeCells_same a v m.cells 0 h

theorem read_write_ne (m : Memory) {a b : Nat} (v : Byte) (h : b ≠ a) : (m.write a v).read b = m.read b :=
  readCells_writeCells_ne v h m.cells

theorem wf_writeBytes : ∀ (bs : List Byte) (m : Memory) (a : Nat), m.wf = true → (m.writeBytes a bs).wf = true
  | [], _, _, h => h
  | b :: bs, m, a, h => wf_writeBytes bs (m.write a b) (a + 1) (wf_write m a b h)

theorem wf_writeLe (m : Memory) (a n v : Nat) (h : m.wf = true) : (m.writeLe a n v).wf = true :=
  wf_writeBytes _ m a h

/-- The bytes outside those written read as before. -/
theorem read_writeBytes_outside : ∀ (bs : List Byte) (m : Memory) (a b : Nat), (b < a ∨ a + bs.length ≤ b) →
    (m.writeBytes a bs).read b = m.read b
  | [], _, _, _, _ => rfl
  | x :: bs, m, a, b, h => by
    simp only [List.length_cons] at h
    have := read_writeBytes_outside bs (m.write a x) (a + 1) b (by omega)
    rw [Memory.writeBytes, this, read_write_ne _ _ (by omega)]

/-- A byte of those written reads back. -/
theorem read_writeBytes_inside : ∀ (bs : List Byte) (m : Memory) (a i : Nat) (h : i < bs.length), m.wf = true →
    (m.writeBytes a bs).read (a + i) = bs[i]
  | x :: bs, m, a, 0, _, hw => by
    rw [Memory.writeBytes, read_writeBytes_outside bs _ _ _ (by omega)]
    simpa using read_write_same m a x hw
  | x :: bs, m, a, i + 1, h, hw => by
    have := read_writeBytes_inside bs (m.write a x) (a + 1) i (by simpa using h) (wf_write m a x hw)
    rw [Memory.writeBytes, show a + (i + 1) = a + 1 + i by omega, this]
    rfl

/-- A memory that keeps some of its cells is canonical. -/
theorem cellsWf_filter (p : Host.Cell → Bool) : ∀ (l : List Host.Cell) (lo : Nat), cellsWf lo l = true →
    cellsWf lo (l.filter p) = true
  | [], _, _ => rfl
  | (a, v) :: rest, lo, h => by
    simp only [cellsWf, Bool.and_eq_true, decide_eq_true_eq] at h
    have ih := cellsWf_filter p rest (a + 1) h.2
    simp only [List.filter]
    split
    · simp only [cellsWf, Bool.and_eq_true, decide_eq_true_eq]
      exact ⟨h.1, ih⟩
    · exact cellsWf_mono (by omega) _ ih

theorem wf_filter (m : Memory) (p : Host.Cell → Bool) (h : m.wf = true) :
    (Memory.mk (m.cells.filter p)).wf = true := cellsWf_filter p m.cells 0 h

/-! ## The operations of the state that write memory -/

theorem wf_putRing (l : List Nat) (m : Memory) (r : Ring) (bs : List Byte) (h : m.wf = true) :
    (putRing l m r bs).1.wf = true := by
  unfold putRing
  split
  · exact h
  · split
    · exact h
    · exact wf_writeBytes _ _ _ h

theorem log_wf (s : State) (e : Event) (h : s.mem.wf = true) : (s.log e).mem.wf = true := by
  unfold State.log
  simp only
  split
  · exact wf_putRing _ _ _ _ h
  · exact wf_putRing _ _ _ _ (wf_putRing _ _ _ _ h)

theorem storeBytes_wf (tile gid : Nat) (space : Space) : ∀ (bs : List Byte) (s : State) (place : Nat),
    s.mem.wf = true → (s.storeBytes tile gid space place bs).mem.wf = true
  | [], s, _, h => h
  | b :: bs, s, place, h => by
    unfold State.storeBytes
    exact storeBytes_wf tile gid space bs _ _ (wf_write _ _ _ h)

/-- A store of bytes changes the memory alone. -/
theorem storeBytes_eq (tile gid : Nat) (space : Space) : ∀ (bs : List Byte) (s : State) (place : Nat),
    s.storeBytes tile gid space place bs = { s with mem := (s.storeBytes tile gid space place bs).mem }
  | [], _, _ => rfl
  | b :: bs, s, place => by
    unfold State.storeBytes
    rw [storeBytes_eq tile gid space bs]

@[simp] theorem storeBytes_now (s : State) (t g : Nat) (x : Space) (p : Nat) (bs : List Byte) :
    (s.storeBytes t g x p bs).now = s.now := by rw [storeBytes_eq]
@[simp] theorem storeBytes_agenda (s : State) (t g : Nat) (x : Space) (p : Nat) (bs : List Byte) :
    (s.storeBytes t g x p bs).agenda = s.agenda := by rw [storeBytes_eq]
@[simp] theorem storeBytes_focus (s : State) (t g : Nat) (x : Space) (p : Nat) (bs : List Byte) :
    (s.storeBytes t g x p bs).focus = s.focus := by rw [storeBytes_eq]
@[simp] theorem storeBytes_poison (s : State) (t g : Nat) (x : Space) (p : Nat) (bs : List Byte) :
    (s.storeBytes t g x p bs).poison = s.poison := by rw [storeBytes_eq]
@[simp] theorem storeBytes_tiles (s : State) (t g : Nat) (x : Space) (p : Nat) (bs : List Byte) :
    (s.storeBytes t g x p bs).tiles = s.tiles := by rw [storeBytes_eq]
@[simp] theorem storeBytes_groups (s : State) (t g : Nat) (x : Space) (p : Nat) (bs : List Byte) :
    (s.storeBytes t g x p bs).groups = s.groups := by rw [storeBytes_eq]
@[simp] theorem storeBytes_parts (s : State) (t g : Nat) (x : Space) (p : Nat) (bs : List Byte) :
    (s.storeBytes t g x p bs).parts = s.parts := by rw [storeBytes_eq]
@[simp] theorem storeBytes_pkg (s : State) (t g : Nat) (x : Space) (p : Nat) (bs : List Byte) :
    (s.storeBytes t g x p bs).pkg = s.pkg := by rw [storeBytes_eq]

/-- Where a byte lies depends on the groups' windows alone. -/
theorem locOf_congr {s u : State} (h : u.groups = s.groups) (t g : Nat) (x : Space) (p : Nat) :
    u.locOf t g x p = s.locOf t g x p := by
  unfold State.locOf State.window? State.group?
  rw [h]

/-- A store of bytes leaves every byte outside those it names. -/
theorem storeBytes_read_outside (tile gid : Nat) (space : Space) (a : Nat) : ∀ (bs : List Byte) (s : State) (place : Nat),
    (∀ i, i < bs.length → a ≠ s.locOf tile gid space (place + i)) →
    (s.storeBytes tile gid space place bs).mem.read a = s.mem.read a
  | [], _, _, _ => rfl
  | b :: bs, s, place, h => by
    unfold State.storeBytes
    rw [storeBytes_read_outside tile gid space a bs]
    · exact read_write_ne _ _ (by simpa using h 0 (by simp))
    · intro i hi
      have := h (i + 1) (by simpa using hi)
      rw [show place + 1 + i = place + (i + 1) by omega]
      exact this

end Sys2Proof.Machine
end

