-- ==== Sys2Proof/Laws/Issue.lean ====
section
/-! SUPPORT. What stands around the effect of a control word: the fields of the state and of the thread that a
marker, the entry of a word and its end leave, what a register reads after a fixed-latency result, and the
spec lemma of `issueWord`. -/

namespace Sys2Proof.Machine

/-! ## Requests sent -/


@[simp] theorem send_now (s : State) (t k : Nat) (x : Space) (p : Nat) (l : Payload) :
    (s.send t k x p l).now = s.now := by
  unfold State.send
  split <;> rfl
@[simp] theorem send_agenda (s : State) (t k : Nat) (x : Space) (p : Nat) (l : Payload) :
    (s.send t k x p l).agenda = s.agenda := by
  unfold State.send
  split <;> rfl
@[simp] theorem send_focus (s : State) (t k : Nat) (x : Space) (p : Nat) (l : Payload) :
    (s.send t k x p l).focus = s.focus := by
  unfold State.send
  split <;> rfl
@[simp] theorem send_mem (s : State) (t k : Nat) (x : Space) (p : Nat) (l : Payload) :
    (s.send t k x p l).mem = s.mem := by
  unfold State.send
  split <;> rfl
@[simp] theorem send_poison (s : State) (t k : Nat) (x : Space) (p : Nat) (l : Payload) :
    (s.send t k x p l).poison = s.poison := by
  unfold State.send
  split <;> rfl
@[simp] theorem send_homes (s : State) (t k : Nat) (x : Space) (p : Nat) (l : Payload) :
    (s.send t k x p l).homes = s.homes := by
  unfold State.send
  split <;> rfl
@[simp] theorem send_images (s : State) (t k : Nat) (x : Space) (p : Nat) (l : Payload) :
    (s.send t k x p l).images = s.images := by
  unfold State.send
  split <;> rfl
@[simp] theorem send_groups (s : State) (t k : Nat) (x : Space) (p : Nat) (l : Payload) :
    (s.send t k x p l).groups = s.groups := by
  unfold State.send
  split <;> rfl
@[simp] theorem send_seqs (s : State) (t k : Nat) (x : Space) (p : Nat) (l : Payload) :
    (s.send t k x p l).seqs = s.seqs := by
  unfold State.send
  split <;> rfl
@[simp] theorem send_parts (s : State) (t k : Nat) (x : Space) (p : Nat) (l : Payload) :
    (s.send t k x p l).parts = s.parts := by
  unfold State.send
  split <;> rfl
@[simp] theorem send_pkg (s : State) (t k : Nat) (x : Space) (p : Nat) (l : Payload) :
    (s.send t k x p l).pkg = s.pkg := by
  unfold State.send
  split <;> rfl
@[simp] theorem send_nextId (s : State) (t k : Nat) (x : Space) (p : Nat) (l : Payload) :
    (s.send t k x p l).nextId = s.nextId := by
  unfold State.send
  split <;> rfl
@[simp] theorem send_free (s : State) (t k : Nat) (x : Space) (p : Nat) (l : Payload) :
    (s.send t k x p l).free = s.free := by
  unfold State.send
  split <;> rfl
@[simp] theorem send_switches (s : State) (t k : Nat) (x : Space) (p : Nat) (l : Payload) :
    (s.send t k x p l).switches = s.switches := by
  unfold State.send
  split <;> rfl

/-- The parts of a tile depend on the table of tiles alone. -/
theorem tile_congr {s u : State} (h : u.tiles = s.tiles) (t : Nat) : u.tile t = s.tile t := by
  unfold State.tile
  rw [h]

theorem ctx_congr {s u : State} (h : u.tiles = s.tiles) (t : Nat) : u.ctx t = s.ctx t := by
  unfold State.ctx
  rw [tile_congr h]

theorem thread_congr {s u : State} (h : u.tiles = s.tiles) (t k : Nat) : u.thread t k = s.thread t k := by
  unfold State.thread
  rw [ctx_congr h]

theorem cur_congr {s u : State} (h : u.tiles = s.tiles) (hf : u.focus = s.focus) : u.cur = s.cur := by
  unfold State.cur
  rw [thread_congr h, hf]

/-! ## Markers -/

@[simp] theorem marker_now (s : State) (t k : Nat) (pc : Word) : (s.marker t k pc).now = s.now := by
  simp [State.marker]
@[simp] theorem marker_agenda (s : State) (t k : Nat) (pc : Word) : (s.marker t k pc).agenda = s.agenda := by
  simp [State.marker]
@[simp] theorem marker_focus (s : State) (t k : Nat) (pc : Word) : (s.marker t k pc).focus = s.focus := by
  simp [State.marker]
@[simp] theorem marker_mem (s : State) (t k : Nat) (pc : Word) : (s.marker t k pc).mem = s.mem := by
  simp [State.marker]
@[simp] theorem marker_poison (s : State) (t k : Nat) (pc : Word) : (s.marker t k pc).poison = s.poison := by
  simp [State.marker]
@[simp] theorem marker_homes (s : State) (t k : Nat) (pc : Word) : (s.marker t k pc).homes = s.homes := by
  simp [State.marker]
@[simp] theorem marker_images (s : State) (t k : Nat) (pc : Word) : (s.marker t k pc).images = s.images := by
  simp [State.marker]
@[simp] theorem marker_groups (s : State) (t k : Nat) (pc : Word) : (s.marker t k pc).groups = s.groups := by
  simp [State.marker]
@[simp] theorem marker_seqs (s : State) (t k : Nat) (pc : Word) : (s.marker t k pc).seqs = s.seqs := by
  simp [State.marker]
@[simp] theorem marker_parts (s : State) (t k : Nat) (pc : Word) : (s.marker t k pc).parts = s.parts := by
  simp [State.marker]
@[simp] theorem marker_pkg (s : State) (t k : Nat) (pc : Word) : (s.marker t k pc).pkg = s.pkg := by
  simp [State.marker]
@[simp] theorem marker_nextId (s : State) (t k : Nat) (pc : Word) : (s.marker t k pc).nextId = s.nextId := by
  simp [State.marker]
@[simp] theorem marker_free (s : State) (t k : Nat) (pc : Word) : (s.marker t k pc).free = s.free := by
  simp [State.marker]
@[simp] theorem marker_switches (s : State) (t k : Nat) (pc : Word) : (s.marker t k pc).switches = s.switches := by
  simp [State.marker]

/-- The thread after a marker (R217, R220, R221). -/
theorem marker_thread (s : State) (t : Nat) {k : Nat} (pc : Word) (h : k < 4) :
    (s.marker t k pc).thread t k =
      { (s.thread t k).openRegion pc 0#8 with
        inflight := (s.thread t k).inflight ++
          toInFlight s.now (s.thread t k).regionNo (s.thread t k).netclass (s.thread t k).nextSid (s.thread t k).buffered
        nextSid := (s.thread t k).nextSid + (s.thread t k).buffered.length
        departing := (s.thread t k).departing ++ (s.thread t k).held } := by
  unfold State.marker
  rw [thread_setThread_same _ _ _ h]

theorem marker_cur (s : State) (pc : Word) (h : s.focus.slot < 4) :
    (s.marker s.focus.tile s.focus.slot pc).cur =
      { s.cur.openRegion pc 0#8 with
        inflight := s.cur.inflight ++ toInFlight s.now s.cur.regionNo s.cur.netclass s.cur.nextSid s.cur.buffered
        nextSid := s.cur.nextSid + s.cur.buffered.length
        departing := s.cur.departing ++ s.cur.held } := by
  have := marker_thread s s.focus.tile pc h
  unfold State.cur
  rw [marker_focus]
  exact this

theorem marker_thread_ne (s : State) {t k u j : Nat} (pc : Word) (h : ¬(u = t ∧ j = k)) :
    (s.marker t k pc).thread u j = s.thread u j := by
  unfold State.marker
  rw [thread_setThread_ne _ _ h]

/-! ## The entry and the end of a word -/

@[simp] theorem enter_now (s : State) (i : Instr) (c : Ctl) : (s.enter i c).now = s.now := by
  unfold State.enter
  simp only
  split
  · rfl
  · split <;> simp
@[simp] theorem enter_agenda (s : State) (i : Instr) (c : Ctl) : (s.enter i c).agenda = s.agenda := by
  unfold State.enter
  simp only
  split
  · rfl
  · split <;> simp
@[simp] theorem enter_focus (s : State) (i : Instr) (c : Ctl) : (s.enter i c).focus = s.focus := by
  unfold State.enter
  simp only
  split
  · rfl
  · split <;> simp
@[simp] theorem enter_mem (s : State) (i : Instr) (c : Ctl) : (s.enter i c).mem = s.mem := by
  unfold State.enter
  simp only
  split
  · rfl
  · split <;> simp
@[simp] theorem enter_poison (s : State) (i : Instr) (c : Ctl) : (s.enter i c).poison = s.poison := by
  unfold State.enter
  simp only
  split
  · rfl
  · split <;> simp
@[simp] theorem enter_homes (s : State) (i : Instr) (c : Ctl) : (s.enter i c).homes = s.homes := by
  unfold State.enter
  simp only
  split
  · rfl
  · split <;> simp
@[simp] theorem enter_images (s : State) (i : Instr) (c : Ctl) : (s.enter i c).images = s.images := by
  unfold State.enter
  simp only
  split
  · rfl
  · split <;> simp
@[simp] theorem enter_groups (s : State) (i : Instr) (c : Ctl) : (s.enter i c).groups = s.groups := by
  unfold State.enter
  simp only
  split
  · rfl
  · split <;> simp
@[simp] theorem enter_seqs (s : State) (i : Instr) (c : Ctl) : (s.enter i c).seqs = s.seqs := by
  unfold State.enter
  simp only
  split
  · rfl
  · split <;> simp
@[simp] theorem enter_parts (s : State) (i : Instr) (c : Ctl) : (s.enter i c).parts = s.parts := by
  unfold State.enter
  simp only
  split
  · rfl
  · split <;> simp
@[simp] theorem enter_pkg (s : State) (i : Instr) (c : Ctl) : (s.enter i c).pkg = s.pkg := by
  unfold State.enter
  simp only
  split
  · rfl
  · split <;> simp
@[simp] theorem enter_nextId (s : State) (i : Instr) (c : Ctl) : (s.enter i c).nextId = s.nextId := by
  unfold State.enter
  simp only
  split
  · rfl
  · split <;> simp
@[simp] theorem enter_free (s : State) (i : Instr) (c : Ctl) : (s.enter i c).free = s.free := by
  unfold State.enter
  simp only
  split
  · rfl
  · split <;> simp
theorem enter_cur_pc (s : State) (i : Instr) (c : Ctl) (h : s.focus.slot < 4) :
    (s.enter i c).cur.pc = s.cur.pc := by
  unfold State.enter
  simp only
  split
  · rfl
  · split
    · rw [cur_modCur _ _ (by simpa using h), cur_modCur _ _ (by simpa using h), marker_cur s _ h]; rfl
    · rw [cur_modCur _ _ h]; rfl
theorem enter_cur_lastSet (s : State) (i : Instr) (c : Ctl) (h : s.focus.slot < 4) :
    (s.enter i c).cur.lastSet = s.cur.lastSet := by
  unfold State.enter
  simp only
  split
  · rfl
  · split
    · rw [cur_modCur _ _ (by simpa using h), cur_modCur _ _ (by simpa using h), marker_cur s _ h]; rfl
    · rw [cur_modCur _ _ h]; rfl
theorem enter_cur_waiting (s : State) (i : Instr) (c : Ctl) (h : s.focus.slot < 4) :
    (s.enter i c).cur.waiting = s.cur.waiting := by
  unfold State.enter
  simp only
  split
  · rfl
  · split
    · rw [cur_modCur _ _ (by simpa using h), cur_modCur _ _ (by simpa using h), marker_cur s _ h]; rfl
    · rw [cur_modCur _ _ h]; rfl
theorem enter_cur_arrived (s : State) (i : Instr) (c : Ctl) (h : s.focus.slot < 4) :
    (s.enter i c).cur.arrived = s.cur.arrived := by
  unfold State.enter
  simp only
  split
  · rfl
  · split
    · rw [cur_modCur _ _ (by simpa using h), cur_modCur _ _ (by simpa using h), marker_cur s _ h]; rfl
    · rw [cur_modCur _ _ h]; rfl
theorem enter_cur_earliest (s : State) (i : Instr) (c : Ctl) (h : s.focus.slot < 4) :
    (s.enter i c).cur.earliest = s.cur.earliest := by
  unfold State.enter
  simp only
  split
  · rfl
  · split
    · rw [cur_modCur _ _ (by simpa using h), cur_modCur _ _ (by simpa using h), marker_cur s _ h]; rfl
    · rw [cur_modCur _ _ h]; rfl
theorem enter_cur_distance (s : State) (i : Instr) (c : Ctl) (h : s.focus.slot < 4) :
    (s.enter i c).cur.distance = s.cur.distance := by
  unfold State.enter
  simp only
  split
  · rfl
  · split
    · rw [cur_modCur _ _ (by simpa using h), cur_modCur _ _ (by simpa using h), marker_cur s _ h]; rfl
    · rw [cur_modCur _ _ h]; rfl

/-- The entry of a word changes only the thread's region. -/
theorem enter_lasting (s : State) (i : Instr) (c : Ctl) (h : s.focus.slot < 4) :
    (s.enter i c).cur.lasting = s.cur.lasting := by
  unfold State.enter
  simp only
  split
  · rfl
  · split
    · rw [cur_modCur _ _ (by simpa using h), cur_modCur _ _ (by simpa using h), marker_cur s _ h]; rfl
    · rw [cur_modCur _ _ h]; rfl

@[simp] theorem moveOn_now (s : State) (r : Option (BitVec 5)) (c : Ctl) (own : Bool) (g : Nat) (pc : Word) :
    (s.moveOn r c own g pc).now = s.now := by
  unfold State.moveOn
  simp only
  split <;> simp
@[simp] theorem moveOn_agenda (s : State) (r : Option (BitVec 5)) (c : Ctl) (own : Bool) (g : Nat) (pc : Word) :
    (s.moveOn r c own g pc).agenda = s.agenda := by
  unfold State.moveOn
  simp only
  split <;> simp
@[simp] theorem moveOn_focus (s : State) (r : Option (BitVec 5)) (c : Ctl) (own : Bool) (g : Nat) (pc : Word) :
    (s.moveOn r c own g pc).focus = s.focus := by
  unfold State.moveOn
  simp only
  split <;> simp
@[simp] theorem moveOn_mem (s : State) (r : Option (BitVec 5)) (c : Ctl) (own : Bool) (g : Nat) (pc : Word) :
    (s.moveOn r c own g pc).mem = s.mem := by
  unfold State.moveOn
  simp only
  split <;> simp
@[simp] theorem moveOn_poison (s : State) (r : Option (BitVec 5)) (c : Ctl) (own : Bool) (g : Nat) (pc : Word) :
    (s.moveOn r c own g pc).poison = s.poison := by
  unfold State.moveOn
  simp only
  split <;> simp
@[simp] theorem moveOn_homes (s : State) (r : Option (BitVec 5)) (c : Ctl) (own : Bool) (g : Nat) (pc : Word) :
    (s.moveOn r c own g pc).homes = s.homes := by
  unfold State.moveOn
  simp only
  split <;> simp
@[simp] theorem moveOn_images (s : State) (r : Option (BitVec 5)) (c : Ctl) (own : Bool) (g : Nat) (pc : Word) :
    (s.moveOn r c own g pc).images = s.images := by
  unfold State.moveOn
  simp only
  split <;> simp
@[simp] theorem moveOn_groups (s : State) (r : Option (BitVec 5)) (c : Ctl) (own : Bool) (g : Nat) (pc : Word) :
    (s.moveOn r c own g pc).groups = s.groups := by
  unfold State.moveOn
  simp only
  split <;> simp
@[simp] theorem moveOn_seqs (s : State) (r : Option (BitVec 5)) (c : Ctl) (own : Bool) (g : Nat) (pc : Word) :
    (s.moveOn r c own g pc).seqs = s.seqs := by
  unfold State.moveOn
  simp only
  split <;> simp
@[simp] theorem moveOn_parts (s : State) (r : Option (BitVec 5)) (c : Ctl) (own : Bool) (g : Nat) (pc : Word) :
    (s.moveOn r c own g pc).parts = s.parts := by
  unfold State.moveOn
  simp only
  split <;> simp
@[simp] theorem moveOn_pkg (s : State) (r : Option (BitVec 5)) (c : Ctl) (own : Bool) (g : Nat) (pc : Word) :
    (s.moveOn r c own g pc).pkg = s.pkg := by
  unfold State.moveOn
  simp only
  split <;> simp
@[simp] theorem moveOn_nextId (s : State) (r : Option (BitVec 5)) (c : Ctl) (own : Bool) (g : Nat) (pc : Word) :
    (s.moveOn r c own g pc).nextId = s.nextId := by
  unfold State.moveOn
  simp only
  split <;> simp
@[simp] theorem moveOn_free (s : State) (r : Option (BitVec 5)) (c : Ctl) (own : Bool) (g : Nat) (pc : Word) :
    (s.moveOn r c own g pc).free = s.free := by
  unfold State.moveOn
  simp only
  split <;> simp

/-- The thread after a word, but for a marker behind it. -/
theorem moveOn_cur_cases (s : State) (r : Option (BitVec 5)) (c : Ctl) (own : Bool) (g : Nat) (pc : Word) (h : s.focus.slot < 4) :
    let th := s.cur.advance s.now (c.sc.toNat + g) (c.sc.toNat + Nat.min g 2) pc r
    (s.moveOn r c own g pc).cur = th ∨
      (s.moveOn r c own g pc).cur =
        { th.openRegion pc 0#8 with
          inflight := th.inflight ++ toInFlight s.now th.regionNo th.netclass th.nextSid th.buffered
          nextSid := th.nextSid + th.buffered.length
          departing := th.departing ++ th.held } := by
  have e := cur_modCur s (fun th => th.advance s.now (c.sc.toNat + g) (c.sc.toNat + Nat.min g 2) pc r) h
  intro th
  unfold State.moveOn
  simp only
  split
  · right
    have m := marker_cur (s.modCur fun th => th.advance s.now (c.sc.toNat + g) (c.sc.toNat + Nat.min g 2) pc r)
      pc (by simpa using h)
    rw [e] at m
    exact m
  · exact .inl e

/-- The end of a word changes only the thread's region and its next issue. -/
theorem moveOn_lasting (s : State) (r : Option (BitVec 5)) (c : Ctl) (own : Bool) (g : Nat) (pc : Word) (h : s.focus.slot < 4) :
    (s.moveOn r c own g pc).cur.lasting = s.cur.lasting := by
  rcases moveOn_cur_cases s r c own g pc h with e | e <;> rw [e] <;> rfl

theorem moveOn_pc (s : State) (r : Option (BitVec 5)) (c : Ctl) (own : Bool) (g : Nat) (pc : Word) (h : s.focus.slot < 4) :
    (s.moveOn r c own g pc).cur.pc = pc := by
  rcases moveOn_cur_cases s r c own g pc h with e | e <;> rw [e] <;> rfl


/-! ## Registers over time (R52) -/

theorem landAll_append : ∀ (l m : List Pending) (th : Thread), landAll (l ++ m) th = landAll m (landAll l th)
  | [], _, _ => rfl
  | p :: ps, m, th => landAll_append ps m (th.land p)

theorem land_regs_congr {a b : Thread} (h : a.regs = b.regs) (p : Pending) : (a.land p).regs = (b.land p).regs := by
  unfold Thread.land Thread.setReg Thread.setPred
  split <;> split <;> simp [h]

theorem land_preds_congr {a b : Thread} (h : a.preds = b.preds) (p : Pending) : (a.land p).preds = (b.land p).preds := by
  unfold Thread.land Thread.setReg Thread.setPred
  split <;> split <;> simp [h]

theorem landAll_regs_congr : ∀ (l : List Pending) {a b : Thread}, a.regs = b.regs →
    (landAll l a).regs = (landAll l b).regs
  | [], _, _, h => h
  | p :: ps, _, _, h => landAll_regs_congr ps (land_regs_congr h p)

theorem landAll_preds_congr : ∀ (l : List Pending) {a b : Thread}, a.preds = b.preds →
    (landAll l a).preds = (landAll l b).preds
  | [], _, _, h => h
  | p :: ps, _, _, h => landAll_preds_congr ps (land_preds_congr h p)

theorem reg_congr {a b : Thread} (h : a.regs = b.regs) (r : BitVec 5) : a.reg r = b.reg r := by
  unfold Thread.reg
  rw [h]

theorem pred_congr {a b : Thread} (h : a.preds = b.preds) (p : BitVec 4) : a.pred p = b.pred p := by
  unfold Thread.pred
  rw [h]

/-- A register over time depends on the registers and the pending results alone. -/
theorem regAt_congr {a b : Thread} (h : a.regs = b.regs) (hp : a.pend = b.pend) (n : Nat) (r : BitVec 5) :
    a.regAt n r = b.regAt n r := by
  unfold Thread.regAt Thread.settle Thread.reg
  simp only [hp]
  rw [landAll_regs_congr _ h]

theorem predAt_congr {a b : Thread} (h : a.preds = b.preds) (hp : a.pend = b.pend) (n : Nat) (p : BitVec 4) :
    a.predAt n p = b.predAt n p := by
  unfold Thread.predAt Thread.settle Thread.pred
  simp only [hp]
  rw [landAll_preds_congr _ h]

theorem reg_setReg_same (th : Thread) (r : BitVec 5) (v : Word) :
    (th.setReg r v).reg r = if r = 0#5 then 0#64 else v := by
  unfold Thread.setReg Thread.reg
  split
  · rfl
  · simp [vget_vset_same _ _ _ r.isLt]

theorem reg_setReg_ne (th : Thread) {r q : BitVec 5} (v : Word) (h : q ≠ r) : (th.setReg r v).reg q = th.reg q := by
  unfold Thread.setReg Thread.reg
  split
  · rfl
  · split
    · rfl
    · exact vget_vset_ne _ _ _ fun e => h (BitVec.eq_of_toNat_eq e)

theorem pred_setReg (th : Thread) (r : BitVec 5) (v : Word) (p : BitVec 4) : (th.setReg r v).pred p = th.pred p := by
  unfold Thread.setReg Thread.pred
  split <;> rfl

theorem putBit16_same (v : BitVec 16) (i : Nat) (b : Bool) (h : i < 16) : (putBit16 v i b).getLsbD i = b := by
  unfold putBit16
  cases b <;> simp [h]

theorem putBit16_ne (v : BitVec 16) {i j : Nat} (b : Bool) (h : j ≠ i) : (putBit16 v i b).getLsbD j = v.getLsbD j := by
  unfold putBit16
  by_cases hj : j < 16
  · cases b
    · simp only [Bool.false_eq_true, if_false, BitVec.getLsbD_and, BitVec.getLsbD_not, hj, decide_true, Bool.true_and,
        BitVec.getLsbD_shiftLeft, BitVec.getLsbD_one]
      by_cases hl : j < i
      · simp [hl]
      · have : j - i ≠ 0 := by omega
        simp [this]
    · simp only [if_true, BitVec.getLsbD_or, BitVec.getLsbD_shiftLeft, hj, decide_true, Bool.true_and, BitVec.getLsbD_one]
      by_cases hl : j < i
      · simp [hl]
      · have : j - i ≠ 0 := by omega
        simp [this]
  · simp [BitVec.getLsbD_of_ge _ _ (by omega : 16 ≤ j)]

theorem pred_setPred_same (th : Thread) (p : BitVec 4) (b : Bool) : (th.setPred p b).pred p = (p == 0#4 || b) := by
  unfold Thread.setPred Thread.pred
  split
  · next h => simp [h]
  · next => simp [putBit16_same _ _ _ p.isLt]

theorem pred_setPred_ne (th : Thread) {p q : BitVec 4} (b : Bool) (h : q ≠ p) : (th.setPred p b).pred q = th.pred q := by
  unfold Thread.setPred Thread.pred
  split
  · rfl
  · simp [putBit16_ne _ _ (fun e => h (BitVec.eq_of_toNat_eq e))]

theorem reg_setPred (th : Thread) (p : BitVec 4) (b : Bool) (r : BitVec 5) : (th.setPred p b).reg r = th.reg r := by
  by_cases h : p = 0#4 <;> simp [Thread.setPred, Thread.reg, h]

/-- A thread with one more pending result, read in any cycle. -/
theorem settle_append (th : Thread) (p : Pending) (n : Nat) :
    ({ th with pend := th.pend ++ [p] } : Thread).settle n =
      if p.due < n then
        { (landAll (th.pend.filter fun q => decide (q.due < n)) { th with pend := th.pend ++ [p] }).land p with
          pend := th.pend.filter fun q => decide (n ≤ q.due) }
      else
        { landAll (th.pend.filter fun q => decide (q.due < n)) { th with pend := th.pend ++ [p] } with
          pend := (th.pend.filter fun q => decide (n ≤ q.due)) ++ [p] } := by
  unfold Thread.settle
  by_cases h : p.due < n
  · have h' : ¬ n ≤ p.due := by omega
    simp [List.filter_append, List.filter, h, h', landAll_append, landAll]
  · have h' : n ≤ p.due := by omega
    simp [List.filter_append, List.filter, h, h']

theorem result_regs (th : Thread) (now : Nat) (d : BitVec 5) (v : Word) (lat : Nat) :
    (th.result now d v lat).regs = th.regs := by
  unfold Thread.result; split <;> rfl

theorem result_preds (th : Thread) (now : Nat) (d : BitVec 5) (v : Word) (lat : Nat) :
    (th.result now d v lat).preds = th.preds := by
  unfold Thread.result; split <;> rfl

theorem result_pend (th : Thread) (now : Nat) (d : BitVec 5) (v : Word) (lat : Nat) :
    (th.result now d v lat).pend = if d = 0#5 then th.pend else th.pend ++ [⟨d.toNat, v, now + lat - 1⟩] := by
  unfold Thread.result; split <;> rfl

/-- A fixed-latency result is read from the cycle of its latency on (R52). -/
theorem regAt_result_same (th : Thread) (now : Nat) (d : BitVec 5) (v : Word) {lat : Nat} (hl : 0 < lat) :
    (th.result now d v lat).regAt (now + lat) d = if d = 0#5 then 0#64 else v := by
  by_cases hd : d = 0#5
  · subst hd
    simp [Thread.regAt, Thread.reg]
  · have e := regAt_congr (a := th.result now d v lat) (b := { th with pend := th.pend ++ [⟨d.toNat, v, now + lat - 1⟩] })
      (result_regs ..) (by rw [result_pend]; simp [hd]) (now + lat) d
    rw [e]
    unfold Thread.regAt
    rw [settle_append]
    have hdue : now + lat - 1 < now + lat := by omega
    simp only [hdue, if_true, hd, if_false]
    have hlt : d.toNat < 32 := d.isLt
    have : (BitVec.ofNat 5 d.toNat) = d := by simp
    unfold Thread.land
    simp only [hlt, if_true, this]
    have := reg_setReg_same (landAll (th.pend.filter fun q => decide (q.due < now + lat))
      { th with pend := th.pend ++ [⟨d.toNat, v, now + lat - 1⟩] }) d v
    simp only [hd, if_false] at this
    exact this

/-- A fixed-latency result leaves every other register, in every cycle. -/
theorem regAt_result_ne (th : Thread) (now n : Nat) {d r : BitVec 5} (v : Word) (lat : Nat) (h : r ≠ d) :
    (th.result now d v lat).regAt n r = th.regAt n r := by
  by_cases hd : d = 0#5
  · exact regAt_congr (result_regs ..) (by rw [result_pend]; simp [hd]) n r
  · have e := regAt_congr (a := th.result now d v lat) (b := { th with pend := th.pend ++ [⟨d.toNat, v, now + lat - 1⟩] })
      (result_regs ..) (by rw [result_pend]; simp [hd]) n r
    rw [e]
    unfold Thread.regAt
    rw [settle_append]
    have base : (landAll (th.pend.filter fun q => decide (q.due < n))
        { th with pend := th.pend ++ [⟨d.toNat, v, now + lat - 1⟩] }).reg r = (th.settle n).reg r :=
      reg_congr (b := th.settle n) (landAll_regs_congr _ (a := { th with pend := th.pend ++ [⟨d.toNat, v, now + lat - 1⟩] }) (b := th) rfl) r
    split
    · have hlt : d.toNat < 32 := d.isLt
      have hb : (BitVec.ofNat 5 d.toNat) = d := by simp
      have := reg_setReg_ne (landAll (th.pend.filter fun q => decide (q.due < n))
        { th with pend := th.pend ++ [⟨d.toNat, v, now + lat - 1⟩] }) v h
      unfold Thread.land
      simp only [hlt, if_true, hb]
      exact this.trans base
    · exact base

theorem predAt_result (th : Thread) (now n : Nat) (d : BitVec 5) (v : Word) (lat : Nat) (p : BitVec 4) :
    (th.result now d v lat).predAt n p = th.predAt n p := by
  by_cases hd : d = 0#5
  · exact predAt_congr (result_preds ..) (by rw [result_pend]; simp [hd]) n p
  · have e := predAt_congr (a := th.result now d v lat) (b := { th with pend := th.pend ++ [⟨d.toNat, v, now + lat - 1⟩] })
      (result_preds ..) (by rw [result_pend]; simp [hd]) n p
    rw [e]
    unfold Thread.predAt
    rw [settle_append]
    have base : (landAll (th.pend.filter fun q => decide (q.due < n))
        { th with pend := th.pend ++ [⟨d.toNat, v, now + lat - 1⟩] }).pred p = (th.settle n).pred p :=
      pred_congr (b := th.settle n) (landAll_preds_congr _ (a := { th with pend := th.pend ++ [⟨d.toNat, v, now + lat - 1⟩] }) (b := th) rfl) p
    split
    · have hlt : d.toNat < 32 := d.isLt
      have hb : (BitVec.ofNat 5 d.toNat) = d := by simp
      have := pred_setReg (landAll (th.pend.filter fun q => decide (q.due < n))
        { th with pend := th.pend ++ [⟨d.toNat, v, now + lat - 1⟩] }) d v p
      unfold Thread.land
      simp only [hlt, if_true, hb]
      exact this.trans base
    · exact base

/-! ## The issue of a word -/

/-- The meaning of a word that issues with nothing in its way is its effect in the state of its issue, and the
end of a word around it (R39, R40). -/
theorem issueWord_of_issues {i : Instr} {c : Ctl} {s : State} (body : State → Body) (h : issues i c s = true) :
    issueWord i c body s = .next ((body (s.atIssue i c)).finish i c (s.begin.cur.ownRegion i c)) := by
  simp only [issues, Bool.and_eq_true, decide_eq_true_eq, Bool.not_eq_true', Option.isNone_iff_eq_none] at h
  obtain ⟨⟨⟨⟨_, h2⟩, h3⟩, h4⟩, h5⟩ := h
  unfold issueWord State.atIssue
  simp [h2, h3, h4, h5]

theorem slot_of_issues {i : Instr} {c : Ctl} {s : State} (h : issues i c s = true) : s.focus.slot < 4 := by
  simp only [issues, Bool.and_eq_true, decide_eq_true_eq] at h
  exact h.1.1.1.1

theorem begin_cur (s : State) (h : s.focus.slot < 4) : s.begin.cur = s.cur.settle s.now := cur_modCur s _ h

@[simp] theorem atIssue_now (s : State) (i : Instr) (c : Ctl) : (s.atIssue i c).now = s.now := by
  simp [State.atIssue]
@[simp] theorem atIssue_agenda (s : State) (i : Instr) (c : Ctl) : (s.atIssue i c).agenda = s.agenda := by
  simp [State.atIssue]
@[simp] theorem atIssue_focus (s : State) (i : Instr) (c : Ctl) : (s.atIssue i c).focus = s.focus := by
  simp [State.atIssue]
@[simp] theorem atIssue_mem (s : State) (i : Instr) (c : Ctl) : (s.atIssue i c).mem = s.mem := by
  simp [State.atIssue]
@[simp] theorem atIssue_poison (s : State) (i : Instr) (c : Ctl) : (s.atIssue i c).poison = s.poison := by
  simp [State.atIssue]
@[simp] theorem atIssue_homes (s : State) (i : Instr) (c : Ctl) : (s.atIssue i c).homes = s.homes := by
  simp [State.atIssue]
@[simp] theorem atIssue_images (s : State) (i : Instr) (c : Ctl) : (s.atIssue i c).images = s.images := by
  simp [State.atIssue]
@[simp] theorem atIssue_groups (s : State) (i : Instr) (c : Ctl) : (s.atIssue i c).groups = s.groups := by
  simp [State.atIssue]
@[simp] theorem atIssue_seqs (s : State) (i : Instr) (c : Ctl) : (s.atIssue i c).seqs = s.seqs := by
  simp [State.atIssue]
@[simp] theorem atIssue_parts (s : State) (i : Instr) (c : Ctl) : (s.atIssue i c).parts = s.parts := by
  simp [State.atIssue]
@[simp] theorem atIssue_nextId (s : State) (i : Instr) (c : Ctl) : (s.atIssue i c).nextId = s.nextId := by
  simp [State.atIssue]
@[simp] theorem atIssue_free (s : State) (i : Instr) (c : Ctl) : (s.atIssue i c).free = s.free := by
  simp [State.atIssue]
theorem atIssue_cur_pc (s : State) (i : Instr) (c : Ctl) (h : s.focus.slot < 4) :
    (s.atIssue i c).cur.pc = s.begin.cur.pc := by
  unfold State.atIssue
  rw [enter_cur_pc _ _ _ (by simpa using h)]
  rfl
theorem atIssue_cur_lastSet (s : State) (i : Instr) (c : Ctl) (h : s.focus.slot < 4) :
    (s.atIssue i c).cur.lastSet = s.begin.cur.lastSet := by
  unfold State.atIssue
  rw [enter_cur_lastSet _ _ _ (by simpa using h)]
  rfl
theorem atIssue_cur_waiting (s : State) (i : Instr) (c : Ctl) (h : s.focus.slot < 4) :
    (s.atIssue i c).cur.waiting = s.begin.cur.waiting := by
  unfold State.atIssue
  rw [enter_cur_waiting _ _ _ (by simpa using h)]
  rfl
theorem atIssue_cur_arrived (s : State) (i : Instr) (c : Ctl) (h : s.focus.slot < 4) :
    (s.atIssue i c).cur.arrived = s.begin.cur.arrived := by
  unfold State.atIssue
  rw [enter_cur_arrived _ _ _ (by simpa using h)]
  rfl
theorem atIssue_cur_earliest (s : State) (i : Instr) (c : Ctl) (h : s.focus.slot < 4) :
    (s.atIssue i c).cur.earliest = s.begin.cur.earliest := by
  unfold State.atIssue
  rw [enter_cur_earliest _ _ _ (by simpa using h)]
  rfl
theorem atIssue_cur_distance (s : State) (i : Instr) (c : Ctl) (h : s.focus.slot < 4) :
    (s.atIssue i c).cur.distance = s.begin.cur.distance := by
  unfold State.atIssue
  rw [enter_cur_distance _ _ _ (by simpa using h)]
  rfl

theorem atIssue_lasting (s : State) (i : Instr) (c : Ctl) (h : s.focus.slot < 4) :
    (s.atIssue i c).cur.lasting = s.begin.cur.lasting := by
  unfold State.atIssue
  rw [enter_lasting _ _ _ (by simpa using h)]
  rfl

theorem atIssue_reg (s : State) (i : Instr) (c : Ctl) (h : s.focus.slot < 4) (r : BitVec 5) :
    (s.atIssue i c).cur.reg r = s.begin.cur.reg r :=
  reg_congr (congrArg Thread.regs (atIssue_lasting s i c h)) r

theorem atIssue_pred (s : State) (i : Instr) (c : Ctl) (h : s.focus.slot < 4) (p : BitVec 4) :
    (s.atIssue i c).cur.pred p = s.begin.cur.pred p :=
  pred_congr (congrArg Thread.preds (atIssue_lasting s i c h)) p


/-! ## What stays as it was -/

theorem sameUnits_of_tiles {s u : State} (h : u.tiles = s.tiles) : SameUnits s u :=
  ⟨fun t k _ => thread_congr h t k, fun t => by rw [ctx_congr h],
    fun t k => by unfold State.token; rw [ctx_congr h],
    fun p => by unfold State.teAt State.te; rw [ctx_congr h]⟩

theorem sameUnits_trans {s u v : State} (h : SameUnits s u) (hf : u.focus = s.focus) (k : SameUnits u v) :
    SameUnits s v :=
  ⟨fun t j n => (k.1 t j (by rw [hf]; exact n)).trans (h.1 t j n), fun t => (k.2.1 t).trans (h.2.1 t),
    fun t j => (k.2.2.1 t j).trans (h.2.2.1 t j), fun p => (k.2.2.2 p).trans (h.2.2.2 p)⟩

/-- A context whose thread was replaced, seen from any tile. -/
theorem ctx_setThread (s : State) (t k u : Nat) (th : Thread) :
    (s.setThread t k th).ctx u = if u = t then { s.ctx t with threads := vset (s.ctx t).threads k th } else s.ctx u := by
  unfold State.setThread
  split
  · next e => subst e; simp
  · next e => exact ctx_modCtx_ne s _ e

theorem sameUnits_setThread (s : State) (t k : Nat) (th : Thread) (ht : t = s.focus.tile) (hk : k = s.focus.slot) :
    SameUnits s (s.setThread t k th) := by
  subst ht hk
  refine ⟨fun u j n => thread_setThread_ne s th n, fun u => ?_, fun u j => ?_, fun p => ?_⟩
  · rw [ctx_setThread]; split
    · next e => subst e; rfl
    · rfl
  · unfold State.token; rw [ctx_setThread]; split
    · next e => subst e; rfl
    · rfl
  · unfold State.teAt State.te; rw [ctx_setThread]; split
    · next e => rw [e]
    · rfl

theorem sameUnits_modCur (s : State) (f : Thread → Thread) : SameUnits s (s.modCur f) :=
  sameUnits_setThread s _ _ _ rfl rfl

theorem sameUnits_marker (s : State) (pc : Word) : SameUnits s (s.marker s.focus.tile s.focus.slot pc) := by
  unfold State.marker
  exact sameUnits_setThread s _ _ _ rfl rfl

theorem sameUnits_front (s : State) (pc : Word) (f : Thread → Thread) :
    SameUnits s ((s.marker s.focus.tile s.focus.slot pc).modCur f) :=
  sameUnits_trans (sameUnits_marker s pc) (marker_focus ..) (sameUnits_modCur _ f)

theorem sameUnits_enter (s : State) (i : Instr) (c : Ctl) : SameUnits s (s.enter i c) := by
  unfold State.enter
  simp only
  split
  · exact sameUnits_of_tiles rfl
  · split
    · exact sameUnits_trans (sameUnits_front s _ _) (by simp) (sameUnits_modCur _ _)
    · exact sameUnits_modCur _ _

theorem sameUnits_atIssue (s : State) (i : Instr) (c : Ctl) : SameUnits s (s.atIssue i c) := by
  unfold State.atIssue
  refine sameUnits_trans (u := s.begin) (sameUnits_modCur s _) rfl ?_
  exact sameUnits_trans (u := s.begin.count 0 (4 * s.focus.tile + s.focus.slot) 0) (sameUnits_of_tiles rfl) rfl
    (sameUnits_enter _ i c)

theorem sameUnits_moveOn (s : State) (r : Option (BitVec 5)) (c : Ctl) (own : Bool) (g : Nat) (pc : Word) :
    SameUnits s (s.moveOn r c own g pc) := by
  unfold State.moveOn
  simp only
  split
  · exact sameUnits_trans (sameUnits_modCur _ _) rfl (sameUnits_marker (s.modCur _) pc)
  · exact sameUnits_modCur _ _


end Sys2Proof.Machine
end

