-- ==== Sys2Proof/Laws/Access.lean ====
section
/-! SUPPORT. What resolving an address can do to the state, and what the thread's own accesses leave. -/

namespace Sys2Proof.Machine

/-- The leaf of an address comes with a state that differs from the first in buffers and walkers alone (R327). -/
theorem leafOf_keeps {α : Type} (f : State → α) (hf : ∀ (u : State) (b : TlbId) (l : List Leaf), f (u.setTlb b l) = f u)
    (hw : ∀ (u : State) (d : Nat) (l : List Leaf), f (u.fillWalker d l) = f u) {s u : State} {b : TlbId} {p : Partition}
    {host : Bool} {va : Word} {l : Leaf} (h : s.leafOf b p host va = .ok (l, u)) : f u = f s := by
  have fill : ∀ (u : State) (b : TlbId) (l : Leaf), f (u.fillTlb b l) = f u := fun u b l => hf u b _
  unfold State.leafOf at h
  split at h
  · cases h; rfl
  · split at h
    · cases h; exact fill _ _ _
    · split at h
      · cases h
      · cases h
        rw [fill]
        split
        · rw [fill, hw]
        · rw [hw]

theorem translate_keeps {α : Type} (f : State → α) (hf : ∀ (u : State) (b : TlbId) (l : List Leaf), f (u.setTlb b l) = f u)
    (hw : ∀ (u : State) (d : Nat) (l : List Leaf), f (u.fillWalker d l) = f u) {s : State} {b : TlbId}
    {p : Partition} {host : Bool} {va : Word} {need : Need} {r : Nat × State}
    (h : s.translate b p host va need = .ok r) : f r.2 = f s := by
  unfold State.translate at h
  split at h
  · cases h
  · split at h
    · cases h
    · next hl =>
      split at h
      · cases h
      · cases h; exact leafOf_keeps f hf hw hl

/-- A place past a gateway is the place that came to it (R349). -/
theorem pastGateway_ok {s : State} {p : Partition} {tile : Nat} {space : Space} {r q : Nat × State}
    (h : s.pastGateway p tile space r = .ok q) : q = r := by
  unfold State.pastGateway at h
  split at h <;> cases h
  rfl

/-- What no filling of a buffer or of a walker changes, resolving an address leaves as it is (R92, R326, R327). -/
theorem resolve_keeps {α : Type} (f : State → α) (hf : ∀ (u : State) (b : TlbId) (l : List Leaf), f (u.setTlb b l) = f u)
    (hw : ∀ (u : State) (d : Nat) (l : List Leaf), f (u.fillWalker d l) = f u)
    {s s' : State} {b : TlbId} {tile gid : Nat} {space : Space} {addr : Word} {size place : Nat}
    {need : Need} (h : s.resolve b tile gid space addr size need = .ok (place, s')) : f s' = f s := by
  have bind_ok : ∀ {x : Except AccessErr (Nat × State)} {g : Nat × State → Except AccessErr (Nat × State)} {q : Nat × State},
      x.bind g = .ok q → ∃ r, x = .ok r ∧ g r = .ok q := by
    intro x g q h
    cases x with
    | error e => cases h
    | ok r => exact ⟨r, rfl, h⟩
  unfold State.resolve at h
  split at h
  · cases h
  · split at h
    · cases h
    · split at h
      · split at h
        · cases h
        · split at h
          · cases h; rfl
          · cases h
      · next p _ _ =>
        cases hp : slicePlace p tile addr with
        | error e => rw [hp] at h; cases h
        | ok loc =>
          rw [hp] at h
          have := pastGateway_ok h
          cases this; rfl
      · obtain ⟨r, h1, h2⟩ := bind_ok h
        have := pastGateway_ok h2
        rw [← this] at h1
        exact translate_keeps f hf hw h1
      · obtain ⟨r, h1, h2⟩ := bind_ok h
        have := pastGateway_ok h2
        rw [← this] at h1
        exact translate_keeps f hf hw h1

@[simp] theorem setTlb_now (s : State) (b : TlbId) (l : List Leaf) : (s.setTlb b l).now = s.now := by cases b <;> rfl
@[simp] theorem setTlb_mem (s : State) (b : TlbId) (l : List Leaf) : (s.setTlb b l).mem = s.mem := by cases b <;> rfl
@[simp] theorem setTlb_focus (s : State) (b : TlbId) (l : List Leaf) : (s.setTlb b l).focus = s.focus := by cases b <;> rfl
@[simp] theorem setTlb_poison (s : State) (b : TlbId) (l : List Leaf) : (s.setTlb b l).poison = s.poison := by cases b <;> rfl
@[simp] theorem setTlb_groups (s : State) (b : TlbId) (l : List Leaf) : (s.setTlb b l).groups = s.groups := by cases b <;> rfl
@[simp] theorem setTlb_parts (s : State) (b : TlbId) (l : List Leaf) : (s.setTlb b l).parts = s.parts := by cases b <;> rfl
@[simp] theorem fillWalker_now (s : State) (d : Nat) (l : List Leaf) : (s.fillWalker d l).now = s.now := by
  unfold State.fillWalker; split <;> rfl
@[simp] theorem fillWalker_mem (s : State) (d : Nat) (l : List Leaf) : (s.fillWalker d l).mem = s.mem := by
  unfold State.fillWalker; split <;> rfl
@[simp] theorem fillWalker_focus (s : State) (d : Nat) (l : List Leaf) : (s.fillWalker d l).focus = s.focus := by
  unfold State.fillWalker; split <;> rfl
@[simp] theorem fillWalker_poison (s : State) (d : Nat) (l : List Leaf) : (s.fillWalker d l).poison = s.poison := by
  unfold State.fillWalker; split <;> rfl
@[simp] theorem fillWalker_groups (s : State) (d : Nat) (l : List Leaf) : (s.fillWalker d l).groups = s.groups := by
  unfold State.fillWalker; split <;> rfl
@[simp] theorem fillWalker_parts (s : State) (d : Nat) (l : List Leaf) : (s.fillWalker d l).parts = s.parts := by
  unfold State.fillWalker; split <;> rfl
@[simp] theorem fillWalker_tiles (s : State) (d : Nat) (l : List Leaf) : (s.fillWalker d l).tiles = s.tiles := by
  unfold State.fillWalker; split <;> rfl
@[simp] theorem fillWalker_ctx (s : State) (d : Nat) (l : List Leaf) (t : Nat) : (s.fillWalker d l).ctx t = s.ctx t :=
  ctx_congr (by simp) t

/-- A buffer of leaves stands beside the running context of its tile. -/
theorem setTlb_ctx (s : State) (b : TlbId) (l : List Leaf) (t : Nat) : (s.setTlb b l).ctx t = s.ctx t := by
  cases b with
  | tile u =>
    by_cases h : t = u
    · subst h; simp [State.setTlb, State.ctx]
    · simp [State.setTlb, State.ctx, tile_modTile_ne s _ h]
  | quad q => rfl
  | sieve p => rfl

theorem resolve_mem {s s' : State} {b : TlbId} {tile gid : Nat} {space : Space} {addr : Word} {size place : Nat}
    {need : Need} (h : s.resolve b tile gid space addr size need = .ok (place, s')) : s'.mem = s.mem :=
  resolve_keeps (·.mem) (fun u b l => by simp) (fun u d l => by simp) h

theorem resolve_poison {s s' : State} {b : TlbId} {tile gid : Nat} {space : Space} {addr : Word} {size place : Nat}
    {need : Need} (h : s.resolve b tile gid space addr size need = .ok (place, s')) : s'.poison = s.poison :=
  resolve_keeps (·.poison) (fun u b l => by simp) (fun u d l => by simp) h

theorem resolve_focus {s s' : State} {b : TlbId} {tile gid : Nat} {space : Space} {addr : Word} {size place : Nat}
    {need : Need} (h : s.resolve b tile gid space addr size need = .ok (place, s')) : s'.focus = s.focus :=
  resolve_keeps (·.focus) (fun u b l => by simp) (fun u d l => by simp) h

theorem resolve_now {s s' : State} {b : TlbId} {tile gid : Nat} {space : Space} {addr : Word} {size place : Nat}
    {need : Need} (h : s.resolve b tile gid space addr size need = .ok (place, s')) : s'.now = s.now :=
  resolve_keeps (·.now) (fun u b l => by simp) (fun u d l => by simp) h

theorem resolve_groups {s s' : State} {b : TlbId} {tile gid : Nat} {space : Space} {addr : Word} {size place : Nat}
    {need : Need} (h : s.resolve b tile gid space addr size need = .ok (place, s')) : s'.groups = s.groups :=
  resolve_keeps (·.groups) (fun u b l => by simp) (fun u d l => by simp) h

theorem resolve_ctx {s s' : State} {b : TlbId} {tile gid : Nat} {space : Space} {addr : Word} {size place : Nat}
    {need : Need} (h : s.resolve b tile gid space addr size need = .ok (place, s')) (t : Nat) : s'.ctx t = s.ctx t :=
  resolve_keeps (·.ctx t) (fun u b l => setTlb_ctx u b l t) (fun u d l => by simp) h

/-- The thread in focus is the same after an address is resolved. -/
theorem resolve_cur {s s' : State} {b : TlbId} {tile gid : Nat} {space : Space} {addr : Word} {size place : Nat}
    {need : Need} (h : s.resolve b tile gid space addr size need = .ok (place, s')) : s'.cur = s.cur := by
  unfold State.cur State.thread
  rw [resolve_ctx h, resolve_focus h]

theorem sameUnits_of_ctx {s u : State} (h : ∀ t, u.ctx t = s.ctx t) : SameUnits s u :=
  ⟨fun t k _ => by unfold State.thread; rw [h], fun t => by rw [h], fun t k => by unfold State.token; rw [h],
    fun p => by unfold State.teAt State.te; rw [h]⟩

theorem sameUnits_resolve {s s' : State} {b : TlbId} {tile gid : Nat} {space : Space} {addr : Word} {size place : Nat}
    {need : Need} (h : s.resolve b tile gid space addr size need = .ok (place, s')) : SameUnits s s' :=
  sameUnits_of_ctx (resolve_ctx h)

/-! ## Pending results written leave the special registers -/

theorem land_specials (th : Thread) (p : Pending) : (th.land p).specials = th.specials := by
  unfold Thread.land Thread.setReg Thread.setPred
  split <;> split <;> rfl

theorem landAll_specials : ∀ (l : List Pending) (th : Thread), (landAll l th).specials = th.specials
  | [], _ => rfl
  | p :: ps, th => (landAll_specials ps (th.land p)).trans (land_specials th p)

theorem settle_specials (th : Thread) (n : Nat) : (th.settle n).specials = th.specials :=
  landAll_specials _ th

theorem land_pc (th : Thread) (p : Pending) : (th.land p).pc = th.pc := by
  unfold Thread.land Thread.setReg Thread.setPred
  split <;> split <;> rfl

theorem landAll_pc : ∀ (l : List Pending) (th : Thread), (landAll l th).pc = th.pc
  | [], _ => rfl
  | p :: ps, th => (landAll_pc ps (th.land p)).trans (land_pc th p)

theorem settle_pc (th : Thread) (n : Nat) : (th.settle n).pc = th.pc := landAll_pc _ th

theorem begin_cur_specials (s : State) (h : s.focus.slot < 4) : s.begin.cur.specials = s.cur.specials := by
  rw [begin_cur s h, settle_specials]

theorem begin_cur_pc (s : State) (h : s.focus.slot < 4) : s.begin.cur.pc = s.cur.pc := by
  rw [begin_cur s h, settle_pc]

theorem result_specials (th : Thread) (now : Nat) (d : BitVec 5) (v : Word) (lat : Nat) :
    (th.result now d v lat).specials = th.specials := by
  unfold Thread.result; split <;> rfl

theorem specials_of_lasting {a b : Thread} (h : a.lasting = b.lasting) : a.specials = b.specials := by
  show a.lasting.specials = b.lasting.specials
  rw [h]

theorem regs_of_lasting {a b : Thread} (h : a.lasting = b.lasting) : a.regs = b.regs := by
  show a.lasting.regs = b.lasting.regs
  rw [h]

theorem preds_of_lasting {a b : Thread} (h : a.lasting = b.lasting) : a.preds = b.preds := by
  show a.lasting.preds = b.lasting.preds
  rw [h]

theorem pend_of_lasting {a b : Thread} (h : a.lasting = b.lasting) : a.pend = b.pend := by
  show a.lasting.pend = b.lasting.pend
  rw [h]

theorem outstanding_of_lasting {a b : Thread} (h : a.lasting = b.lasting) : a.outstanding = b.outstanding := by
  show a.lasting.outstanding = b.lasting.outstanding
  rw [h]

/-! ## The words that write one fixed-latency result -/

/-- A word whose effect is one change of its thread answers a next state with that change, its thread's next word
at pc + 4, and nothing outside its thread changed. -/
theorem threadBody_spec {i : Instr} {c : Ctl} {s : State} (f : Thread → Thread) (h : issues i c s = true) :
    ∃ t, issueWord i c (threadBody f) s = .next t ∧ t.cur.lasting = (f (s.atIssue i c).cur).lasting ∧
      t.cur.pc = (f (s.atIssue i c).cur).pc + 4#64 ∧ t.mem = s.mem ∧ t.poison = s.poison ∧ t.focus = s.focus ∧
      t.now = s.now ∧ SameUnits s t := by
  have hs := slot_of_issues h
  have hc : ((s.atIssue i c).modCur f).cur = f (s.atIssue i c).cur := cur_modCur _ _ (by simpa using hs)
  refine ⟨_, issueWord_of_issues (threadBody f) h, ?_, ?_, ?_, ?_, ?_, ?_, ?_⟩
  · simp only [threadBody, Body.finish]
    rw [moveOn_lasting _ _ _ _ _ _ (by simpa using hs), hc]
  · simp only [threadBody, Body.finish]
    rw [moveOn_pc _ _ _ _ _ _ (by simpa using hs), hc]
  · simp [threadBody, Body.finish]
  · simp [threadBody, Body.finish]
  · simp [threadBody, Body.finish]
  · simp [threadBody, Body.finish]
  · exact sameUnits_trans (sameUnits_atIssue s i c) (by simp)
      (sameUnits_trans (sameUnits_modCur _ _) (by simp) (sameUnits_moveOn _ _ _ _ _ _))

/-- A word whose effect is one fixed-latency result: the register reads it from its latency on, every other
register, every predicate and every special register is as before, and so is everything outside its thread (R52). -/
theorem resultBody_spec {i : Instr} {c : Ctl} {s : State} (d : BitVec 5) {lat : Nat} (f : Thread → Word) (hl : 0 < lat)
    (h : issues i c s = true) :
    ∃ t, issueWord i c (resultBody d lat f) s = .next t ∧ RegisterGets s t d lat (f (s.atIssue i c).cur) ∧
      t.cur.pc = s.cur.pc + 4#64 ∧ SameRegsBut d s t ∧ SamePreds s t ∧ SameSpecials s t ∧ SameUnits s t ∧
      SameMemory s t := by
  have hs := slot_of_issues h
  obtain ⟨t, h1, h2, h3, h4, h5, h6, h7, h8⟩ := threadBody_spec (i := i) (c := c) (s := s)
    (fun th => th.result s.now d (f (s.atIssue i c).cur) lat) h
  have hi := atIssue_lasting s i c hs
  have hr : t.cur.regs = s.begin.cur.regs :=
    (regs_of_lasting h2).trans ((result_regs ..).trans (regs_of_lasting hi))
  have hp : t.cur.pend = (s.begin.cur.result s.now d (f (s.atIssue i c).cur) lat).pend := by
    rw [pend_of_lasting h2, result_pend, result_pend, pend_of_lasting hi]
  have hq : t.cur.preds = s.begin.cur.preds :=
    (preds_of_lasting h2).trans ((result_preds ..).trans (preds_of_lasting hi))
  refine ⟨t, ?_, ?_, ?_, ?_, ?_, ?_, h8, ?_, h5⟩
  · have e : resultBody d lat f (s.atIssue i c) =
        threadBody (fun th => th.result s.now d (f (s.atIssue i c).cur) lat) (s.atIssue i c) := by
      unfold resultBody threadBody
      rw [atIssue_now]
      rfl
    rw [issueWord_of_issues _ h] at h1 ⊢
    rw [e]
    exact h1
  · unfold RegisterGets
    rw [regAt_congr (b := s.begin.cur.result s.now d (f (s.atIssue i c).cur) lat) (hr.trans (result_regs ..).symm) hp,
      regAt_result_same _ _ _ _ hl]
  · rw [h3]
    have : ((s.atIssue i c).cur.result s.now d (f (s.atIssue i c).cur) lat).pc = (s.atIssue i c).cur.pc := by
      unfold Thread.result; split <;> rfl
    rw [this, atIssue_cur_pc s i c hs, begin_cur_pc s hs]
  · intro n r hne
    rw [regAt_congr (b := s.begin.cur.result s.now d (f (s.atIssue i c).cur) lat) (hr.trans (result_regs ..).symm) hp,
      regAt_result_ne _ _ _ _ _ hne]
  · intro n p
    rw [predAt_congr (b := s.begin.cur.result s.now d (f (s.atIssue i c).cur) lat) (hq.trans (result_preds ..).symm) hp,
      predAt_result]
  · unfold SameSpecials
    rw [specials_of_lasting h2, result_specials, specials_of_lasting hi, begin_cur_specials s hs]
  · intro a
    rw [h4]

/-! ## The words that write predicates -/

theorem predResult_regs (th : Thread) (now : Nat) (p : BitVec 4) (b : Bool) : (th.predResult now p b).regs = th.regs := by
  unfold Thread.predResult; split <;> rfl
theorem predResult_preds (th : Thread) (now : Nat) (p : BitVec 4) (b : Bool) : (th.predResult now p b).preds = th.preds := by
  unfold Thread.predResult; split <;> rfl
theorem predResult_specials (th : Thread) (now : Nat) (p : BitVec 4) (b : Bool) : (th.predResult now p b).specials = th.specials := by
  unfold Thread.predResult; split <;> rfl
theorem predResult_pc (th : Thread) (now : Nat) (p : BitVec 4) (b : Bool) : (th.predResult now p b).pc = th.pc := by
  unfold Thread.predResult; split <;> rfl
theorem predResult_pend (th : Thread) (now : Nat) (p : BitVec 4) (b : Bool) : (th.predResult now p b).pend =
   if p = 0#4 then th.pend else th.pend ++ [⟨32 + p.toNat, Word.ofN (b2n b), now + 1⟩] := by
  unfold Thread.predResult; split <;> rfl

theorem pend_pred (th : Thread) (p q : BitVec 4) (b : Bool) (now n : Nat) (hp : p ≠ 0#4) :
   ({ th with pend := th.pend ++ [⟨32 + p.toNat, Word.ofN (b2n b), now + 1⟩] } : Thread).predAt n q =
     if q = p ∧ now + 1 < n then b else th.predAt n q := by
  unfold Thread.predAt
  rw [settle_append]
  have base : (landAll (th.pend.filter fun q => decide (q.due < n))
      { th with pend := th.pend ++ [⟨32 + p.toNat, Word.ofN (b2n b), now + 1⟩] }).pred q = (th.settle n).pred q :=
    pred_congr (b := th.settle n) (landAll_preds_congr _ (a := { th with pend := th.pend ++ [⟨32 + p.toNat, Word.ofN (b2n b), now + 1⟩] }) (b := th) rfl) q
  have h32 : ¬ (32 + p.toNat < 32) := by omega
  have hb : (Word.ofN (b2n b)).getLsbD 0 = b := by cases b <;> decide
  split
  · next hlt =>
    unfold Thread.land
    simp only [h32, if_false, hb]
    have hn : BitVec.ofNat 4 (32 + p.toNat - 32) = p := by simp
    rw [hn]
    by_cases hq : q = p
    · subst hq
      have := pred_setPred_same (landAll (th.pend.filter fun q => decide (q.due < n))
        { th with pend := th.pend ++ [⟨32 + q.toNat, Word.ofN (b2n b), now + 1⟩] }) q b
      simp only [hlt, and_self, if_true]
      exact this.trans (by simp [hp])
    · have := pred_setPred_ne (landAll (th.pend.filter fun q => decide (q.due < n))
        { th with pend := th.pend ++ [⟨32 + p.toNat, Word.ofN (b2n b), now + 1⟩] }) b hq
      simp only [hq, false_and, if_false]
      exact this.trans base
  · next hlt =>
    simp only [hlt, and_false, if_false]
    exact base

/-- A predicate result is read from the second cycle on (R69). -/
theorem predAt_predResult (th : Thread) (p q : BitVec 4) (b : Bool) (now n : Nat) :
   (th.predResult now p b).predAt n q = if p ≠ 0#4 ∧ q = p ∧ now + 1 < n then b else th.predAt n q := by
  by_cases hp : p = 0#4
  · rw [predAt_congr (predResult_preds th now p b) (by rw [predResult_pend]; simp [hp])]
    simp [hp]
  · rw [predAt_congr (b := { th with pend := th.pend ++ [⟨32 + p.toNat, Word.ofN (b2n b), now + 1⟩] }) (predResult_preds th now p b) (by rw [predResult_pend]; simp [hp]), pend_pred _ _ _ _ _ _ hp]
    simp [hp]

theorem regAt_predResult (th : Thread) (p : BitVec 4) (b : Bool) (now n : Nat) (r : BitVec 5) :
   (th.predResult now p b).regAt n r = th.regAt n r := by
  by_cases hp : p = 0#4
  · exact regAt_congr (predResult_regs th now p b) (by rw [predResult_pend]; simp [hp]) _ _
  · rw [regAt_congr (b := { th with pend := th.pend ++ [⟨32 + p.toNat, Word.ofN (b2n b), now + 1⟩] }) (predResult_regs th now p b) (by rw [predResult_pend]; simp [hp])]
    unfold Thread.regAt
    rw [settle_append]
    have base : (landAll (th.pend.filter fun q => decide (q.due < n))
      { th with pend := th.pend ++ [⟨32 + p.toNat, Word.ofN (b2n b), now + 1⟩] }).reg r = (th.settle n).reg r :=
      reg_congr (b := th.settle n) (landAll_regs_congr _ (a := { th with pend := th.pend ++ [⟨32 + p.toNat, Word.ofN (b2n b), now + 1⟩] }) (b := th) rfl) r
    have h32 : ¬ (32 + p.toNat < 32) := by omega
    split
    · unfold Thread.land
      simp only [h32, if_false]
      exact (reg_setPred _ _ _ _).trans base
    · exact base

/-- A word whose effect is a predicate result, and its complement with `pair` (R67, R68). -/
theorem predBody_spec {i : Instr} {c : Ctl} {s : State} (pd : BitVec 4) (pair : BitVec 1) (f : Thread → Bool)
    (h : issues i c s = true) {v : Bool} (hfg : f (s.atIssue i c).cur = v) :
    ∃ t, issueWord i c (predBody pd pair f) s = .next t ∧ PredicateGets s t pd v ∧
      ((pair == 1#1) = true → PredicateGets s t (pd ^^^ 1#4) (!v)) ∧
      (∀ n p, p ≠ pd → ((pair == 1#1) = true → p ≠ pd ^^^ 1#4) → t.cur.predAt n p = s.begin.cur.predAt n p) ∧
      (∀ n r, t.cur.regAt n r = s.begin.cur.regAt n r) ∧
      t.cur.pc = s.cur.pc + 4#64 ∧ SameSpecials s t ∧ SameUnits s t ∧ SameMemory s t := by
  have hs := slot_of_issues h
  have hi := atIssue_lasting s i c hs
  obtain ⟨t, h1, h2, h3, h4, h5, h6, h7, h8⟩ := threadBody_spec (i := i) (c := c) (s := s) (fun th => 
    let th1 := th.predResult s.now pd (v)
    if pair = 1#1 then th1.predResult s.now (pd ^^^ 1#4) (!v) else th1) h
  simp only at h2 h3
  refine ⟨t, ?_, ?_⟩
  · rw [issueWord_of_issues _ h] at h1 ⊢
    have e : predBody pd pair f (s.atIssue i c) = threadBody (fun th => 
      let th1 := th.predResult s.now pd (v)
      if pair = 1#1 then th1.predResult s.now (pd ^^^ 1#4) (!v) else th1) (s.atIssue i c) := by
      unfold predBody threadBody State.modCur
      simp only
      rw [hfg, atIssue_now]
    rw [e]; exact h1
  · have hR : ∀ n r, t.cur.regAt n r = s.begin.cur.regAt n r := by
      intro n r
      rw [regAt_congr (regs_of_lasting h2) (pend_of_lasting h2)]
      have base := regAt_congr (regs_of_lasting hi) (pend_of_lasting hi) n r
      split <;> simp [regAt_predResult, base]
    have hP : ∀ n q, t.cur.predAt n q = (if pair = 1#1 ∧ pd ^^^ 1#4 ≠ 0#4 ∧ q = pd ^^^ 1#4 ∧ s.now + 1 < n then !v else
         if pd ≠ 0#4 ∧ q = pd ∧ s.now + 1 < n then v else s.begin.cur.predAt n q) := by
      intro n q
      rw [predAt_congr (preds_of_lasting h2) (pend_of_lasting h2)]
      have base := predAt_congr (preds_of_lasting hi) (pend_of_lasting hi) n q
      by_cases hp : pair = 1#1 <;> simp only [hp, if_true, if_false, predAt_predResult, base, true_and, false_and]
    have h0 : ∀ n, s.begin.cur.predAt n 0#4 = true := by intro n; simp [Thread.predAt, Thread.pred]
    have hx : pd ^^^ 1#4 ≠ pd := by intro e; have := congrArg (· ^^^ pd) e; simp at this
    refine ⟨?_, ?_, ?_, hR, ?_, ?_, h8, ?_⟩
    · unfold PredicateGets
      rw [hP]
      by_cases hpd : pd = 0#4
      · subst hpd; simp [h0]
      · simp [hpd, Ne.symm hx]
    · intro hp
      simp only [beq_iff_eq] at hp
      unfold PredicateGets
      rw [hP]
      by_cases hpd : pd ^^^ 1#4 = 0#4
      · rw [hpd]
        have : pd ≠ 0#4 := by intro e; subst e; exact absurd hpd (by decide)
        simp [h0, Ne.symm this]
      · simp [hpd, hp]
    · intro n p hne hne2
      rw [hP]
      by_cases hp : pair = 1#1
      · have := hne2 (by simp [hp])
        simp [this, hne]
      · simp [hp, hne]
    · rw [h3]
      have : (s.atIssue i c).cur.pc = s.cur.pc := by rw [atIssue_cur_pc s i c hs, begin_cur_pc s hs]
      split <;> simp [predResult_pc, this]
    · unfold SameSpecials
      rw [specials_of_lasting h2]
      have := (specials_of_lasting hi).trans (begin_cur_specials s hs)
      split <;> simp [predResult_specials, this]
    · exact ⟨fun a => by rw [h4], h5⟩

/-! ## The end of any word -/

/-- A marker moves a thread's buffered accesses behind those in flight, and changes the order of none. -/
theorem toInFlight_buf (now region : Nat) (x : Bool) : ∀ (n : Nat) (l : List Buffered),
    (toInFlight now region x n l).map (·.buf) = l
  | _, [] => rfl
  | n, b :: bs => by simp [toInFlight, toInFlight_buf now region x (n + 1) bs]

/-- The accesses of the thread in focus in their order are those before the entry of its word. -/
theorem accesses_moveOn (s : State) (r : Option (BitVec 5)) (c : Ctl) (own : Bool) (g : Nat) (pc : Word) (h : s.focus.slot < 4) :
    (s.moveOn r c own g pc).cur.inflight.map (·.buf) ++ (s.moveOn r c own g pc).cur.buffered =
      s.cur.inflight.map (·.buf) ++ s.cur.buffered := by
  rcases moveOn_cur_cases s r c own g pc h with e | e
  · rw [e]; rfl
  · rw [e]
    simp only [Thread.openRegion, Thread.advance, List.map_append, toInFlight_buf, List.append_nil]

/-- A word whose effect ends with `v` answers a next state that differs from `v` only in its thread's region and
next issue, and goes on at pc + 4. -/
theorem doneBody_spec {i : Instr} {c : Ctl} {s v : State} {body : State → Body} (h : issues i c s = true)
    (hb : body (s.atIssue i c) = .done v) (hf : v.focus = s.focus) :
    ∃ t, issueWord i c body s = .next t ∧ t.cur.lasting = v.cur.lasting ∧ t.cur.pc = v.cur.pc + 4#64 ∧ t.mem = v.mem ∧
      t.poison = v.poison ∧ t.groups = v.groups ∧ t.parts = v.parts ∧ t.now = v.now ∧ t.focus = v.focus ∧
      SameUnits v t ∧
      t.cur.inflight.map (·.buf) ++ t.cur.buffered = v.cur.inflight.map (·.buf) ++ v.cur.buffered := by
  have hs := slot_of_issues h
  have hv : v.focus.slot < 4 := by rw [hf]; exact hs
  refine ⟨_, issueWord_of_issues body h, ?_⟩
  rw [hb]
  simp only [Body.finish]
  exact ⟨moveOn_lasting _ _ _ _ _ _ hv, moveOn_pc _ _ _ _ _ _ hv, by simp, by simp, by simp, by simp, by simp, by simp,
    sameUnits_moveOn _ _ _ _ _ _, accesses_moveOn _ _ _ _ _ _ hv⟩

/-- A word that holds its thread leaves its effect's state, the thread waiting. -/
theorem holdBody_spec {i : Instr} {c : Ctl} {s v : State} {body : State → Body} (h : issues i c s = true)
    (hb : body (s.atIssue i c) = .hold v) :
    ∃ t, issueWord i c body s = .next t ∧
      t = v.modCur (fun th => { th with waiting := true, waitOwn := s.begin.cur.ownRegion i c }) := by
  refine ⟨_, issueWord_of_issues body h, ?_⟩
  rw [hb]
  simp only [Body.finish]

/-- What a word reads of its thread at its issue is what stands there at the start of the cycle. -/
theorem atIssue_regAt (s : State) (i : Instr) (c : Ctl) (h : s.focus.slot < 4) (n : Nat) (r : BitVec 5) :
    (s.atIssue i c).cur.regAt n r = s.begin.cur.regAt n r :=
  regAt_congr (regs_of_lasting (atIssue_lasting s i c h)) (pend_of_lasting (atIssue_lasting s i c h)) n r

theorem atIssue_predAt (s : State) (i : Instr) (c : Ctl) (h : s.focus.slot < 4) (n : Nat) (p : BitVec 4) :
    (s.atIssue i c).cur.predAt n p = s.begin.cur.predAt n p :=
  predAt_congr (preds_of_lasting (atIssue_lasting s i c h)) (pend_of_lasting (atIssue_lasting s i c h)) n p

theorem atIssue_specials (s : State) (i : Instr) (c : Ctl) (h : s.focus.slot < 4) :
    (s.atIssue i c).cur.specials = s.cur.specials :=
  (specials_of_lasting (atIssue_lasting s i c h)).trans (begin_cur_specials s h)

theorem begin_cur_outstanding (s : State) (h : s.focus.slot < 4) : s.begin.cur.outstanding = s.cur.outstanding := by
  rw [begin_cur s h]
  have : ∀ (l : List Pending) (th : Thread), (landAll l th).outstanding = th.outstanding := by
    intro l
    induction l with
    | nil => intro th; rfl
    | cons p ps ih =>
      intro th
      refine (ih _).trans ?_
      unfold Thread.land Thread.setReg Thread.setPred
      split <;> split <;> rfl
  exact this _ _

theorem atIssue_outstanding (s : State) (i : Instr) (c : Ctl) (h : s.focus.slot < 4) :
    (s.atIssue i c).cur.outstanding = s.cur.outstanding :=
  (outstanding_of_lasting (atIssue_lasting s i c h)).trans (begin_cur_outstanding s h)

theorem gid_of_lasting {a b : Thread} (h : a.lasting = b.lasting) : a.gid = b.gid := by
  show a.lasting.gid = b.lasting.gid
  rw [h]

theorem gid_of_specials {a b : Thread} (h : a.specials = b.specials) : a.gid = b.gid := by
  show a.specials.gid = b.specials.gid
  rw [h]

theorem atIssue_gid (s : State) (i : Instr) (c : Ctl) (h : s.focus.slot < 4) : (s.atIssue i c).cur.gid = s.cur.gid :=
  gid_of_specials (atIssue_specials s i c h)

end Sys2Proof.Machine
end

