-- ==== Sys2Proof/Laws/Dispatch.lean ====
section
/-! SUPPORT. The dispatcher's arms as equations: the meaning of each constructor. -/

namespace Sys2Proof.Machine

@[simp] theorem exec_add (c : Ctl) (d a b : BitVec 5) (s : State) :
    exec (.add c d a b) s = execAdd c d a b s := rfl
@[simp] theorem exec_sub (c : Ctl) (d a b : BitVec 5) (s : State) :
    exec (.sub c d a b) s = execSub c d a b s := rfl
@[simp] theorem exec_and (c : Ctl) (d a b : BitVec 5) (s : State) :
    exec (.and c d a b) s = execAnd c d a b s := rfl
@[simp] theorem exec_or (c : Ctl) (d a b : BitVec 5) (s : State) :
    exec (.or c d a b) s = execOr c d a b s := rfl
@[simp] theorem exec_xor (c : Ctl) (d a b : BitVec 5) (s : State) :
    exec (.xor c d a b) s = execXor c d a b s := rfl
@[simp] theorem exec_andn (c : Ctl) (d a b : BitVec 5) (s : State) :
    exec (.andn c d a b) s = execAndn c d a b s := rfl
@[simp] theorem exec_shl (c : Ctl) (d a b : BitVec 5) (s : State) :
    exec (.shl c d a b) s = execShl c d a b s := rfl
@[simp] theorem exec_shr (c : Ctl) (d a b : BitVec 5) (s : State) :
    exec (.shr c d a b) s = execShr c d a b s := rfl
@[simp] theorem exec_sra (c : Ctl) (d a b : BitVec 5) (s : State) :
    exec (.sra c d a b) s = execSra c d a b s := rfl
@[simp] theorem exec_min (c : Ctl) (d a b : BitVec 5) (s : State) :
    exec (.min c d a b) s = execMin c d a b s := rfl
@[simp] theorem exec_max (c : Ctl) (d a b : BitVec 5) (s : State) :
    exec (.max c d a b) s = execMax c d a b s := rfl
@[simp] theorem exec_minu (c : Ctl) (d a b : BitVec 5) (s : State) :
    exec (.minu c d a b) s = execMinu c d a b s := rfl
@[simp] theorem exec_maxu (c : Ctl) (d a b : BitVec 5) (s : State) :
    exec (.maxu c d a b) s = execMaxu c d a b s := rfl
@[simp] theorem exec_clz (c : Ctl) (d a : BitVec 5) (s : State) :
    exec (.clz c d a) s = execClz c d a s := rfl
@[simp] theorem exec_popc (c : Ctl) (d a : BitVec 5) (s : State) :
    exec (.popc c d a) s = execPopc c d a s := rfl
@[simp] theorem exec_sext (c : Ctl) (d a b : BitVec 5) (s : State) :
    exec (.sext c d a b) s = execSext c d a b s := rfl
@[simp] theorem exec_mul (c : Ctl) (d a b : BitVec 5) (s : State) :
    exec (.mul c d a b) s = execMul c d a b s := rfl
@[simp] theorem exec_mulh (c : Ctl) (d a b : BitVec 5) (s : State) :
    exec (.mulh c d a b) s = execMulh c d a b s := rfl
@[simp] theorem exec_mulhu (c : Ctl) (d a b : BitVec 5) (s : State) :
    exec (.mulhu c d a b) s = execMulhu c d a b s := rfl
@[simp] theorem exec_div (c : Ctl) (d a b : BitVec 5) (s : State) :
    exec (.div c d a b) s = execDiv c d a b s := rfl
@[simp] theorem exec_divu (c : Ctl) (d a b : BitVec 5) (s : State) :
    exec (.divu c d a b) s = execDivu c d a b s := rfl
@[simp] theorem exec_rem (c : Ctl) (d a b : BitVec 5) (s : State) :
    exec (.rem c d a b) s = execRem c d a b s := rfl
@[simp] theorem exec_remu (c : Ctl) (d a b : BitVec 5) (s : State) :
    exec (.remu c d a b) s = execRemu c d a b s := rfl
@[simp] theorem exec_bfx (c : Ctl) (d a b : BitVec 5) (s : State) :
    exec (.bfx c d a b) s = execBfx c d a b s := rfl
@[simp] theorem exec_bfxu (c : Ctl) (d a b : BitVec 5) (s : State) :
    exec (.bfxu c d a b) s = execBfxu c d a b s := rfl
@[simp] theorem exec_bfi (c : Ctl) (d a b : BitVec 5) (s : State) :
    exec (.bfi c d a b) s = execBfi c d a b s := rfl
@[simp] theorem exec_rotl (c : Ctl) (d a b : BitVec 5) (s : State) :
    exec (.rotl c d a b) s = execRotl c d a b s := rfl
@[simp] theorem exec_bswap (c : Ctl) (d a : BitVec 5) (s : State) :
    exec (.bswap c d a) s = execBswap c d a s := rfl
@[simp] theorem exec_addi (c : Ctl) (d a : BitVec 5) (imm : BitVec 8) (s : State) :
    exec (.addi c d a imm) s = execAddi c d a imm s := rfl
@[simp] theorem exec_andi (c : Ctl) (d a : BitVec 5) (imm : BitVec 8) (s : State) :
    exec (.andi c d a imm) s = execAndi c d a imm s := rfl
@[simp] theorem exec_ori (c : Ctl) (d a : BitVec 5) (imm : BitVec 8) (s : State) :
    exec (.ori c d a imm) s = execOri c d a imm s := rfl
@[simp] theorem exec_xori (c : Ctl) (d a : BitVec 5) (imm : BitVec 8) (s : State) :
    exec (.xori c d a imm) s = execXori c d a imm s := rfl
@[simp] theorem exec_shli (c : Ctl) (d a : BitVec 5) (imm : BitVec 6) (s : State) :
    exec (.shli c d a imm) s = execShli c d a imm s := rfl
@[simp] theorem exec_shri (c : Ctl) (d a : BitVec 5) (imm : BitVec 6) (s : State) :
    exec (.shri c d a imm) s = execShri c d a imm s := rfl
@[simp] theorem exec_srai (c : Ctl) (d a : BitVec 5) (imm : BitVec 6) (s : State) :
    exec (.srai c d a imm) s = execSrai c d a imm s := rfl
@[simp] theorem exec_setlo (c : Ctl) (d : BitVec 5) (imm : BitVec 13) (s : State) :
    exec (.setlo c d imm) s = execSetlo c d imm s := rfl
@[simp] theorem exec_setsh (c : Ctl) (d : BitVec 5) (imm : BitVec 13) (s : State) :
    exec (.setsh c d imm) s = execSetsh c d imm s := rfl
@[simp] theorem exec_ldlit (c : Ctl) (d : BitVec 5) (imm : BitVec 13) (s : State) :
    exec (.ldlit c d imm) s = execLdlit c d imm s := rfl
@[simp] theorem exec_cmp (c : Ctl) (pd : BitVec 4) (cond : BitVec 3) (a b : BitVec 5) (pair : BitVec 1) (s : State) :
    exec (.cmp c pd cond a b pair) s = execCmp c pd cond a b pair s := rfl
@[simp] theorem exec_cmpi (c : Ctl) (pd : BitVec 4) (cond : BitVec 3) (a imm : BitVec 5) (pair : BitVec 1) (s : State) :
    exec (.cmpi c pd cond a imm pair) s = execCmpi c pd cond a imm pair s := rfl
@[simp] theorem exec_pand (c : Ctl) (pd pa pb : BitVec 4) (s : State) :
    exec (.pand c pd pa pb) s = execPand c pd pa pb s := rfl
@[simp] theorem exec_por (c : Ctl) (pd pa pb : BitVec 4) (s : State) :
    exec (.por c pd pa pb) s = execPor c pd pa pb s := rfl
@[simp] theorem exec_pxor (c : Ctl) (pd pa pb : BitVec 4) (s : State) :
    exec (.pxor c pd pa pb) s = execPxor c pd pa pb s := rfl
@[simp] theorem exec_pandn (c : Ctl) (pd pa pb : BitVec 4) (s : State) :
    exec (.pandn c pd pa pb) s = execPandn c pd pa pb s := rfl
@[simp] theorem exec_porn (c : Ctl) (pd pa pb : BitVec 4) (s : State) :
    exec (.porn c pd pa pb) s = execPorn c pd pa pb s := rfl
@[simp] theorem exec_pnand (c : Ctl) (pd pa pb : BitVec 4) (s : State) :
    exec (.pnand c pd pa pb) s = execPnand c pd pa pb s := rfl
@[simp] theorem exec_pnor (c : Ctl) (pd pa pb : BitVec 4) (s : State) :
    exec (.pnor c pd pa pb) s = execPnor c pd pa pb s := rfl
@[simp] theorem exec_ldprm (c : Ctl) (d a : BitVec 5) (off : BitVec 6) (win : BitVec 2) (s : State) :
    exec (.ldprm c d a off win) s = execLdprm c d a off win s := rfl
@[simp] theorem exec_br (c : Ctl) (off : BitVec 18) (s : State) :
    exec (.br c off) s = execBr c off s := rfl
@[simp] theorem exec_call (c : Ctl) (off : BitVec 18) (s : State) :
    exec (.call c off) s = execCall c off s := rfl
@[simp] theorem exec_jr (c : Ctl) (a : BitVec 5) (s : State) :
    exec (.jr c a) s = execJr c a s := rfl
@[simp] theorem exec_jalr (c : Ctl) (d a : BitVec 5) (s : State) :
    exec (.jalr c d a) s = execJalr c d a s := rfl
@[simp] theorem exec_ret (c : Ctl) (s : State) :
    exec (.ret c) s = execRet c s := rfl
@[simp] theorem exec_loop (c : Ctl) (d : BitVec 5) (imm : BitVec 13) (s : State) :
    exec (.loop c d imm) s = execLoop c d imm s := rfl
@[simp] theorem exec_bsel (c : Ctl) (d a b : BitVec 5) (s : State) :
    exec (.bsel c d a b) s = execBsel c d a b s := rfl
@[simp] theorem exec_tfence (c : Ctl) (s : State) :
    exec (.tfence c) s = execTfence c s := rfl
@[simp] theorem exec_trap (c : Ctl) (a : BitVec 5) (s : State) :
    exec (.trap c a) s = execTrap c a s := rfl
@[simp] theorem exec_eret (c : Ctl) (s : State) :
    exec (.eret c) s = execEret c s := rfl
@[simp] theorem exec_halt (c : Ctl) (s : State) :
    exec (.halt c) s = execHalt c s := rfl
@[simp] theorem exec_yield (c : Ctl) (s : State) :
    exec (.yield c) s = execYield c s := rfl
@[simp] theorem exec_rmark (c : Ctl) (s : State) :
    exec (.rmark c) s = execRmark c s := rfl
@[simp] theorem exec_mfs (c : Ctl) (d : BitVec 5) (imm : BitVec 13) (s : State) :
    exec (.mfs c d imm) s = execMfs c d imm s := rfl
@[simp] theorem exec_mfsFtrap (c : Ctl) (d : BitVec 5) (s : State) :
    exec (.mfsFtrap c d) s = execMfsFtrap c d s := rfl
@[simp] theorem exec_mts (c : Ctl) (d : BitVec 5) (imm : BitVec 13) (s : State) :
    exec (.mts c d imm) s = execMts c d imm s := rfl
@[simp] theorem exec_ldsp (c : Ctl) (d a : BitVec 5) (off : BitVec 6) (sz : BitVec 2) (s : State) :
    exec (.ldsp c d a off sz) s = execLdsp c d a off sz s := rfl
@[simp] theorem exec_ldspu (c : Ctl) (d a : BitVec 5) (off : BitVec 6) (sz : BitVec 2) (s : State) :
    exec (.ldspu c d a off sz) s = execLdspu c d a off sz s := rfl
@[simp] theorem exec_stsp (c : Ctl) (d a : BitVec 5) (off : BitVec 6) (sz : BitVec 2) (s : State) :
    exec (.stsp c d a off sz) s = execStsp c d a off sz s := rfl
@[simp] theorem exec_ldspi (c : Ctl) (d a : BitVec 5) (off : BitVec 6) (sz : BitVec 2) (s : State) :
    exec (.ldspi c d a off sz) s = execLdspi c d a off sz s := rfl
@[simp] theorem exec_stspi (c : Ctl) (d a : BitVec 5) (off : BitVec 6) (sz : BitVec 2) (s : State) :
    exec (.stspi c d a off sz) s = execStspi c d a off sz s := rfl
@[simp] theorem exec_ldsh (c : Ctl) (d a : BitVec 5) (off : BitVec 6) (sz : BitVec 2) (s : State) :
    exec (.ldsh c d a off sz) s = execLdsh c d a off sz s := rfl
@[simp] theorem exec_ldshu (c : Ctl) (d a : BitVec 5) (off : BitVec 6) (sz : BitVec 2) (s : State) :
    exec (.ldshu c d a off sz) s = execLdshu c d a off sz s := rfl
@[simp] theorem exec_stsh (c : Ctl) (d a : BitVec 5) (off : BitVec 6) (sz : BitVec 2) (s : State) :
    exec (.stsh c d a off sz) s = execStsh c d a off sz s := rfl
@[simp] theorem exec_ldg (c : Ctl) (d a : BitVec 5) (off : BitVec 6) (sz : BitVec 2) (s : State) :
    exec (.ldg c d a off sz) s = execLdg c d a off sz s := rfl
@[simp] theorem exec_ldgu (c : Ctl) (d a : BitVec 5) (off : BitVec 6) (sz : BitVec 2) (s : State) :
    exec (.ldgu c d a off sz) s = execLdgu c d a off sz s := rfl
@[simp] theorem exec_stg (c : Ctl) (d a : BitVec 5) (off : BitVec 6) (sz : BitVec 2) (s : State) :
    exec (.stg c d a off sz) s = execStg c d a off sz s := rfl
@[simp] theorem exec_ldh (c : Ctl) (d a : BitVec 5) (off : BitVec 6) (sz : BitVec 2) (s : State) :
    exec (.ldh c d a off sz) s = execLdh c d a off sz s := rfl
@[simp] theorem exec_sth (c : Ctl) (d a : BitVec 5) (off : BitVec 6) (sz : BitVec 2) (s : State) :
    exec (.sth c d a off sz) s = execSth c d a off sz s := rfl
@[simp] theorem exec_ldacq (c : Ctl) (d a : BitVec 5) (space : BitVec 2) (scope : BitVec 3) (sz : BitVec 1) (s : State) :
    exec (.ldacq c d a space scope sz) s = execLdacq c d a space scope sz s := rfl
@[simp] theorem exec_strel (c : Ctl) (d a : BitVec 5) (space : BitVec 2) (scope : BitVec 3) (sz : BitVec 1) (s : State) :
    exec (.strel c d a space scope sz) s = execStrel c d a space scope sz s := rfl
@[simp] theorem exec_amospAdd (c : Ctl) (d a b : BitVec 5) (s : State) :
    exec (.amospAdd c d a b) s = execAmospAdd c d a b s := rfl
@[simp] theorem exec_amospAnd (c : Ctl) (d a b : BitVec 5) (s : State) :
    exec (.amospAnd c d a b) s = execAmospAnd c d a b s := rfl
@[simp] theorem exec_amospOr (c : Ctl) (d a b : BitVec 5) (s : State) :
    exec (.amospOr c d a b) s = execAmospOr c d a b s := rfl
@[simp] theorem exec_amospXor (c : Ctl) (d a b : BitVec 5) (s : State) :
    exec (.amospXor c d a b) s = execAmospXor c d a b s := rfl
@[simp] theorem exec_amospMin (c : Ctl) (d a b : BitVec 5) (s : State) :
    exec (.amospMin c d a b) s = execAmospMin c d a b s := rfl
@[simp] theorem exec_amospMax (c : Ctl) (d a b : BitVec 5) (s : State) :
    exec (.amospMax c d a b) s = execAmospMax c d a b s := rfl
@[simp] theorem exec_amospSwap (c : Ctl) (d a b : BitVec 5) (s : State) :
    exec (.amospSwap c d a b) s = execAmospSwap c d a b s := rfl
@[simp] theorem exec_amospCas (c : Ctl) (d a b : BitVec 5) (s : State) :
    exec (.amospCas c d a b) s = execAmospCas c d a b s := rfl
@[simp] theorem exec_amoshAdd (c : Ctl) (d a b : BitVec 5) (s : State) :
    exec (.amoshAdd c d a b) s = execAmoshAdd c d a b s := rfl
@[simp] theorem exec_amoshAnd (c : Ctl) (d a b : BitVec 5) (s : State) :
    exec (.amoshAnd c d a b) s = execAmoshAnd c d a b s := rfl
@[simp] theorem exec_amoshOr (c : Ctl) (d a b : BitVec 5) (s : State) :
    exec (.amoshOr c d a b) s = execAmoshOr c d a b s := rfl
@[simp] theorem exec_amoshXor (c : Ctl) (d a b : BitVec 5) (s : State) :
    exec (.amoshXor c d a b) s = execAmoshXor c d a b s := rfl
@[simp] theorem exec_amoshMin (c : Ctl) (d a b : BitVec 5) (s : State) :
    exec (.amoshMin c d a b) s = execAmoshMin c d a b s := rfl
@[simp] theorem exec_amoshMax (c : Ctl) (d a b : BitVec 5) (s : State) :
    exec (.amoshMax c d a b) s = execAmoshMax c d a b s := rfl
@[simp] theorem exec_amoshSwap (c : Ctl) (d a b : BitVec 5) (s : State) :
    exec (.amoshSwap c d a b) s = execAmoshSwap c d a b s := rfl
@[simp] theorem exec_amoshCas (c : Ctl) (d a b : BitVec 5) (s : State) :
    exec (.amoshCas c d a b) s = execAmoshCas c d a b s := rfl
@[simp] theorem exec_amogAdd (c : Ctl) (d a b : BitVec 5) (s : State) :
    exec (.amogAdd c d a b) s = execAmogAdd c d a b s := rfl
@[simp] theorem exec_amogAnd (c : Ctl) (d a b : BitVec 5) (s : State) :
    exec (.amogAnd c d a b) s = execAmogAnd c d a b s := rfl
@[simp] theorem exec_amogOr (c : Ctl) (d a b : BitVec 5) (s : State) :
    exec (.amogOr c d a b) s = execAmogOr c d a b s := rfl
@[simp] theorem exec_amogXor (c : Ctl) (d a b : BitVec 5) (s : State) :
    exec (.amogXor c d a b) s = execAmogXor c d a b s := rfl
@[simp] theorem exec_amogMin (c : Ctl) (d a b : BitVec 5) (s : State) :
    exec (.amogMin c d a b) s = execAmogMin c d a b s := rfl
@[simp] theorem exec_amogMax (c : Ctl) (d a b : BitVec 5) (s : State) :
    exec (.amogMax c d a b) s = execAmogMax c d a b s := rfl
@[simp] theorem exec_amogSwap (c : Ctl) (d a b : BitVec 5) (s : State) :
    exec (.amogSwap c d a b) s = execAmogSwap c d a b s := rfl
@[simp] theorem exec_amogCas (c : Ctl) (d a b : BitVec 5) (s : State) :
    exec (.amogCas c d a b) s = execAmogCas c d a b s := rfl
@[simp] theorem exec_amohAdd (c : Ctl) (d a b : BitVec 5) (s : State) :
    exec (.amohAdd c d a b) s = execAmohAdd c d a b s := rfl
@[simp] theorem exec_amohAnd (c : Ctl) (d a b : BitVec 5) (s : State) :
    exec (.amohAnd c d a b) s = execAmohAnd c d a b s := rfl
@[simp] theorem exec_amohOr (c : Ctl) (d a b : BitVec 5) (s : State) :
    exec (.amohOr c d a b) s = execAmohOr c d a b s := rfl
@[simp] theorem exec_amohXor (c : Ctl) (d a b : BitVec 5) (s : State) :
    exec (.amohXor c d a b) s = execAmohXor c d a b s := rfl
@[simp] theorem exec_amohMin (c : Ctl) (d a b : BitVec 5) (s : State) :
    exec (.amohMin c d a b) s = execAmohMin c d a b s := rfl
@[simp] theorem exec_amohMax (c : Ctl) (d a b : BitVec 5) (s : State) :
    exec (.amohMax c d a b) s = execAmohMax c d a b s := rfl
@[simp] theorem exec_amohSwap (c : Ctl) (d a b : BitVec 5) (s : State) :
    exec (.amohSwap c d a b) s = execAmohSwap c d a b s := rfl
@[simp] theorem exec_amohCas (c : Ctl) (d a b : BitVec 5) (s : State) :
    exec (.amohCas c d a b) s = execAmohCas c d a b s := rfl
@[simp] theorem exec_drain (c : Ctl) (space : BitVec 2) (s : State) :
    exec (.drain c space) s = execDrain c space s := rfl
@[simp] theorem exec_sbar (c : Ctl) (a : BitVec 5) (s : State) :
    exec (.sbar c a) s = execSbar c a s := rfl
@[simp] theorem exec_dbar (c : Ctl) (s : State) :
    exec (.dbar c) s = execDbar c s := rfl
@[simp] theorem exec_fence (c : Ctl) (scope : BitVec 3) (s : State) :
    exec (.fence c scope) s = execFence c scope s := rfl
@[simp] theorem exec_wfe (c : Ctl) (a : BitVec 5) (s : State) :
    exec (.wfe c a) s = execWfe c a s := rfl
@[simp] theorem exec_twait (c : Ctl) (tok : BitVec 6) (level : BitVec 2) (s : State) :
    exec (.twait c tok level) s = execTwait c tok level s := rfl
@[simp] theorem exec_accrd (c : Ctl) (d a : BitVec 5) (imm : BitVec 8) (s : State) :
    exec (.accrd c d a imm) s = execAccrd c d a imm s := rfl
@[simp] theorem exec_pmode (c : Ctl) (a b : BitVec 5) (s : State) :
    exec (.pmode c a b) s = execPmode c a b s := rfl
@[simp] theorem exec_pbed (c : Ctl) (a b : BitVec 5) (s : State) :
    exec (.pbed c a b) s = execPbed c a b s := rfl
@[simp] theorem exec_pbeds (c : Ctl) (a b : BitVec 5) (s : State) :
    exec (.pbeds c a b) s = execPbeds c a b s := rfl
@[simp] theorem exec_pmap (c : Ctl) (a b : BitVec 5) (s : State) :
    exec (.pmap c a b) s = execPmap c a b s := rfl
@[simp] theorem exec_phold (c : Ctl) (a b : BitVec 5) (s : State) :
    exec (.phold c a b) s = execPhold c a b s := rfl
@[simp] theorem exec_pflow (c : Ctl) (a b : BitVec 5) (s : State) :
    exec (.pflow c a b) s = execPflow c a b s := rfl
@[simp] theorem exec_pdrain (c : Ctl) (a b : BitVec 5) (s : State) :
    exec (.pdrain c a b) s = execPdrain c a b s := rfl
@[simp] theorem exec_pzero (c : Ctl) (a b : BitVec 5) (s : State) :
    exec (.pzero c a b) s = execPzero c a b s := rfl
@[simp] theorem exec_pspan (c : Ctl) (a b : BitVec 5) (s : State) :
    exec (.pspan c a b) s = execPspan c a b s := rfl
@[simp] theorem exec_pstat (c : Ctl) (d a b : BitVec 5) (s : State) :
    exec (.pstat c d a b) s = execPstat c d a b s := rfl
@[simp] theorem exec_sdef (c : Ctl) (a b : BitVec 5) (s : State) :
    exec (.sdef c a b) s = execSdef c a b s := rfl
@[simp] theorem exec_scnt (c : Ctl) (a b : BitVec 5) (s : State) :
    exec (.scnt c a b) s = execScnt c a b s := rfl
@[simp] theorem exec_ssub (c : Ctl) (a b : BitVec 5) (s : State) :
    exec (.ssub c a b) s = execSsub c a b s := rfl
@[simp] theorem exec_sgo (c : Ctl) (a b : BitVec 5) (s : State) :
    exec (.sgo c a b) s = execSgo c a b s := rfl
@[simp] theorem exec_sstop (c : Ctl) (a b : BitVec 5) (s : State) :
    exec (.sstop c a b) s = execSstop c a b s := rfl
@[simp] theorem exec_sunf (c : Ctl) (a b : BitVec 5) (s : State) :
    exec (.sunf c a b) s = execSunf c a b s := rfl
@[simp] theorem exec_srgp (c : Ctl) (a b : BitVec 5) (s : State) :
    exec (.srgp c a b) s = execSrgp c a b s := rfl
@[simp] theorem exec_shash (c : Ctl) (a b : BitVec 5) (s : State) :
    exec (.shash c a b) s = execShash c a b s := rfl
@[simp] theorem exec_cpshape (c : Ctl) (a b : BitVec 5) (s : State) :
    exec (.cpshape c a b) s = execCpshape c a b s := rfl
@[simp] theorem exec_cpy (c : Ctl) (a b : BitVec 5) (s : State) :
    exec (.cpy c a b) s = execCpy c a b s := rfl
@[simp] theorem exec_cpyr (c : Ctl) (a b : BitVec 5) (s : State) :
    exec (.cpyr c a b) s = execCpyr c a b s := rfl
@[simp] theorem exec_cpyf (c : Ctl) (a b : BitVec 5) (s : State) :
    exec (.cpyf c a b) s = execCpyf c a b s := rfl
@[simp] theorem exec_gidx (c : Ctl) (a b : BitVec 5) (s : State) :
    exec (.gidx c a b) s = execGidx c a b s := rfl
@[simp] theorem exec_gath (c : Ctl) (a b : BitVec 5) (s : State) :
    exec (.gath c a b) s = execGath c a b s := rfl
@[simp] theorem exec_scata (c : Ctl) (a b : BitVec 5) (s : State) :
    exec (.scata c a b) s = execScata c a b s := rfl
@[simp] theorem exec_fload (c : Ctl) (a b : BitVec 5) (s : State) :
    exec (.fload c a b) s = execFload c a b s := rfl
@[simp] theorem exec_fgo (c : Ctl) (a b : BitVec 5) (s : State) :
    exec (.fgo c a b) s = execFgo c a b s := rfl
@[simp] theorem exec_fstop (c : Ctl) (a b : BitVec 5) (s : State) :
    exec (.fstop c a b) s = execFstop c a b s := rfl
@[simp] theorem exec_fput (c : Ctl) (a b : BitVec 5) (s : State) :
    exec (.fput c a b) s = execFput c a b s := rfl
@[simp] theorem exec_fget (c : Ctl) (d a b : BitVec 5) (s : State) :
    exec (.fget c d a b) s = execFget c d a b s := rfl
@[simp] theorem exec_fstat (c : Ctl) (d a b : BitVec 5) (s : State) :
    exec (.fstat c d a b) s = execFstat c d a b s := rfl
@[simp] theorem exec_tjoin (c : Ctl) (a b : BitVec 5) (s : State) :
    exec (.tjoin c a b) s = execTjoin c a b s := rfl
@[simp] theorem exec_treset (c : Ctl) (a b : BitVec 5) (s : State) :
    exec (.treset c a b) s = execTreset c a b s := rfl
@[simp] theorem exec_tquery (c : Ctl) (d a b : BitVec 5) (s : State) :
    exec (.tquery c d a b) s = execTquery c d a b s := rfl
@[simp] theorem exec_gstart (c : Ctl) (a b : BitVec 5) (s : State) :
    exec (.gstart c a b) s = execGstart c a b s := rfl
@[simp] theorem exec_garm (c : Ctl) (a b : BitVec 5) (s : State) :
    exec (.garm c a b) s = execGarm c a b s := rfl
@[simp] theorem exec_gdone (c : Ctl) (a b : BitVec 5) (s : State) :
    exec (.gdone c a b) s = execGdone c a b s := rfl
@[simp] theorem exec_teMov (t : Trig) (f : Comp) (s : State) :
    exec (.teMov t f) s = execTeMov t f s := rfl
@[simp] theorem exec_teAdd (t : Trig) (f : Comp) (s : State) :
    exec (.teAdd t f) s = execTeAdd t f s := rfl
@[simp] theorem exec_teSub (t : Trig) (f : Comp) (s : State) :
    exec (.teSub t f) s = execTeSub t f s := rfl
@[simp] theorem exec_teMul (t : Trig) (f : Comp) (s : State) :
    exec (.teMul t f) s = execTeMul t f s := rfl
@[simp] theorem exec_teMulh (t : Trig) (f : Comp) (s : State) :
    exec (.teMulh t f) s = execTeMulh t f s := rfl
@[simp] theorem exec_teMulhu (t : Trig) (f : Comp) (s : State) :
    exec (.teMulhu t f) s = execTeMulhu t f s := rfl
@[simp] theorem exec_teAnd (t : Trig) (f : Comp) (s : State) :
    exec (.teAnd t f) s = execTeAnd t f s := rfl
@[simp] theorem exec_teOr (t : Trig) (f : Comp) (s : State) :
    exec (.teOr t f) s = execTeOr t f s := rfl
@[simp] theorem exec_teXor (t : Trig) (f : Comp) (s : State) :
    exec (.teXor t f) s = execTeXor t f s := rfl
@[simp] theorem exec_teAndn (t : Trig) (f : Comp) (s : State) :
    exec (.teAndn t f) s = execTeAndn t f s := rfl
@[simp] theorem exec_teShl (t : Trig) (f : Comp) (s : State) :
    exec (.teShl t f) s = execTeShl t f s := rfl
@[simp] theorem exec_teShr (t : Trig) (f : Comp) (s : State) :
    exec (.teShr t f) s = execTeShr t f s := rfl
@[simp] theorem exec_teSra (t : Trig) (f : Comp) (s : State) :
    exec (.teSra t f) s = execTeSra t f s := rfl
@[simp] theorem exec_teMin (t : Trig) (f : Comp) (s : State) :
    exec (.teMin t f) s = execTeMin t f s := rfl
@[simp] theorem exec_teMax (t : Trig) (f : Comp) (s : State) :
    exec (.teMax t f) s = execTeMax t f s := rfl
@[simp] theorem exec_teMinu (t : Trig) (f : Comp) (s : State) :
    exec (.teMinu t f) s = execTeMinu t f s := rfl
@[simp] theorem exec_teMaxu (t : Trig) (f : Comp) (s : State) :
    exec (.teMaxu t f) s = execTeMaxu t f s := rfl
@[simp] theorem exec_teCmp (t : Trig) (f : Comp) (s : State) :
    exec (.teCmp t f) s = execTeCmp t f s := rfl
@[simp] theorem exec_sel (t : Trig) (f : Comp) (s : State) :
    exec (.sel t f) s = execSel t f s := rfl
@[simp] theorem exec_teClz (t : Trig) (f : Comp) (s : State) :
    exec (.teClz t f) s = execTeClz t f s := rfl
@[simp] theorem exec_tePopc (t : Trig) (f : Comp) (s : State) :
    exec (.tePopc t f) s = execTePopc t f s := rfl
@[simp] theorem exec_dot4 (t : Trig) (f : Comp) (s : State) :
    exec (.dot4 t f) s = execDot4 t f s := rfl
@[simp] theorem exec_teBfx (t : Trig) (f : Comp) (s : State) :
    exec (.teBfx t f) s = execTeBfx t f s := rfl
@[simp] theorem exec_hash (t : Trig) (f : Comp) (s : State) :
    exec (.hash t f) s = execHash t f s := rfl
@[simp] theorem exec_fadd (t : Trig) (f : Comp) (s : State) :
    exec (.fadd t f) s = execFadd t f s := rfl
@[simp] theorem exec_fsub (t : Trig) (f : Comp) (s : State) :
    exec (.fsub t f) s = execFsub t f s := rfl
@[simp] theorem exec_fmul (t : Trig) (f : Comp) (s : State) :
    exec (.fmul t f) s = execFmul t f s := rfl
@[simp] theorem exec_fma (t : Trig) (f : Comp) (s : State) :
    exec (.fma t f) s = execFma t f s := rfl
@[simp] theorem exec_fms (t : Trig) (f : Comp) (s : State) :
    exec (.fms t f) s = execFms t f s := rfl
@[simp] theorem exec_fnma (t : Trig) (f : Comp) (s : State) :
    exec (.fnma t f) s = execFnma t f s := rfl
@[simp] theorem exec_fmin (t : Trig) (f : Comp) (s : State) :
    exec (.fmin t f) s = execFmin t f s := rfl
@[simp] theorem exec_fmax (t : Trig) (f : Comp) (s : State) :
    exec (.fmax t f) s = execFmax t f s := rfl
@[simp] theorem exec_fabs (t : Trig) (f : Comp) (s : State) :
    exec (.fabs t f) s = execFabs t f s := rfl
@[simp] theorem exec_fneg (t : Trig) (f : Comp) (s : State) :
    exec (.fneg t f) s = execFneg t f s := rfl
@[simp] theorem exec_fcmp (t : Trig) (f : Comp) (s : State) :
    exec (.fcmp t f) s = execFcmp t f s := rfl
@[simp] theorem exec_frnd (t : Trig) (f : Comp) (s : State) :
    exec (.frnd t f) s = execFrnd t f s := rfl
@[simp] theorem exec_fscale (t : Trig) (f : Comp) (s : State) :
    exec (.fscale t f) s = execFscale t f s := rfl
@[simp] theorem exec_fexpo (t : Trig) (f : Comp) (s : State) :
    exec (.fexpo t f) s = execFexpo t f s := rfl
@[simp] theorem exec_fclass (t : Trig) (f : Comp) (s : State) :
    exec (.fclass t f) s = execFclass t f s := rfl
@[simp] theorem exec_fhadd (t : Trig) (f : Comp) (s : State) :
    exec (.fhadd t f) s = execFhadd t f s := rfl
@[simp] theorem exec_xexpf (t : Trig) (f : Comp) (s : State) :
    exec (.xexpf t f) s = execXexpf t f s := rfl
@[simp] theorem exec_xlog2 (t : Trig) (f : Comp) (s : State) :
    exec (.xlog2 t f) s = execXlog2 t f s := rfl
@[simp] theorem exec_xrcp (t : Trig) (f : Comp) (s : State) :
    exec (.xrcp t f) s = execXrcp t f s := rfl
@[simp] theorem exec_xrsq (t : Trig) (f : Comp) (s : State) :
    exec (.xrsq t f) s = execXrsq t f s := rfl
@[simp] theorem exec_xsqrt (t : Trig) (f : Comp) (s : State) :
    exec (.xsqrt t f) s = execXsqrt t f s := rfl
@[simp] theorem exec_xsin (t : Trig) (f : Comp) (s : State) :
    exec (.xsin t f) s = execXsin t f s := rfl
@[simp] theorem exec_xcos (t : Trig) (f : Comp) (s : State) :
    exec (.xcos t f) s = execXcos t f s := rfl
@[simp] theorem exec_xtanh (t : Trig) (f : Comp) (s : State) :
    exec (.xtanh t f) s = execXtanh t f s := rfl
@[simp] theorem exec_steer (t : Trig) (f : Comp) (s : State) :
    exec (.steer t f) s = execSteer t f s := rfl
@[simp] theorem exec_merge (t : Trig) (f : Comp) (s : State) :
    exec (.merge t f) s = execMerge t f s := rfl
@[simp] theorem exec_join (t : Trig) (f : Comp) (s : State) :
    exec (.join t f) s = execJoin t f s := rfl
@[simp] theorem exec_dup (t : Trig) (f : Comp) (s : State) :
    exec (.dup t f) s = execDup t f s := rfl
@[simp] theorem exec_gate (t : Trig) (f : Comp) (s : State) :
    exec (.gate t f) s = execGate t f s := rfl
@[simp] theorem exec_drop (t : Trig) (f : Comp) (s : State) :
    exec (.drop t f) s = execDrop t f s := rfl
@[simp] theorem exec_tag (t : Trig) (f : Comp) (s : State) :
    exec (.tag t f) s = execTag t f s := rfl
@[simp] theorem exec_carry (t : Trig) (f : Comp) (s : State) :
    exec (.carry t f) s = execCarry t f s := rfl
@[simp] theorem exec_ldcSp (t : Trig) (m : MemF) (s : State) :
    exec (.ldcSp t m) s = execLdcSp t m s := rfl
@[simp] theorem exec_stcSp (t : Trig) (m : MemF) (s : State) :
    exec (.stcSp t m) s = execStcSp t m s := rfl
@[simp] theorem exec_ldcSh (t : Trig) (m : MemF) (s : State) :
    exec (.ldcSh t m) s = execLdcSh t m s := rfl
@[simp] theorem exec_stcSh (t : Trig) (m : MemF) (s : State) :
    exec (.stcSh t m) s = execStcSh t m s := rfl
@[simp] theorem exec_ldcG (t : Trig) (m : MemF) (s : State) :
    exec (.ldcG t m) s = execLdcG t m s := rfl
@[simp] theorem exec_stcG (t : Trig) (m : MemF) (s : State) :
    exec (.stcG t m) s = execStcG t m s := rfl
@[simp] theorem exec_amocSp (t : Trig) (m : MemF) (s : State) :
    exec (.amocSp t m) s = execAmocSp t m s := rfl
@[simp] theorem exec_amocSh (t : Trig) (m : MemF) (s : State) :
    exec (.amocSh t m) s = execAmocSh t m s := rfl
@[simp] theorem exec_amocG (t : Trig) (m : MemF) (s : State) :
    exec (.amocG t m) s = execAmocG t m s := rfl
@[simp] theorem exec_cskip (t : Trig) (m : MemF) (s : State) :
    exec (.cskip t m) s = execCskip t m s := rfl
@[simp] theorem exec_ropen (t : Trig) (f : Comp) (s : State) :
    exec (.ropen t f) s = execRopen t f s := rfl
@[simp] theorem exec_rclose (t : Trig) (f : Comp) (s : State) :
    exec (.rclose t f) s = execRclose t f s := rfl
@[simp] theorem exec_rabort (t : Trig) (f : Comp) (s : State) :
    exec (.rabort t f) s = execRabort t f s := rfl
@[simp] theorem exec_done (t : Trig) (f : Comp) (s : State) :
    exec (.done t f) s = execDone t f s := rfl
@[simp] theorem exec_teTrap (t : Trig) (f : Comp) (s : State) :
    exec (.teTrap t f) s = execTeTrap t f s := rfl
@[simp] theorem exec_teNop (t : Trig) (f : Comp) (s : State) :
    exec (.teNop t f) s = execTeNop t f s := rfl
@[simp] theorem exec_lapset (t : Trig) (f : Comp) (s : State) :
    exec (.lapset t f) s = execLapset t f s := rfl
@[simp] theorem exec_cvt (t : Trig) (f : Comp) (s : State) :
    exec (.cvt t f) s = execCvt t f s := rfl
@[simp] theorem exec_pack (t : Trig) (f : Comp) (s : State) :
    exec (.pack t f) s = execPack t f s := rfl
@[simp] theorem exec_unpk (t : Trig) (f : Comp) (s : State) :
    exec (.unpk t f) s = execUnpk t f s := rfl
@[simp] theorem exec_pset (t : Trig) (f : Comp) (s : State) :
    exec (.pset t f) s = execPset t f s := rfl
@[simp] theorem exec_tePlog (t : Trig) (f : Comp) (s : State) :
    exec (.tePlog t f) s = execTePlog t f s := rfl
@[simp] theorem exec_xset (t : Trig) (f : Comp) (s : State) :
    exec (.xset t f) s = execXset t f s := rfl
@[simp] theorem exec_xadd (t : Trig) (f : Comp) (s : State) :
    exec (.xadd t f) s = execXadd t f s := rfl
@[simp] theorem exec_xcmp (t : Trig) (f : Comp) (s : State) :
    exec (.xcmp t f) s = execXcmp t f s := rfl
@[simp] theorem exec_dividerResult (tile : Nat) (s : State) :
    exec (.dividerResult tile) s = execDividerResult tile s := rfl
@[simp] theorem exec_loadReply (tile slot k : Nat) (s : State) :
    exec (.loadReply tile slot k) s = execLoadReply tile slot k s := rfl
@[simp] theorem exec_commandBufferDeparture (tile slot : Nat) (s : State) :
    exec (.commandBufferDeparture tile slot) s = execCommandBufferDeparture tile slot s := rfl
@[simp] theorem exec_engineCommandBegin (tile cmd : Nat) (s : State) :
    exec (.engineCommandBegin tile cmd) s = execEngineCommandBegin tile cmd s := rfl
@[simp] theorem exec_engineCommandComplete (tile cmd : Nat) (s : State) :
    exec (.engineCommandComplete tile cmd) s = execEngineCommandComplete tile cmd s := rfl
@[simp] theorem exec_controlTokenDelivery (tile : Nat) (s : State) :
    exec (.controlTokenDelivery tile) s = execControlTokenDelivery tile s := rfl
@[simp] theorem exec_illegal (w : BitVec 32) (s : State) :
    exec (.illegal w) s = execIllegal w s := rfl
@[simp] theorem exec_storeAcknowledgement (tile slot : Nat) (space : BitVec 2) (s : State) :
    exec (.storeAcknowledgement tile slot space) s = execStoreAcknowledgement tile slot space s := rfl
@[simp] theorem exec_poolPass (tile : Nat) (s : State) :
    exec (.poolPass tile) s = execPoolPass tile s := rfl
@[simp] theorem exec_configWavefront (tile : Nat) (s : State) :
    exec (.configWavefront tile) s = execConfigWavefront tile s := rfl
@[simp] theorem exec_streamElementDelivery (tile stream : Nat) (s : State) :
    exec (.streamElementDelivery tile stream) s = execStreamElementDelivery tile stream s := rfl
@[simp] theorem exec_floadTakeover (tile cmd : Nat) (s : State) :
    exec (.floadTakeover tile cmd) s = execFloadTakeover tile cmd s := rfl
@[simp] theorem exec_releaseFrozenCommand (tile cmd : Nat) (s : State) :
    exec (.releaseFrozenCommand tile cmd) s = execReleaseFrozenCommand tile cmd s := rfl
@[simp] theorem exec_columnUnitReply (tile col : Nat) (s : State) :
    exec (.columnUnitReply tile col) s = execColumnUnitReply tile col s := rfl
@[simp] theorem exec_chainAccessAccept (tile col row : Nat) (s : State) :
    exec (.chainAccessAccept tile col row) s = execChainAccessAccept tile col row s := rfl
@[simp] theorem exec_chainRelease (level unit ctx : Nat) (s : State) :
    exec (.chainRelease level unit ctx) s = execChainRelease level unit ctx s := rfl
@[simp] theorem exec_chainOverflow (level unit img : Nat) (s : State) :
    exec (.chainOverflow level unit img) s = execChainOverflow level unit img s := rfl
@[simp] theorem exec_instanceCommit (img : Nat) (s : State) :
    exec (.instanceCommit img) s = execInstanceCommit img s := rfl
@[simp] theorem exec_linkAudit (l : LinkAt) (s : State) :
    exec (.linkAudit l) s = execLinkAudit l s := rfl
@[simp] theorem exec_auditReport (l : LinkAt) (s : State) :
    exec (.auditReport l) s = execAuditReport l s := rfl
@[simp] theorem exec_linkParityFailure (l : LinkAt) (f : LinkFault) (s : State) :
    exec (.linkParityFailure l f) s = execLinkParityFailure l f s := rfl
@[simp] theorem exec_queueOverflow (tile col row : Nat) (d : LinkDir) (s : State) :
    exec (.queueOverflow tile col row d) s = execQueueOverflow tile col row d s := rfl
@[simp] theorem exec_egressArbitration (level unit egress : Nat) (s : State) :
    exec (.egressArbitration level unit egress) s = execEgressArbitration level unit egress s := rfl
@[simp] theorem exec_barrierArrival (gid : Nat) (s : State) :
    exec (.barrierArrival gid) s = execBarrierArrival gid s := rfl
@[simp] theorem exec_requestTimeout (t : TimeoutTarget) (pairLost : Bool) (s : State) :
    exec (.requestTimeout t pairLost) s = execRequestTimeout t pairLost s := rfl
@[simp] theorem exec_remoteRequestArrival (r : RemoteReq) (s : State) :
    exec (.remoteRequestArrival r) s = execRemoteRequestArrival r s := rfl
@[simp] theorem exec_ucieRetrainFailure (die md : Nat) (s : State) :
    exec (.ucieRetrainFailure die md) s = execUcieRetrainFailure die md s := rfl
@[simp] theorem exec_ucieFlitReplay (die md : Nat) (s : State) :
    exec (.ucieFlitReplay die md) s = execUcieFlitReplay die md s := rfl
@[simp] theorem exec_launchRegisterWrite (plot reg : Nat) (v : BitVec 64) (s : State) :
    exec (.launchRegisterWrite plot reg v) s = execLaunchRegisterWrite plot reg v s := rfl
@[simp] theorem exec_nodeReady (plot graph node : Nat) (s : State) :
    exec (.nodeReady plot graph node) s = execNodeReady plot graph node s := rfl
@[simp] theorem exec_nodeComplete (plot graph node : Nat) (s : State) :
    exec (.nodeComplete plot graph node) s = execNodeComplete plot graph node s := rfl
@[simp] theorem exec_groupPlacement (plot : Nat) (s : State) :
    exec (.groupPlacement plot) s = execGroupPlacement plot s := rfl
@[simp] theorem exec_groupStart (gid : Nat) (s : State) :
    exec (.groupStart gid) s = execGroupStart gid s := rfl
@[simp] theorem exec_groupEnd (gid : Nat) (s : State) :
    exec (.groupEnd gid) s = execGroupEnd gid s := rfl
@[simp] theorem exec_blockGate (block : Nat) (s : State) :
    exec (.blockGate block) s = execBlockGate block s := rfl
@[simp] theorem exec_blockWakeComplete (block : Nat) (s : State) :
    exec (.blockWakeComplete block) s = execBlockWakeComplete block s := rfl
@[simp] theorem exec_armedRound (tile : Nat) (s : State) :
    exec (.armedRound tile) s = execArmedRound tile s := rfl
@[simp] theorem exec_stopWordWrite (part : Nat) (s : State) :
    exec (.stopWordWrite part) s = execStopWordWrite part s := rfl
@[simp] theorem exec_stopWaveArrival (part tile : Nat) (s : State) :
    exec (.stopWaveArrival part tile) s = execStopWaveArrival part tile s := rfl
@[simp] theorem exec_swap (part : Nat) (s : State) :
    exec (.swap part) s = execSwap part s := rfl
@[simp] theorem exec_resume (part : Nat) (s : State) :
    exec (.resume part) s = execResume part s := rfl
@[simp] theorem exec_terminate (gid : Nat) (s : State) :
    exec (.terminate gid) s = execTerminate gid s := rfl
@[simp] theorem exec_nodeBoundaryPreemption (plot part : Nat) (s : State) :
    exec (.nodeBoundaryPreemption plot part) s = execNodeBoundaryPreemption plot part s := rfl
@[simp] theorem exec_translationInvalidation (r : InvalScope) (s : State) :
    exec (.translationInvalidation r) s = execTranslationInvalidation r s := rfl
@[simp] theorem exec_switchSettingsWrite (level unit egress : Nat) (v : BitVec 64) (s : State) :
    exec (.switchSettingsWrite level unit egress v) s = execSwitchSettingsWrite level unit egress v s := rfl
@[simp] theorem exec_granuleScrub (loc : Nat) (v : List (BitVec 8)) (s : State) :
    exec (.granuleScrub loc v) s = execGranuleScrub loc v s := rfl
@[simp] theorem exec_managementRegisterWrite (w : MgmtWrite) (s : State) :
    exec (.managementRegisterWrite w) s = execManagementRegisterWrite w s := rfl
@[simp] theorem exec_counterRead (c : CounterId) (s : State) :
    exec (.counterRead c) s = execCounterRead c s := rfl
@[simp] theorem exec_hostCxlMemWrite (pa : Nat) (v : List (BitVec 8)) (s : State) :
    exec (.hostCxlMemWrite pa v) s = execHostCxlMemWrite pa v s := rfl
@[simp] theorem exec_hostCxlMemRead (pa n : Nat) (s : State) :
    exec (.hostCxlMemRead pa n) s = execHostCxlMemRead pa n s := rfl
@[simp] theorem exec_hostConfigRequest (offset : Nat) (s : State) :
    exec (.hostConfigRequest offset) s = execHostConfigRequest offset s := rfl
@[simp] theorem exec_hostAtomicop (pa : Nat) (s : State) :
    exec (.hostAtomicop pa) s = execHostAtomicop pa s := rfl
@[simp] theorem exec_attestationNonceWrite (nonce : BitVec 256) (s : State) :
    exec (.attestationNonceWrite nonce) s = execAttestationNonceWrite nonce s := rfl
@[simp] theorem exec_coldReset (s : State) :
    exec (.coldReset) s = execColdReset s := rfl
@[simp] theorem exec_dieReset (die : Nat) (s : State) :
    exec (.dieReset die) s = execDieReset die s := rfl
@[simp] theorem exec_partitionReset (part : Nat) (s : State) :
    exec (.partitionReset part) s = execPartitionReset part s := rfl
@[simp] theorem exec_bootStep (b : BootInput) (s : State) :
    exec (.bootStep b) s = execBootStep b s := rfl
@[simp] theorem exec_powerSample (p : PowerReading) (s : State) :
    exec (.powerSample p) s = execPowerSample p s := rfl
@[simp] theorem exec_sramScrub (unit : CounterId) (found : Bool) (s : State) :
    exec (.sramScrub unit found) s = execSramScrub unit found s := rfl
@[simp] theorem exec_uncorrectableError (loc : ErrLoc) (s : State) :
    exec (.uncorrectableError loc) s = execUncorrectableError loc s := rfl
@[simp] theorem exec_terminateFrozenCommand (tile cmd : Nat) (s : State) :
    exec (.terminateFrozenCommand tile cmd) s = execTerminateFrozenCommand tile cmd s := rfl
@[simp] theorem exec_chainLoadReply (level unit entry : Nat) (s : State) :
    exec (.chainLoadReply level unit entry) s = execChainLoadReply level unit entry s := rfl

end Sys2Proof.Machine
end

