-- ==== Sys2Proof/Laws/Far.lean ====
section
/-! SUPPORT. What the operations on far writes and banks do (R246, R262, R335): each lemma says once what one of them
changes, and what of the rest it leaves. -/

namespace Sys2Proof.Machine

/-- A bank that is taken changes nothing but the package's record of the banks. -/
theorem takeBank_eq (s : State) (b : Option Nat) (gid n : Nat) :
    ∃ k, (s.takeBank b gid n).2 = s.modPkg fun p => { p with banks := k } := by
  cases b with
  | none => exact ⟨s.pkg.banks, rfl⟩
  | some b => exact ⟨_, rfl⟩

/-- So do several. -/
theorem takeBanks_eq (s : State) (gid step d : Nat) (l : List Nat) :
    ∃ k, (s.takeBanks gid step d l).2 = s.modPkg fun p => { p with banks := k } := by
  induction l generalizing s d with
  | nil => exact ⟨s.pkg.banks, rfl⟩
  | cons b l ih =>
    obtain ⟨k, h⟩ := takeBank_eq s (some b) gid (s.now + d)
    obtain ⟨k', h'⟩ := ih (s.takeBank (some b) gid (s.now + d)).2 (d + step)
    refine ⟨k', ?_⟩
    change ((s.takeBank (some b) gid (s.now + d)).2.takeBanks gid step (d + step) l).2 = _
    rw [h', h]; rfl

/-- A far write that is launched becomes the last of those on their way, with its maker, its place and its bytes, due
after now, and only the counter of free values moves beside it. -/
theorem launchFar_eq (s : State) (w : FarWrite) :
    ∃ n, s.now < n ∧ s.launchFar w =
      { s with free := s.free + 1, pkg := { s.pkg with far := s.pkg.far ++ [{ w with id := s.free, since := s.now, due := n }] } } := by
  refine ⟨_, ?_, rfl⟩
  exact Nat.lt_of_lt_of_le (by omega) (Nat.le_max_right _ _)

@[simp] theorem launchFar_mem (s : State) (w : FarWrite) : (s.launchFar w).mem = s.mem := rfl
@[simp] theorem launchFar_poison (s : State) (w : FarWrite) : (s.launchFar w).poison = s.poison := rfl
@[simp] theorem launchFar_tiles (s : State) (w : FarWrite) : (s.launchFar w).tiles = s.tiles := rfl
@[simp] theorem launchFar_groups (s : State) (w : FarWrite) : (s.launchFar w).groups = s.groups := rfl
@[simp] theorem launchFar_now (s : State) (w : FarWrite) : (s.launchFar w).now = s.now := rfl

/-- A write that leaves its die changes memory only where it goes to the host. -/
theorem sendFar_mem (s : State) (tile gid : Nat) (k : FarMaker) (space : Space) (place : Nat) (va : Word) (wide : Bool)
    (bs : List Byte) (pos : Nat) : (s.sendFar tile gid k space place va wide bs pos).mem =
      if space = .h then (s.storeBytes tile gid .h place bs).mem else s.mem := by
  unfold State.sendFar
  rw [launchFar_mem]
  split <;> rfl

theorem sendFar_wf (s : State) (tile gid : Nat) (k : FarMaker) (space : Space) (place : Nat) (va : Word) (wide : Bool)
    (bs : List Byte) (pos : Nat) (h : s.mem.wf = true) : (s.sendFar tile gid k space place va wide bs pos).mem.wf = true := by
  rw [sendFar_mem]
  split
  · exact storeBytes_wf _ _ _ _ _ _ h
  · exact h

/-- A strike leaves all but the bytes of far writes. -/
theorem strikeFar_eq (s : State) (die loc n : Nat) : ∃ l, s.strikeFar die loc n = s.modPkg fun p => { p with far := l } := by
  unfold State.strikeFar
  split
  · exact ⟨s.pkg.far, rfl⟩
  · exact ⟨_, rfl⟩

@[simp] theorem strikeFar_mem (s : State) (die loc n : Nat) : (s.strikeFar die loc n).mem = s.mem := by
  obtain ⟨_, h⟩ := strikeFar_eq s die loc n
  rw [h]; rfl
@[simp] theorem strikeFar_groups (s : State) (die loc n : Nat) : (s.strikeFar die loc n).groups = s.groups := by
  obtain ⟨_, h⟩ := strikeFar_eq s die loc n
  rw [h]; rfl

/-- An access that writes at once keeps the memory's form, and every byte outside its places. -/
theorem writeOver_wf (s : State) (tile gid : Nat) (space : Space) (place : Nat) (bs : List Byte) (h : s.mem.wf = true) :
    (s.writeOver tile gid space place bs).mem.wf = true := by
  unfold State.writeOver
  apply storeBytes_wf
  split
  · simpa using h
  · exact h

theorem writeOver_read_outside (s : State) (tile gid : Nat) (space : Space) (place a : Nat) (bs : List Byte)
    (h : ∀ i, i < bs.length → a ≠ s.locOf tile gid space (place + i)) :
    (s.writeOver tile gid space place bs).mem.read a = s.mem.read a := by
  unfold State.writeOver
  split
  · rw [storeBytes_read_outside, strikeFar_mem]
    intro i hi
    rw [locOf_congr (strikeFar_groups _ _ _ _)]
    exact h i hi
  · exact storeBytes_read_outside _ _ _ _ _ _ _ h

/-- A write of an engine keeps the memory's form, whether it is performed or on its way. -/
theorem engineWrite_wf (s : State) (tile gid : Nat) (k : FarMaker) (space : Space) (scope : Nat) (a : Word) (place : Nat)
    (bs : List Byte) (pos : Nat) (h : s.mem.wf = true) :
    (s.engineWrite tile gid k space scope a place bs pos).mem.wf = true := by
  unfold State.engineWrite
  split
  · exact sendFar_wf _ _ _ _ _ _ _ _ _ _ h
  · split
    · exact h
    · exact writeOver_wf _ _ _ _ _ _ h

/-- A stage of an engine's access changes no memory. -/
theorem askTurn_mem (s : State) (tile gid : Nat) (who : EngineId) (a : Ask) (stage : AskStage) :
    (s.askTurn tile gid who a stage).2.mem = s.mem := by
  have book : (s.bookAsk gid a).2.mem = s.mem := by
    obtain ⟨k, h⟩ := takeBanks_eq s gid 0 0 (s.askBanks gid a)
    change (s.takeBanks gid 0 0 (s.askBanks gid a)).2.mem = _
    rw [h]; rfl
  unfold State.askTurn
  cases stage with
  | unsent =>
    dsimp only
    split
    · rfl
    · split
      · exact book
      · change (s.engineRequest _ _ _ _ _ _ _ _).mem = _
        unfold State.engineRequest
        dsimp only
        split <;> rfl
  | onWay => rfl
  | arrived => exact book
  | booked c => rfl

/-- An access of a command that has its banks is performed; any other moves it at most a stage further. -/
theorem ask_booked (s : State) (tile : Nat) (c : Cmd) (a : Ask) (f : State → Cmd → State) (n : Nat)
    (h : c.ask = .booked n) (hn : n ≤ s.now) : s.ask tile c a f = f s { c with ask := .unsent, asked := s.now } := by
  unfold State.ask State.askTurn
  simp [h, AskStage.ready, hn]

/-- A read that notes the far writes it meets changes only their notes. -/
theorem noteRead_eq (s : State) (tile place n : Nat) : ∃ l, s.noteRead tile place n = s.modPkg fun p => { p with far := l } := by
  unfold State.noteRead
  split
  · exact ⟨s.pkg.far, rfl⟩
  · exact ⟨_, rfl⟩

/-- The bytes of a far write, once in memory, keep the memory's form. -/
theorem landBytes_wf (s : State) (w : FarWrite) (h : s.mem.wf = true) : (s.landBytes w).mem.wf = true := by
  unfold State.landBytes
  generalize s.mem = m at h ⊢
  induction w.cells generalizing m with
  | nil => exact h
  | cons c l ih => exact ih _ (wf_write _ _ _ h)

/-- With no far write on its way, a tile sees what memory holds. -/
theorem seenByte_of_none (s : State) (tile loc : Nat) (h : s.pkg.far = []) : s.seenByte tile loc = s.mem.read loc := by
  unfold State.seenByte State.farByte
  rw [h]; rfl

end Sys2Proof.Machine
end

