-- ==== Sys2Proof/Tests/Slice0.lean ====
section
/-! SUPPORT. The tests of the model: ill-formed terms, words and slots decoded from the manual's own tables, single
steps, and for every statement a state and operands that meet its hypotheses. -/

set_option maxRecDepth 100000
set_option Elab.async false

namespace Sys2Proof.Tests

open Sys2Proof Sys2Proof.Machine Sys2Proof.Claims

/-! ## Small states -/

/-- A guard that is always 1 and no stall count. -/
def c0 : Ctl := ⟨0#4, 0#4⟩

/-- A word with a guard. -/
def guarded (p : BitVec 4) : Ctl := ⟨0#4, p⟩

/-- Registers with a few of them set. -/
def regs (l : List (Nat × Word)) : Vector Word 32 :=
  l.foldl (fun v x => vset v x.1 x.2) (Vector.replicate 32 0#64)

/-- A group of one thread on tile 0 with every token, 4 KiB of text and scratchpad and a whole fabric. -/
def group1 : Group :=
  { gid := 1, part := 0, plot := 0, graph := 0, node := 0, index := 3, level := 0, unitTile := 0, members := [0]
    memberMask := 1#16, started := true, tokmask := BitVec.allOnes 64, windows := [⟨0, 0, 4096, Vector.replicate 5 0#10⟩]
    texts := [(0, 0, 4096)], rects := [⟨0, 0, 0, 0, 20, 10⟩], slots := [(0, 0)], entries := [(0#2, 0)] }

/-- A partition of block 0 with 4 KiB of the quad's slice. -/
def part0 : Partition := { id := 0, owner := 1, blocks := [0], grants := [(1, 0, 0, 4096)] }

/-- A thread in group state at 0x100, with a handler. -/
def thread1 : Thread :=
  { status := .running, gid := 1, pc := 0x100#64, resume := 0x100#64, tvec := 0x200#64
    regs := regs [(1, 5#64), (2, 7#64), (3, 0x40#64), (4, 0x1000040#64), (5, 0x8000000000000000#64), (6, 0x180#64)] }

/-- The translations of a tile: the first 64 KiB of G and of H, which may be read and written. -/
def leaves : List Leaf := [⟨false, 0, 0, 65536, 0x0000800000000063#64⟩, ⟨true, 0, 0, 65536, 0x63#64⟩]

/-- The reset state with one group whose thread is `th`. -/
def with1 (th : Thread) : State :=
  ({ State.reset with groups := [group1], parts := [part0] }.modTile 0 fun t => { t with tlb := leaves }).modThread 0 0
    fun _ => th

def base : State := with1 thread1

/-- The same with the thread in supervisor state. -/
def baseSup : State := with1 { thread1 with sup := true }

/-- What a step answers, where it answers a next state. -/
def after {α : Type} (f : State → α) (o : Host.Outcome State Fault Refusal) : Option α :=
  match o with
  | .next t => some (f t)
  | _ => none

/-- A register of the thread in focus, as it reads two cycles later. -/
def reads (d : BitVec 5) (i : Instr) : Option Word := after (fun t => t.cur.regAt (t.now + 8) d) (exec i base)

/-! ## Ill-formed terms -/

/-- A trigger and fields that are well formed for most actions: INT32, one beat, n for a, DST w[16]. -/
def trig (fmt : BitVec 3) : Trig := ⟨0#16, 0#16, 0#6, 0#5, 0#7, 7#3, 0#2, fmt⟩

/-- Compute-form fields with these selectors. -/
def comp (dst sa sb scc : BitVec 5) : Comp := ⟨dst, sa, sb, scc, 0#6, 0#1, 0#4, 0#3, 0#2, 0#8, 0#1, 0#12⟩

/-- Memory-form fields of access 1 of chain 0, of 4 bytes at the address in X[0]. -/
def memf (data : BitVec 5) : MemF := ⟨0#4, 1#8, 0#8, 0#8, 8#5, data, 0#6, 0#8, 2#2, 0#3⟩

theorem test_wf_accepts :
    (Instr.teAdd (trig 7#3) (comp 16#5 0#5 1#5 0#5)).wf = true ∧ (Instr.ldcSp (trig 7#3) (memf 7#5)).wf = true ∧
      (Instr.twait c0 5#6 2#2).wf = true := by decide

/-- R141: selectors 27 to 31 are reserved; R142: destinations 4, 5, 7 and 25 to 31. -/
theorem test_wf_refuses_selectors :
    (Instr.teAdd (trig 7#3) (comp 16#5 27#5 1#5 0#5)).wf = false ∧
      (Instr.teAdd (trig 7#3) (comp 16#5 0#5 27#5 0#5)).wf = false ∧
      (Instr.sel (trig 7#3) (comp 16#5 0#5 1#5 27#5)).wf = false ∧
      (Instr.teAdd (trig 7#3) (comp 4#5 0#5 1#5 0#5)).wf = false ∧
      (Instr.teAdd (trig 7#3) (comp 7#5 0#5 1#5 0#5)).wf = false ∧
      (Instr.teAdd (trig 7#3) (comp 25#5 0#5 1#5 0#5)).wf = false := by decide

/-- R138: PVAL outside PCARE, and TAGV without a channel to test; R139: POP 6 with PUPD; R154: a format outside the
entry's set. -/
theorem test_wf_refuses_trigger_and_format :
    (Instr.teNop { trig 7#3 with pval := 1#16 } (comp 6#5 7#5 7#5 7#5)).wf = false ∧
      (Instr.teNop { trig 7#3 with tagch := 6#3, tagv := 1#2 } (comp 6#5 7#5 7#5 7#5)).wf = false ∧
      (Instr.teNop (trig 7#3) { comp 6#5 7#5 7#5 7#5 with pupd := 1#1, pop := 6#3 }).wf = false ∧
      (Instr.teAdd (trig 0#3) (comp 16#5 0#5 1#5 0#5)).wf = false ∧
      (Instr.fadd (trig 3#3) (comp 16#5 0#5 1#5 0#5)).wf = false ∧
      (Instr.fhadd (trig 0#3) (comp 16#5 0#5 1#5 0#5)).wf = false ∧
      (Instr.xexpf (trig 1#3) (comp 6#5 0#5 7#5 7#5)).wf = false ∧
      (Instr.pack (trig 7#3) (comp 16#5 0#5 1#5 0#5)).wf = false := by decide

/-- R156 to R165, R178: what each shape refuses. -/
theorem test_wf_refuses_shapes :
    (Instr.teCmp (trig 7#3) (comp 16#5 0#5 1#5 8#5)).wf = false ∧
      (Instr.frnd (trig 0#3) (comp 16#5 0#5 7#5 4#5)).wf = false ∧
      (Instr.xrcp { trig 0#3 with beatsM1 := 4#5 } (comp 6#5 0#5 7#5 7#5)).wf = false ∧
      (Instr.steer (trig 7#3) (comp 1#5 0#5 1#5 1#5)).wf = false ∧
      (Instr.merge { trig 7#3 with beatsM1 := 1#5 } (comp 16#5 0#5 1#5 2#5)).wf = false ∧
      (Instr.dup (trig 7#3) (comp 1#5 0#5 0#5 2#5)).wf = false ∧
      (Instr.gate (trig 7#3) (comp 1#5 0#5 1#5 0#5)).wf = false ∧
      (Instr.drop (trig 7#3) (comp 6#5 8#5 7#5 7#5)).wf = false ∧
      (Instr.tag (trig 7#3) (comp 1#5 0#5 1#5 0#5)).wf = false ∧
      (Instr.carry (trig 7#3) (comp 1#5 0#5 8#5 0#5)).wf = false ∧
      (Instr.ropen { trig 7#3 with beatsM1 := 1#5 } (comp 6#5 7#5 7#5 7#5)).wf = false ∧
      (Instr.done (trig 7#3) { comp 6#5 7#5 7#5 7#5 with imm12 := 16#12 }).wf = false ∧
      (Instr.teTrap { trig 7#3 with beatsM1 := 1#5 } (comp 6#5 7#5 7#5 7#5)).wf = false ∧
      (Instr.lapset { trig 7#3 with beatsM1 := 1#5 } (comp 6#5 0#5 7#5 7#5)).wf = false ∧
      (Instr.cvt (trig 7#3) { comp 16#5 0#5 7#5 0#5 with imm12 := 2#12 }).wf = false ∧
      (Instr.pack (trig 1#3) (comp 16#5 0#5 1#5 1#5)).wf = false ∧
      (Instr.unpk (trig 1#3) (comp 16#5 0#5 7#5 2#5)).wf = false ∧
      (Instr.pset (trig 7#3) (comp 0#5 0#5 7#5 2#5)).wf = false ∧
      (Instr.tePlog (trig 7#3) (comp 0#5 0#5 1#5 7#5)).wf = false ∧
      (Instr.xset (trig 7#3) (comp 16#5 0#5 7#5 7#5)).wf = false ∧
      (Instr.xadd (trig 7#3) (comp 7#5 0#5 1#5 7#5)).wf = false ∧
      (Instr.xcmp (trig 7#3) (comp 16#5 0#5 1#5 0#5)).wf = false := by decide

/-- R213: eight beats at most, an access number of 1 to 254, no SIZE 3, ADDR and DATA that a memory form reads, and
the fields that an operation leaves zero. -/
theorem test_wf_refuses_memory_forms :
    (Instr.ldcSp { trig 7#3 with beatsM1 := 8#5 } (memf 7#5)).wf = false ∧
      (Instr.ldcSp (trig 7#3) { memf 7#5 with own := 0#8 }).wf = false ∧
      (Instr.ldcSp (trig 7#3) { memf 7#5 with own := 255#8 }).wf = false ∧
      (Instr.ldcSp (trig 7#3) { memf 7#5 with size := 3#2 }).wf = false ∧
      (Instr.ldcSp (trig 7#3) { memf 7#5 with addr := 16#5 }).wf = false ∧
      (Instr.stcSp (trig 7#3) (memf 16#5)).wf = false ∧ (Instr.ldcSp (trig 7#3) (memf 1#5)).wf = false ∧
      (Instr.stcG (trig 7#3) { memf 1#5 with amo := 1#3 }).wf = false ∧
      (Instr.amocSh (trig 7#3) { memf 1#5 with size := 1#2 }).wf = false ∧
      (Instr.amocG (trig 0#3) (memf 1#5)).wf = false ∧ (Instr.cskip (trig 7#3) (memf 7#5)).wf = false := by decide

/-- R45, R50, R57, R106: CAS without a result register, TWAIT of level 0, and special registers that no number or no
write allocates. -/
theorem test_wf_refuses_words :
    (Instr.amogCas c0 0#5 1#5 2#5).wf = false ∧ (Instr.twait c0 5#6 0#2).wf = false ∧
      (Instr.mfs c0 1#5 0x19#13).wf = false ∧ (Instr.mfs c0 1#5 0x18#13).wf = false ∧
      (Instr.mts c0 1#5 0x0F#13).wf = false ∧ (Instr.mts c0 1#5 0x109#13).wf = false := by decide

/-! ## Decoding -/

/-- R65, R67, R68, R71 to R74: the words that the manual writes out (R22, R24, R77, R78). -/
theorem test_decode_alu :
    decode (leBytes 4 0x00006429) = .ok (.sub c0 3#5 4#5 5#5) ∧ decode (leBytes 4 0x0004C63F) = .ok (.sext c0 6#5 6#5 7#5) ∧
      decode (leBytes 4 0x00090954) = .ok (.divu c0 8#5 9#5 10#5) ∧ decode (leBytes 4 0x000C4322) = .ok (.bfi c0 2#5 3#5 4#5) ∧
      decode (leBytes 4 0x00204239) = .ok (.shli c0 2#5 2#5 57#6) ∧ decode (leBytes 4 0x0028213F) = .ok (.srai c0 1#5 1#5 63#6) ∧
      decode (leBytes 4 0x002C2000) = .ok (.setlo c0 1#5 0#13) ∧ decode (leBytes 4 0x0030FABC) = .ok (.setsh c0 7#5 0x1ABC#13) ∧
      decode (leBytes 4 0x00352006) = .ok (.ldlit c0 9#5 6#13) := by decide

theorem test_decode_predicates :
    decode (leBytes 4 0x003D18BA) = .ok (.cmpi c0 4#4 3#3 2#5 0x1D#5 0#1) ∧
      decode (leBytes 4 0x003DB0FF) = .ok (.cmpi c0 6#4 6#3 3#5 0x1F#5 1#1) ∧
      decode (leBytes 4 0x0040663B) = .ok (.pandn c0 3#4 6#4 7#4) := by decide

theorem test_decode_branches :
    decode (leBytes 4 0x004C0010) = .ok (.call c0 0x10#18) ∧ decode (leBytes 4 0x0050A501) = .ok (.jalr c0 5#5 5#5) ∧
      decode (leBytes 4 0x00500002) = .ok (.ret c0) ∧ decode (leBytes 4 0x00545FFD) = .ok (.loop c0 2#5 0x1FFD#13) ∧
      decode (leBytes 4 0x0058C218) = .ok (.bsel c0 6#5 2#5 3#5) := by decide

theorem test_decode_system :
    decode (leBytes 4 0x005C0000) = .ok (.tfence c0) ∧ decode (leBytes 4 0x005C0401) = .ok (.trap c0 4#5) ∧
      decode (leBytes 4 0x005C0002) = .ok (.eret c0) ∧ decode (leBytes 4 0x005C0003) = .ok (.halt c0) ∧
      decode (leBytes 4 0x005C0004) = .ok (.yield c0) ∧ decode (leBytes 4 0x005C0005) = .ok (.rmark c0) ∧
      decode (leBytes 4 0x0060600F) = .ok (.mfs c0 3#5 0x0F#13) ∧ decode (leBytes 4 0x0064A008) = .ok (.mts c0 5#5 8#13) := by
  decide

theorem test_decode_memory :
    decode (leBytes 4 0x008864FA) = .ok (.ldg c0 3#5 4#5 0x3E#6 2#2) ∧
      decode (leBytes 4 0x0084E20F) = .ok (.stsh c0 7#5 2#5 3#6 3#2) ∧
      decode (leBytes 4 0x0074A605) = .ok (.ldspi c0 5#5 6#5 1#6 1#2) ∧
      decode (leBytes 4 0x00448009) = .ok (.ldprm c0 4#5 0#5 2#6 1#2) := by decide

theorem test_decode_ordered_memory :
    decode (leBytes 4 0x009C6493) = .ok (.ldacq c0 3#5 4#5 2#2 2#3 1#1) ∧
      decode (leBytes 4 0x00A0C152) = .ok (.strel c0 6#5 1#5 1#2 2#3 0#1) ∧
      decode (leBytes 4 0x00AD242F) = .ok (.amogCas c0 9#5 4#5 5#5) ∧
      decode (leBytes 4 0x00A80218) = .ok (.amoshAdd c0 0#5 2#5 3#5) ∧
      decode (leBytes 4 0x00B40013) = .ok (.fence c0 2#3) ∧ decode (leBytes 4 0x00B40401) = .ok (.sbar c0 4#5) ∧
      decode (leBytes 4 0x00B40002) = .ok (.dbar c0) ∧ decode (leBytes 4 0x00B40404) = .ok (.wfe c0 4#5) ∧
      decode (leBytes 4 0x00B40080) = .ok (.drain c0 2#2) := by decide

theorem test_decode_commands :
    decode (leBytes 4 0x00C00100) = .ok (.pmode c0 1#5 0#5) ∧ decode (leBytes 4 0x00C00322) = .ok (.pbeds c0 3#5 4#5) ∧
      decode (leBytes 4 0x00C00533) = .ok (.pmap c0 5#5 6#5) ∧ decode (leBytes 4 0x00C00747) = .ok (.pzero c0 7#5 8#5) ∧
      decode (leBytes 4 0x00C80950) = .ok (.sdef c0 9#5 10#5) ∧ decode (leBytes 4 0x00C80B01) = .ok (.scnt c0 11#5 0#5) ∧
      decode (leBytes 4 0x00D00538) = .ok (.cpshape c0 5#5 7#5) ∧ decode (leBytes 4 0x00D0095A) = .ok (.cpyr c0 9#5 11#5) := by
  decide

theorem test_decode_fabric_commands :
    decode (leBytes 4 0x00D80110) = .ok (.fload c0 1#5 2#5) ∧ decode (leBytes 4 0x00D80119) = .ok (.fgo c0 1#5 3#5) ∧
      decode (leBytes 4 0x00D8011A) = .ok (.fstop c0 1#5 3#5) ∧ decode (leBytes 4 0x00D80113) = .ok (.fput c0 1#5 2#5) ∧
      decode (leBytes 4 0x00D86114) = .ok (.fget c0 3#5 1#5 2#5) ∧ decode (leBytes 4 0x00D8E005) = .ok (.fstat c0 7#5 0#5 0#5) ∧
      decode (leBytes 4 0x00DD0112) = .ok (.tquery c0 8#5 1#5 2#5) ∧
      decode (leBytes 4 0x00BCA203) = .ok (.accrd c0 5#5 2#5 3#8) := by decide

/-- The bytes of a slot from its two 64-bit halves as the manual writes them, bits 127:64 first. -/
def slotBytes (hi lo : Nat) : List Byte := leBytes 16 (hi * 2 ^ 64 + lo)

theorem test_decode_slots_compute :
    decodeElement (slotBytes 0x8007000740001800 0x5902E0F049080041) =
        .ok (.fscale ⟨0x000E#16, 0x000E#16, 0x20#6, 0#5, 0#7, 6#3, 0#2, 0#3⟩
          ⟨16#5, 5#5, 24#5, 7#5, 0x20#6, 1#1, 2#4, 2#3, 0#2, 64#8, 0#1, 65#12⟩) ∧
      decodeElement (slotBytes 0x8007000400001800 0xC84418604D000040) =
        .ok (.xcmp ⟨0x000E#16, 0x0008#16, 0#6, 0#5, 0#7, 6#3, 0#2, 0#3⟩
          ⟨4#5, 8#5, 6#5, 3#5, 0#6, 1#1, 3#4, 2#3, 0#2, 0#8, 0#1, 64#12⟩) := by decide

theorem test_decode_slots_dataflow :
    decodeElement (slotBytes 0x8020002002705820 0x40104CE080221000) =
        .ok (.fadd ⟨0x0040#16, 0x0040#16, 1#6, 7#5, 2#7, 6#3, 0#2, 1#3⟩
          ⟨1#5, 0#5, 19#5, 7#5, 1#6, 0#1, 0#4, 0#3, 1#2, 16#8, 1#1, 0#12⟩) ∧
      decodeElement (slotBytes 0x80010001100018E0 0x8220A080CA190070) =
        .ok (.stcSp ⟨0x0002#16, 0x0002#16, 8#6, 0#5, 0#7, 6#3, 0#2, 7#3⟩
          ⟨1#4, 5#8, 4#8, 6#8, 10#5, 3#5, 8#6, 3#8, 2#2, 0#3⟩) := by decide

/-- R57: words that are no instruction; R148: a slot with a reserved bit set. -/
theorem test_decode_refuses :
    (decode (leBytes 4 0xFFFFFFFF)).toOption = none ∧ (decode (leBytes 4 0x00B80000)).toOption = none ∧
      (decode (leBytes 4 0x00204239)).toOption ≠ none ∧ (decode (leBytes 4 (0x00204239 + 0x40))).toOption = none ∧
      (decodeElement (slotBytes 0x8007000740001801 0x5902E0F049080041)).toOption = none := by decide

/-! ## One step -/

/-- The first word after reset runs where it is placed. -/
theorem test_step_runs_placed_word : after (fun t => t.cur.pc) (step (State.reset.withFetchWord 32 0)) = some 4#64 := by
  decide

theorem test_add_wraps : reads 7#5 (.add c0 7#5 5#5 5#5) = some 0#64 := by decide
theorem test_sub_borrows : reads 7#5 (.sub c0 7#5 1#5 2#5) = some 0xFFFFFFFFFFFFFFFE#64 := by decide
theorem test_andn : reads 7#5 (.andn c0 7#5 2#5 1#5) = some 2#64 := by decide
theorem test_sra_copies_sign : reads 7#5 (.srai c0 7#5 5#5 63#6) = some 0xFFFFFFFFFFFFFFFF#64 := by decide
theorem test_shift_takes_six_bits : reads 7#5 (.shl c0 7#5 1#5 3#5) = some 5#64 := by decide
theorem test_min_is_signed : reads 7#5 (.min c0 7#5 1#5 5#5) = some 0x8000000000000000#64 := by decide
theorem test_clz_of_zero : reads 7#5 (.clz c0 7#5 0#5) = some 64#64 := by decide
theorem test_popc : reads 7#5 (.popc c0 7#5 2#5) = some 3#64 := by decide
theorem test_mulh_signed : reads 7#5 (.mulh c0 7#5 5#5 2#5) = some 0xFFFFFFFFFFFFFFFC#64 := by decide
theorem test_mulhu : reads 7#5 (.mulhu c0 7#5 5#5 2#5) = some 3#64 := by decide
theorem test_addi_extends : reads 7#5 (.addi c0 7#5 1#5 0xFF#8) = some 4#64 := by decide
theorem test_setsh : reads 2#5 (.setsh c0 2#5 1#13) = some 0xE001#64 := by decide
theorem test_bswap : reads 7#5 (.bswap c0 7#5 2#5) = some 0x0700000000000000#64 := by decide
theorem test_s0_discards : reads 0#5 (.add c0 0#5 1#5 2#5) = some 0#64 := by decide

/-- R67: the pair bit writes the complement, and `−1` tests bit 63. -/
theorem test_cmpi_bitset_pair :
    after (fun t => (t.cur.predAt (t.now + 2) 6#4, t.cur.predAt (t.now + 2) 7#4))
      (exec (.cmpi c0 6#4 6#3 5#5 0x1F#5 1#1) base) = some (true, false) := by decide

/-- R71: CALL writes pc + 4 to s31. -/
theorem test_call :
    after (fun t => (t.cur.pc, t.cur.regAt (t.now + 2) 31#5)) (exec (.call c0 0x10#18) base) = some (0x140#64, 0x104#64) := by
  decide

/-- R73: LOOP with s(d) = 1 writes 0 and falls through. -/
theorem test_loop_last :
    after (fun t => (t.cur.pc, t.cur.regAt (t.now + 2) 1#5))
      (exec (.loop c0 1#5 0x1FFD#13) (with1 { thread1 with regs := regs [(1, 1#64)] })) = some (0x104#64, 0#64) := by decide

/-- R56: a word whose guard reads 0 writes nothing. -/
theorem test_guard_false :
    after (fun t => (t.cur.pc, t.cur.regAt (t.now + 2) 7#5)) (exec (.add (guarded 3#4) 7#5 1#5 2#5) base) =
      some (0x104#64, 0#64) := by decide

/-- R70, R342: a jump to an address that is not a multiple of 4 traps ALIGN. -/
theorem test_jump_misaligned :
    after (fun t => (t.cur.pc, t.cur.tcause, t.cur.tval, t.cur.tepc)) (exec (.jr c0 1#5) base) =
      some (0x200#64, 2#64, 5#64, 0x100#64) := by decide

/-- R66: LDLIT of a text that holds nothing reads 0 and is outstanding. -/
theorem test_ldlit_outstanding :
    after (fun t => t.cur.outstanding.map fun o => (o.dst, o.value)) (exec (.ldlit c0 7#5 1#13) base) =
      some [(7#5, some 0#64)] := by decide

/-- R94, R96: STSPI buffers its store at s(a) and adds to s(a). -/
theorem test_stspi :
    after (fun t => ((accesses t).map (·.place), t.cur.regAt (t.now + 2) 3#5)) (exec (.stspi c0 2#5 3#5 1#6 3#2) base) =
      some ([0x40], 0x48#64) := by decide

/-- R92: a misaligned load traps ALIGN with TVAL its address. -/
theorem test_load_misaligned :
    after (fun t => (t.cur.tcause, t.cur.tval)) (exec (.ldsp c0 7#5 1#5 0#6 3#2) base) = some (2#64, 5#64) := by decide

/-- R49, R76: MFS VERS and TILE. -/
theorem test_mfs :
    reads 7#5 (.mfs c0 7#5 0x0D#13) = some 0x3566#64 ∧ reads 7#5 (.mfs c0 7#5 0x02#13) = some 0#64 := by decide

/-- R50: MTS of SBCHK keeps bit 0 alone. -/
theorem test_mts : after (fun t => t.cur.sbchk) (exec (.mts c0 1#5 0x09#13) base) = some true := by decide

/-- R78, R342: TRAP returns to the next word and gives s(a) in TVAL. -/
theorem test_trap :
    after (fun t => (t.cur.pc, t.cur.tepc, t.cur.tval, t.cur.sup)) (exec (.trap c0 2#5) base) =
      some (0x200#64, 0x104#64, 7#64, true) := by decide

/-- R78: ERET returns to TEPC in group state. -/
theorem test_eret :
    after (fun t => (t.cur.pc, t.cur.sup)) (exec (.eret c0) (with1 { thread1 with sup := true, tepc := 0x80#64 })) =
      some (0x80#64, false) := by decide

/-- R47: a PZERO enters the command buffer of the open region. -/
theorem test_pzero_held :
    after (fun t => t.cur.held.map fun q => (q.func, q.a)) (exec (.pzero c0 1#5 0#5) base) = some [(7#7, 5#64)] := by decide

/-! ## Witnesses: control words

Each theorem shows that the hypotheses of a statement, of each of its clauses, can be met together. -/

theorem witness_register_words :
    ∃ i c d lat f s, RegisterWord i c d lat f ∧ issues i c s = true ∧ d ≠ 0#5 :=
  ⟨_, _, _, _, _, base, .add c0 7#5 1#5 2#5, by decide⟩

theorem witness_predicate_words :
    ∃ i c pd pair f s, PredicateWord i c pd pair f ∧ issues i c s = true ∧ pair = true :=
  ⟨_, _, _, _, _, base, .cmp c0 2#4 2#3 1#5 2#5 1#1, by decide⟩

theorem witness_branches :
    (∃ i c d f s, BranchWord i c d f ∧ issues i c s = true ∧ targetOk s (f s.begin.cur)) ∧
      ∃ i c d f s, BranchWord i c d f ∧ issues i c s = true ∧ ¬targetOk s (f s.begin.cur) ∧ s.cur.sup = false ∧
        s.cur.tvec ≠ 0#64 ∧ s.cur.trapsPoisoned = false :=
  ⟨⟨_, _, _, _, base, .jr c0 6#5, by decide, by decide, by decide⟩,
    ⟨_, _, _, _, base, .jr c0 1#5, by decide, fun h => absurd h.1 (by decide), by decide, by decide, by decide⟩⟩

/-- LOOP with s(d) of 5, of 1 and of 0. -/
theorem witness_loop :
    (issues (.loop c0 1#5 0x1FFD#13) c0 base = true ∧ 1 < (base.begin.cur.reg 1#5).toNat ∧
        targetOk base (base.cur.pc + BitVec.ofInt 64 (4 * (0x1FFD#13).toInt))) ∧
      (issues (.loop c0 7#5 0x1FFD#13) c0 base = true ∧ base.begin.cur.reg 7#5 = 0#64) := by
  refine ⟨⟨by decide, by decide, by decide, by decide⟩, by decide, by decide⟩

theorem witness_divisions :
    ∃ i c d a b f s, DivisionWord i c d a b f ∧ issues i c s = true ∧ s.dividerBusy = false :=
  ⟨_, _, _, _, _, _, base, .divu c0 7#5 2#5 1#5, by decide, by decide⟩

/-- A thread with a committed store of 8 bytes to SP that may be performed. -/
def withStore : State :=
  with1 { thread1 with inflight := [{ region := 0, sid := 0, buf := ⟨.sp, 0x40, 0x40#64, .store 8 7#64⟩ }] }

/-- A load of SP, one of SH and one of G; and a load behind a store of its stream. -/
theorem witness_loads :
    (issues (.ldsp c0 7#5 3#5 1#6 3#2) c0 base = true ∧ (base.atIssue (.ldsp c0 7#5 3#5 1#6 3#2) c0).cur.mustWait .sp = false ∧
      byteSources .sp (base.atIssue (.ldsp c0 7#5 3#5 1#6 3#2) c0).cur.buffered.reverse 0x48 8 = List.replicate 8 .memory ∧
      base.readFault 0 1 .sp 0x48 (List.replicate 8 none) = none ∧
      ((base.atIssue (.ldsp c0 7#5 3#5 1#6 3#2) c0).resolve (.tile 0) 0 1 .sp 0x48#64 8 needLoad).toOption.map (·.1) =
        some 0x48) ∧
      ((base.resolve (.tile 0) 0 1 .sh 0x1000040#64 8 needLoad).toOption.map (·.1)).isSome = true ∧
      ((base.resolve (.tile 0) 0 1 .g 0x40#64 8 needLoad).toOption.map (·.1)).isSome = true ∧
      ((base.resolve (.tile 0) 0 1 .h 0x40#64 8 needStore).toOption.map (·.1)).isSome = true ∧
      (issues (.ldsp c0 7#5 3#5 1#6 3#2) c0 withStore = true ∧
        (withStore.atIssue (.ldsp c0 7#5 3#5 1#6 3#2) c0).cur.mustWait .sp = true ∧
        (withStore.atIssue (.ldsp c0 7#5 3#5 1#6 3#2) c0).cur.buffered = [] ∧
        withStore.readFault 0 1 .sp 0x48 (List.replicate 8 none) = none) ∧
      let s := with1 { thread1 with buffered := [⟨.sp, 0x48, 0x48#64, .amo .add 1#64⟩] }
      issues (.ldsp c0 7#5 3#5 1#6 3#2) c0 s = true ∧
        (byteSources .sp (s.atIssue (.ldsp c0 7#5 3#5 1#6 3#2) c0).cur.buffered.reverse 0x48 8).contains .atomic = true := by
  decide

/-- R95, R240: a load behind a store of its stream leaves its thread going on. -/
theorem test_queued_load :
    after (fun t => (t.cur.pc, t.cur.waiting, t.cur.outstanding.map fun o => (o.value, o.queued.map (·.places.length))))
      (exec (.ldsp c0 7#5 3#5 1#6 3#2) withStore) = some (0x104#64, false, [(none, some 8)]) := by decide +kernel

/-- A load whose value may return. -/
def withLoad : State :=
  with1 { thread1 with outstanding := [{ id := 4, dst := 7#5, src := .load, value := some 9#64 }] }

theorem witness_load_reply :
    ∃ o, ((withLoad.thread 0 0).outstanding.find? fun x => x.id == 4 && (x.src == .load || x.src == .value)) = some o ∧
      o.due ≤ withLoad.now ∧ o.inNet = false ∧ o.value = some 9#64 :=
  ⟨_, rfl, by decide⟩

/-- A tile whose divider is about to end a division by zero. -/
def withDivision : State := base.modTile 0 fun t => { t with divider := some ⟨0, 1, 7#5, 9#64, true, 0⟩ }

/-- The same of a group that has ended. -/
def withStaleDivision : State := base.modTile 0 fun t => { t with divider := some ⟨0, 2, 7#5, 9#64, true, 0⟩ }

theorem witness_divider :
    (∃ v, (withDivision.tile 0).divider = some v ∧ v.slot < 4 ∧ v.due ≤ withDivision.now ∧
      (withDivision.thread 0 v.slot).gid = v.gid) ∧
    ∃ v, (withStaleDivision.tile 0).divider = some v ∧ v.slot < 4 ∧ v.due ≤ withStaleDivision.now ∧
      (withStaleDivision.thread 0 v.slot).gid ≠ v.gid :=
  ⟨⟨_, rfl, by decide⟩, ⟨_, rfl, by decide⟩⟩

/-- R243: the division of a group that has ended writes nothing. -/
theorem test_stale_division :
    after (fun t => ((t.thread 0 0).reg 7#5, (t.thread 0 0).flags, (t.tile 0).divider)) (exec (.dividerResult 0) withStaleDivision) =
      some (0#64, 0#8, none) := by decide +kernel

theorem witness_literal_and_parameter_loads :
    (issues (.ldlit c0 7#5 1#13) c0 base = true ∧ (base.textLoc 0 1 false ((0x100#64 &&& ~~~7#64) + 8#64) 8).isSome = true) ∧
      (issues (.ldprm c0 7#5 0#5 2#6 1#2) c0 base = true ∧ vget base.cur.pwlim 1 0#32 = 0#32) ∧
      let s := with1 { thread1 with pwlim := Vector.replicate 4 24#32 }
      issues (.ldprm c0 7#5 0#5 2#6 1#2) c0 s = true ∧ 16 + 8 ≤ (vget s.cur.pwlim 1 0#32).toNat ∧
        (s.atIssue (.ldprm c0 7#5 0#5 2#6 1#2) c0).cur.mustWait .g = false ∧
        (s.atIssue (.ldprm c0 7#5 0#5 2#6 1#2) c0).cur.buffered = [] ∧
        ((s.atIssue (.ldprm c0 7#5 0#5 2#6 1#2) c0).resolve (.tile 0) 0 1 .g 16#64 8 needLoad).toOption.map (·.1) = some 16 ∧
        s.readFault 0 1 .g 16 [none] = none ∧
        ((s.atIssue (.ldprm c0 7#5 0#5 2#6 1#2) c0).resolveEach 17#64 8).toOption.map (·.1) =
          some [17, 18, 19, 20, 21, 22, 23, 24] ∧ s.readFaults 0 1 [17, 18, 19, 20, 21, 22, 23, 24] = none := by
  decide +kernel

theorem witness_acquire_loads :
    (issues (.ldacq c0 7#5 3#5 0#2 2#3 1#1) c0 base = true ∧
        ((base.atIssue (.ldacq c0 7#5 3#5 0#2 2#3 1#1) c0).resolve (.tile 0) 0 1 .sp 0x40#64 8 needLoad).toOption.map (·.1) =
          some 0x40 ∧
        (base.atIssue (.ldacq c0 7#5 3#5 0#2 2#3 1#1) c0).cur.mustWait .sp = false ∧
        base.readFault 0 1 .sp 0x40 [none] = none) ∧
      issues (.ldacq c0 7#5 3#5 0#2 2#3 1#1) c0 withStore = true ∧
        (withStore.atIssue (.ldacq c0 7#5 3#5 0#2 2#3 1#1) c0).cur.mustWait .sp = true ∧
        withStore.readFault 0 1 .sp 0x40 [none] = none := by decide

theorem witness_stores :
    (issues (.stsp c0 2#5 3#5 0#6 3#2) c0 base = true ∧ issues (.stsp c0 2#5 3#5 0#6 3#2) c0 baseSup = true) ∧
      ((base.atIssue (.stsp c0 2#5 3#5 0#6 3#2) c0).resolve (.tile 0) 0 1 .sp 0x40#64 8 needStore).toOption.map (·.1) =
        some 0x40 := by decide

/-- A store whose request is still in the network, and a far one that is visible in its die. -/
def storeOnWay (passed : Bool) : State :=
  with1 { thread1 with inflight := [{ region := 0, sid := 0, buf := ⟨.h, 0x40, 0x40#64, .store 8 7#64⟩, sent := true
                                      inNet := !passed, passed := passed }] }

/-- A far write of tile 0 to device memory at 0x40, or to a place of a space. -/
def farWrite (maker : FarMaker) (space : Space) (place : Nat) (wide : Bool) : FarWrite :=
  { tile := 0, gid := 1, maker := maker, space := space, place := place, va := 0x40#64, cells := [], since := 0, due := 9
    wide := wide }

/-- A state with a far write on its way. -/
def withFar (s : State) (w : FarWrite) : State := s.modPkg fun p => { p with far := [w] }

/-- A thread with a committed store of 8 bytes to a granule of device memory of die 1, whose bank it may have booked. -/
def farStore (booked : Option Nat) : State :=
  with1 { thread1 with inflight := [{ region := 0, sid := 0, buf := ⟨.g, 0x2000, 0x2000#64, .store 8 7#64⟩, booked := booked }] }

theorem witness_store_acknowledgement :
    (∃ f fs, (withStore.thread 0 0).streamOf (spaceOf 0#2) = f :: fs ∧ (withStore.thread 0 0).mayPerform f = true ∧
      f.passed = false ∧ f.buf.act = .store 8 7#64 ∧ withStore.mem.wf = true ∧ withStore.bankReady 0 1 ((withStore.thread 0 0).serveFrom f) f = true ∧
      withStore.gatewayDrops 1 0 f.buf.space f.buf.place = false ∧
      withStore.refuses 1 f.buf.space f.buf.place = false ∧ withStore.placePoisoned 0 1 f.buf.space f.buf.place = false ∧
      farAway 0 f.buf = false) ∧
    (∃ f fs, ((farStore none).thread 0 0).streamOf (spaceOf 2#2) = f :: fs ∧ ((farStore none).thread 0 0).mayPerform f = true ∧
      f.passed = false ∧ (farStore none).bankReady 0 1 (((farStore none).thread 0 0).serveFrom f) f = true ∧
      (farStore none).gatewayDrops 1 0 f.buf.space f.buf.place = false ∧
      (farStore none).refuses 1 f.buf.space f.buf.place = false ∧
      (farStore none).placePoisoned 0 1 f.buf.space f.buf.place = false ∧ farAway 0 f.buf = true ∧ f.buf.space = .g) ∧
    (∃ f fs, ((farStore (some 9)).thread 0 0).streamOf (spaceOf 2#2) = f :: fs ∧ f.passed = false ∧
      (farStore (some 9)).bankReady 0 1 (((farStore (some 9)).thread 0 0).serveFrom f) f = false) ∧
    (∃ f fs, ((storeOnWay false).thread 0 0).streamOf (spaceOf 3#2) = f :: fs ∧ f.passed = false ∧
      ((storeOnWay false).thread 0 0).mayPerform f = false) ∧
    (∃ f fs, ((storeOnWay true).thread 0 0).streamOf (spaceOf 3#2) = f :: fs ∧ f.passed = true ∧
      (storeOnWay true).farAccess 0 0 f.sid = false) ∧
    ∃ f fs, ((withFar (storeOnWay true) (farWrite (.access 0 0) .h 0x40 false)).thread 0 0).streamOf (spaceOf 3#2) = f :: fs ∧
      f.passed = true ∧ (withFar (storeOnWay true) (farWrite (.access 0 0) .h 0x40 false)).farAccess 0 0 f.sid = true :=
  ⟨⟨_, _, rfl, by decide⟩, ⟨_, _, rfl, by decide +kernel⟩, ⟨_, _, rfl, by decide⟩, ⟨_, _, rfl, by decide⟩,
    ⟨_, _, rfl, by decide⟩, ⟨_, _, rfl, by decide⟩⟩

/-- R335: a far store leaves memory as it was, and its tile reads its bytes. -/
theorem test_far_store :
    after (fun t => (t.mem.read 0x2000, t.seenByte 0 0x2000, (t.thread 0 0).inflight.map (·.passed)))
      (exec (.storeAcknowledgement 0 0 2#2) (farStore none)) = some (0#8, 7#8, [true]) := by decide +kernel

/-- R96, R256: the acknowledged store is in memory and no longer in flight. -/
theorem test_store_acknowledgement :
    after (fun t => (t.mem.read (locSp 0 0x40), (t.thread 0 0).inflight)) (exec (.storeAcknowledgement 0 0 0#2) withStore) =
      some (7#8, []) := by decide +kernel

theorem witness_release_stores :
    (issues (.strel c0 2#5 3#5 0#2 2#3 1#1) c0 base = true ∧
        ((base.atIssue (.strel c0 2#5 3#5 0#2 2#3 1#1) c0).resolve (.tile 0) 0 1 .sp 0x40#64 8 needStore).toOption.map (·.1) =
          some 0x40 ∧
        (base.atIssue (.strel c0 2#5 3#5 0#2 2#3 1#1) c0).released 2 = true ∧
        (base.atIssue (.strel c0 2#5 3#5 0#2 2#3 1#1) c0).cur.nextSid + 1 < 2 ^ 64) ∧
      (issues (.strel c0 2#5 3#5 0#2 2#3 1#1) c0 withStore = true ∧
        (withStore.atIssue (.strel c0 2#5 3#5 0#2 2#3 1#1) c0).released 2 = false) ∧
      (let s := with1 { withStore.cur with waiting := true, latchB := 1#64 }
       s.begin.cur.waiting = true ∧ s.cur.latchB ≠ 0#64 ∧ (s.cur.inflight.any fun f => f.sid + 1 == s.cur.latchB.toNat) = true) ∧
      let s := with1 { thread1 with waiting := true, latchB := 1#64 }
      s.begin.cur.waiting = true ∧ s.cur.latchB ≠ 0#64 ∧
        (s.cur.inflight.any fun f => f.sid + 1 == s.cur.latchB.toNat) = false := by decide

/-- R102: the word ends once its store is performed, and not before. -/
theorem test_release_stores :
    after (fun t => (t.cur.waiting, t.cur.inflight.map fun f => f.buf.place)) (exec (.strel c0 2#5 3#5 0#2 2#3 1#1) base) =
        some (true, [0x40]) ∧
      after (fun t => (t.cur.waiting, t.cur.pc)) (exec (.strel c0 2#5 3#5 0#2 2#3 1#1) (with1 { thread1 with waiting := true, latchB := 1#64 })) =
        some (false, 0x104#64) := by decide +kernel

theorem witness_atomics :
    (issues (.amospAdd c0 0#5 3#5 1#5) c0 base = true ∧
        ((base.atIssue (.amospAdd c0 0#5 3#5 1#5) c0).resolve (.tile 0) 0 1 .sp 0x40#64 8 needAmo).toOption.map (·.1) =
          some 0x40) ∧
      issues (.amospCas c0 7#5 3#5 1#5) c0 base = true ∧
        ((base.atIssue (.amospCas c0 7#5 3#5 1#5) c0).resolve (.tile 0) 0 1 .sp 0x40#64 8 needAmo.learns).toOption.map (·.1) =
          some 0x40 ∧
        (base.atIssue (.amospCas c0 7#5 3#5 1#5) c0).cur.mustWait .sp = false ∧
        (base.atIssue (.amospCas c0 7#5 3#5 1#5) c0).released (impliedScope .sp 0x40) = true ∧
        base.readFault 0 1 .sp 0x40 [none] = none ∧ base.loadBytes 0 1 .sp 0x40 8 = leBytes 8 (0#64).toNat ∧
        issues (.amospCas c0 7#5 3#5 1#5) c0 withStore = true ∧
        (withStore.atIssue (.amospCas c0 7#5 3#5 1#5) c0).cur.mustWait .sp = true ∧
        withStore.readFault 0 1 .sp 0x40 [none] = none := by decide

theorem witness_false_guards : ∃ i c s, PlainWord i c ∧ skips i c s :=
  ⟨_, _, base, .load (.ldsp (guarded 3#4) 7#5 3#5 1#6 3#2), by decide, by decide, by decide, by decide⟩

/-- Scratchpad memory with a table of two buckets at 0x40: 8 with offset 2, then the end with offset 4. -/
def withTable : State :=
  { base with mem := base.mem.writeBytes (locSp 0 0x40) (leBytes 4 8 ++ leBytes 4 2 ++ leBytes 4 0xFFFFFFFF ++ leBytes 4 4) }

theorem witness_bucket_select :
    issues (.bsel c0 7#5 1#5 3#5) c0 withTable = true ∧ (withTable.begin.cur.reg 3#5).toNat = 0x40 ∧
      (withTable.begin.cur.reg 1#5).toNat ≤ 8 ∧ (withTable.atIssue (.bsel c0 7#5 1#5 3#5) c0).cur.mustWait .sp = false ∧
      (withTable.atIssue (.bsel c0 7#5 1#5 3#5) c0).cur.buffered = [] ∧ (withTable.partOf 1).isSome = true ∧
      (withTable.window? 1 0).any (fun w => decide (0x40 + 8 ≤ w.size)) = true ∧
      withTable.loadBytes 0 1 .sp 0x40 8 = leBytes 4 8 ++ leBytes 4 2 ∧ withTable.placePoisoned 0 1 .sp 0x40 = false ∧
      withTable.loadBytes 0 1 .sp 0x48 8 = leBytes 4 0xFFFFFFFF ++ leBytes 4 4 := by decide

theorem test_bucket_select :
    after (fun t => (t.cur.pc, t.cur.padm, t.cur.regAt (t.now + 9) 7#5)) (exec (.bsel c0 7#5 1#5 3#5) withTable) =
      some (0x108#64, 7#64, 3#64) := by decide

/-- A thread with a division that has still to post its flag. -/
def dividing : State := with1 { thread1 with outstanding := [{ id := 4, dst := 7#5, src := .division }] }

theorem witness_special_registers :
    (∃ f, SpecialRegister 0x00C#13 f ∧ issues (.mfs c0 7#5 0x00C#13) c0 base = true) ∧
      (∃ f, SpecialRegister 0x007#13 f ∧ issues (.mfs c0 7#5 0x007#13) c0 base = true ∧ ¬divides base) ∧
      (∃ f, SpecialRegister 0x108#13 f ∧ issues (.mfs c0 7#5 0x108#13) c0 baseSup = true) ∧
      issues (.mfsFtrap c0 7#5) c0 base = true ∧ issues (.mfs c0 7#5 0x007#13) c0 dividing = true ∧ divides dividing :=
  ⟨⟨_, .padm, by decide⟩, ⟨_, .flags, by decide, by unfold divides; decide⟩, ⟨_, .reentrymax, by decide⟩, by decide, by decide,
    by unfold divides; decide⟩

theorem witness_special_writes :
    (∃ f, SpecialWrite 0x007#13 f ∧ issues (.mts c0 1#5 0x007#13) c0 base = true ∧ ¬divides base ∧
      issues (.mts c0 1#5 0x007#13) c0 dividing = true ∧ divides dividing) ∧
      ∃ f, SpecialWrite 0x108#13 f ∧ issues (.mts c0 1#5 0x108#13) c0 baseSup = true :=
  ⟨⟨_, .flags, by unfold divides; decide⟩, ⟨_, .reentrymax, by decide⟩⟩

theorem witness_illegal_words :
    (∃ i c, PrivilegedWord i c ∧ base.focus.slot < 4 ∧ base.begin.cur.waiting = false) ∧ hasHandler base :=
  ⟨⟨_, _, .eret (guarded 3#4), by decide, by decide⟩, by unfold hasHandler; decide⟩

theorem witness_software_traps :
    (issues (.trap c0 2#5) c0 base = true ∧ hasHandler base) ∧ (issues (.trap c0 2#5) c0 baseSup = true ∧ baseSup.cur.sup = true) ∧
      issues (.trap c0 2#5) c0 (with1 { thread1 with tvec := 0#64 }) = true := by
  unfold hasHandler; decide

theorem witness_trap_fence :
    (issues (.tfence c0) c0 base = true ∧ ¬divides base) ∧
      (let s := with1 { thread1 with flags := 3#8, trapen := 1#8 }
       issues (.tfence c0) c0 s = true ∧ ¬divides s ∧ s.cur.flags &&& s.cur.trapen ≠ 0#8 ∧ hasHandler s) ∧
      issues (.tfence c0) c0 dividing = true ∧ divides dividing := by
  unfold hasHandler divides; decide

theorem witness_eret : issues (.eret c0) c0 baseSup = true ∧ baseSup.cur.tstate.getLsbD 0 = false := by decide

/-- A command of a thread that has still to leave its buffer. -/
def heldCmd : Cmd := { id := 5, func := 0x07#7, a := 1#64, b := 0#64, slot := 0, gid := 1, reply := none }
def withCmd : State := with1 { thread1 with departing := [heldCmd] }

theorem witness_halt :
    (issues (.halt c0) c0 base = true ∧ (base.atIssue (.halt c0) c0).cur.departing = []) ∧
      issues (.halt c0) c0 withCmd = true ∧ (withCmd.atIssue (.halt c0) c0).cur.departing ≠ [] := by decide

theorem witness_yield_and_mark :
    issues (.yield c0) c0 base = true ∧ issues (.rmark c0) c0 base = true ∧ base.cur.sup = false := by decide

/-- A thread with a load that stands behind earlier accesses. -/
def withRead : State :=
  with1 { thread1 with outstanding := [{ id := 4, dst := 7#5, src := .load, space := .sp, queued := some ⟨[], [], false, none, false, 0⟩ }] }

/-- The thread of a state held at a word that has kept an operand and a second one. -/
def held (s : State) (a b : Word) : State := s.modCur fun th => { th with waiting := true, latchA := a, latchB := b }

/-- An element that stream 3 has delivered to another die. -/
def streaming : State := withFar base { farWrite (.stream 5 3) .g 0x2000 false with id := 2 }

/-- Whether one of the waiting words issues in a state and passes, or not. -/
def WaitsAs (i : Instr) (s : State) (b : Bool) : Prop :=
  ∃ f g, WaitWord i c0 f g ∧ issues i c0 s = true ∧ f (s.atIssue i c0) = b

/-- Whether one of the waiting words that holds its thread passes, or not. -/
def HoldsAs (i : Instr) (s : State) (b : Bool) : Prop :=
  ∃ f g, WaitWord i c0 f g ∧ s.focus.slot < 4 ∧ s.begin.cur.waiting = true ∧ g s.begin = b

theorem witness_fences :
    WaitsAs (.fence c0 2#3) base true ∧ WaitsAs (.fence c0 2#3) withStore false ∧
      WaitsAs (.fence c0 4#3) (storeOnWay true) true ∧ WaitsAs (.fence c0 7#3) (storeOnWay true) false ∧
      WaitsAs (.fence c0 2#3) withRead false ∧ HoldsAs (.fence c0 2#3) (held base 0#64 0#64) true ∧
      HoldsAs (.fence c0 2#3) (held withStore 0#64 0#64) false :=
  ⟨⟨_, _, .fence _ _, by decide⟩, ⟨_, _, .fence _ _, by decide⟩, ⟨_, _, .fence _ _, by decide⟩, ⟨_, _, .fence _ _, by decide⟩,
    ⟨_, _, .fence _ _, by decide⟩, ⟨_, _, .fence _ _, by decide⟩, ⟨_, _, .fence _ _, by decide⟩⟩

theorem witness_sbars :
    WaitsAs (.sbar c0 1#5) base true ∧ WaitsAs (.sbar c0 1#5) (withStore.modCur fun th => th.setReg 1#5 1#64) false ∧
      WaitsAs (.sbar c0 1#5) (withRead.modCur fun th => th.setReg 1#5 1#64) false ∧
      WaitsAs (.sbar c0 1#5) ({ streaming with free := 3 }.modCur fun th => th.setReg 1#5 0x800#64) false ∧
      WaitsAs (.sbar c0 1#5) (streaming.modCur fun th => th.setReg 1#5 0x800#64) true ∧
      HoldsAs (.sbar c0 1#5) (held streaming 0x800#64 3#64) false ∧ HoldsAs (.sbar c0 1#5) (held streaming 0x100#64 3#64) true :=
  ⟨⟨_, _, .sbar _ _, by decide⟩, ⟨_, _, .sbar _ _, by decide⟩, ⟨_, _, .sbar _ _, by decide⟩, ⟨_, _, .sbar _ _, by decide⟩,
    ⟨_, _, .sbar _ _, by decide⟩, ⟨_, _, .sbar _ _, by decide⟩, ⟨_, _, .sbar _ _, by decide⟩⟩

theorem witness_drains :
    WaitsAs (.drain c0 2#2) base true ∧
      WaitsAs (.drain c0 2#2) (withFar base (farWrite (.command 5 0 0) .g 0x2000 false)) false ∧
      WaitsAs (.drain c0 2#2) streaming true ∧
      HoldsAs (.drain c0 2#2) (held (withFar base (farWrite (.command 5 4 1) .g 0x2000 false)) 4#64 0#64) true ∧
      HoldsAs (.drain c0 2#2) (held (withFar base (farWrite (.command 5 4 1) .g 0x2000 false)) 5#64 0#64) false :=
  ⟨⟨_, _, .drain _ _, by decide⟩, ⟨_, _, .drain _ _, by decide⟩, ⟨_, _, .drain _ _, by decide⟩, ⟨_, _, .drain _ _, by decide⟩,
    ⟨_, _, .drain _ _, by decide⟩⟩

/-- R108: SBAR waits for the element that a selected stream had delivered, and goes on without one. -/
theorem test_sbar :
    after (fun t => (t.cur.pc, t.cur.waiting))
        (exec (.sbar c0 1#5) ({ streaming with free := 3 }.modCur fun th => th.setReg 1#5 0x800#64)) = some (0x100#64, true) ∧
      after (fun t => (t.cur.pc, t.cur.waiting)) (exec (.sbar c0 1#5) (held streaming 0x100#64 3#64)) = some (0x104#64, false) := by
  decide +kernel

theorem witness_event_waits :
    (let s := with1 { thread1 with evt := 4#16 }
     issues (.wfe c0 1#5) c0 s = true ∧ s.cur.evt &&& (s.begin.cur.reg 1#5).setWidth 16 ≠ 0#16) ∧
      (issues (.wfe c0 1#5) c0 base = true ∧ base.cur.evt &&& (base.begin.cur.reg 1#5).setWidth 16 = 0#16) ∧
      (let s := with1 { thread1 with evt := 4#16, waiting := true, latchA := 4#64 }
       s.begin.cur.waiting = true ∧ s.cur.evt &&& s.cur.latchA.setWidth 16 ≠ 0#16 ∧ s.cur.departing = []) ∧
      let s := with1 { thread1 with evt := 4#16, waiting := true, latchA := 4#64, departing := [heldCmd] }
      s.begin.cur.waiting = true ∧ s.cur.departing ≠ [] := by decide

/-- A token of tile 0 in a state. -/
def withToken (k : Nat) (st : TokState) : State := base.modToken 0 k fun x => { x with state := st, cause := 9#6 }

theorem witness_token_waits :
    (issues (.twait c0 5#6 2#2) c0 base = true ∧ base.outsideMask 5 = false ∧
        (base.atIssue (.twait c0 5#6 2#2) c0).cur.departing = [] ∧ base.cur.twait = none) ∧
      levelMet 2#2 ((withToken 5 .visible).token 0 5).state = true ∧
      levelMet 2#2 ((withToken 5 .faulted).token 0 5).state = false ∧ levelMet 2#2 (base.token 0 5).state = false := by decide

theorem test_token_waits :
    after (fun t => (t.cur.pc, t.cur.tcause, t.cur.tval, t.cur.taux)) (exec (.twait c0 5#6 2#2) (withToken 5 .faulted)) =
        some (0x200#64, 9#64, 9#64, 0x500#64) ∧
      after (fun t => t.cur.pc) (exec (.twait c0 5#6 2#2) (withToken 5 .visible)) = some 0x104#64 := by decide +kernel

theorem witness_domain_barrier :
    (base.group? 1 = some group1 ∧ issues (.dbar c0) c0 base = true ∧ base.cur.arrived = false ∧
        (base.atIssue (.dbar c0) c0).released group1.level = true) ∧
      (issues (.dbar c0) c0 withStore = true ∧ withStore.cur.arrived = false ∧
        (withStore.atIssue (.dbar c0) c0).released group1.level = false) ∧
      (let s := with1 { thread1 with waiting := true, arrived := true, phaseAtWait := true }
       s.focus.slot < 4 ∧ s.cur.waiting = true ∧ s.cur.arrived = true ∧ group1.phase ≠ s.cur.phaseAtWait) ∧
      let s := with1 { thread1 with waiting := true, arrived := true }
      s.cur.waiting = true ∧ s.cur.arrived = true ∧ group1.phase = s.cur.phaseAtWait := by decide

theorem witness_barrier_arrivals :
    { base with groups := [{ group1 with arrivals := [0] }] }.group? 1 = some { group1 with arrivals := [0] } ∧
      ([0].find? fun a => decide (a ≤ base.now)) = some 0 ∧ group1.barrier + 1 = group1.slots.length ∧
      { group1 with release := some 4 }.release = some 4 := by decide

/-- R310, R421: a group of one thread: its arrival takes the count to 0 and sends the release for the next cycle. -/
theorem test_barrier_arrivals :
    after (fun t => (t.group? 1).map fun g => (g.barrier, g.release, g.phase))
      (exec (.barrierArrival 1) { base with groups := [{ group1 with arrivals := [0] }] }) = some (some (0, some 1, false)) := by
  decide +kernel

theorem witness_accumulator_reads :
    issues (.accrd c0 7#5 1#5 3#8) c0 base = true ∧ (base.ctx 0).pool.owners = [] ∧ (base.ctx 0).pool.armed = none ∧
      (base.ctx 0).pool.accPoison = [] ∧
      let s := base.modPool 0 fun p => { p with owners := [{ acct := 0, flow := 5, slot := 0, drainEnded := true, flowEnded := false }] }
      issues (.accrd c0 7#5 1#5 3#8) c0 s = true ∧ (s.begin.cur.reg 1#5 + 3#64).toNat % 2048 / 64 = 0 ∧
        ∃ o ∈ (s.ctx 0).pool.owners, o.acct = 0 ∧ o.drainEnded = true ∧ o.flowEnded = false := by decide

/-! ## Witnesses: element instructions -/

/-- An INT32 token. -/
def tok (v : W32) : Token := ⟨v, 7#3, 0#2, 0#8, none, false⟩

/-- An image of one TE, its head, with one chain and its home in the tile. -/
def image1 : Image :=
  { id := 7, gid := 1, leader := 0, offset := 0, colOff := 0, rowOff := 0, level := 0, home := 0, tes := [(0, 0, 0)]
    head := some (0, 0, 0), tail := some (0, 0, 0), chains := [0], started := true, thread := some (0, 0) }

/-- The group's fabric runs the image, and TE (0, 0) of tile 0 has a token of 3 in n and one of 4 in e. -/
def teBase (m : Image) : State :=
  ({ base with images := [m] }).setTe 0 0 0
    { image := some 7, started := true, dest := (0, 0), scrLim := 1024#14, queues := vset (vset (Vector.replicate 6 []) 0 [tok 3#32]) 1 [tok 4#32]
      x := vset (Vector.replicate 8 0#16) 0 0x80#16 }

def idle1 : State := teBase image1
def open1 : State := teBase { image1 with state := .opened }

/-- INT32 addition of n and e into w[x0], both dequeued, with PUPD of a value that is not 0 and XINC 1. -/
def addFields : Comp := { comp 16#5 0#5 1#5 0#5 with deq := 3#6, pupd := 1#1, pop := 3#3, xinc := 1#2 }

theorem witness_element_firings :
    ∃ w sh, ComputeSlot (.teAdd (trig 7#3) addFields) (trig 7#3) addFields .src2 w ∧
      fires .src2 (trig 7#3) addFields idle1 sh ∧
      steady sh (sentBy idle1 addFields sh (workOf w idle1) (beatsOf (trig 7#3))) (beatsOf (trig 7#3)) :=
  ⟨_, (firingShape .src2 (trig 7#3) addFields idle1).getD {}, .teAdd _ _,
    ⟨by decide, by decide, by decide, by decide +kernel⟩, .inl (by decide)⟩

/-- INT32 addition of the two tokens, both dequeued: 3 + 4 into w[x0], x0 stepped, and the predicate POP of a value that is not 0. -/
theorem test_element_add :
    after (fun t => (t.readW (0, 0, 0) 0x80, (t.teAt (0, 0, 0)).p, vget (t.teAt (0, 0, 0)).x 0 0#16)) (exec (.teAdd (trig 7#3) addFields) idle1) =
      some (7#32, 1#16, 0x81#16) := by decide +kernel

/-- The fields of a TRAP with DETAIL 5. -/
def trapFields : Comp := { comp 6#5 7#5 7#5 7#5 with imm12 := 5#12 }

theorem witness_column_requests :
    ∃ w sh, ComputeSlot (.xrcp (trig 0#3) (comp 6#5 8#5 7#5 7#5)) (trig 0#3) (comp 6#5 8#5 7#5 7#5) .column w ∧
      fires .column (trig 0#3) (comp 6#5 8#5 7#5 7#5) idle1 sh :=
  ⟨_, (firingShape .column (trig 0#3) (comp 6#5 8#5 7#5 7#5) idle1).getD {}, .xrcp _ _,
    ⟨by decide, by decide, by decide, by decide +kernel⟩⟩

theorem witness_done :
    (∃ sh, (Instr.done (trig 7#3) { comp 6#5 7#5 7#5 7#5 with imm12 := 2#12 }).wf = true ∧
      fires .doneTok (trig 7#3) { comp 6#5 7#5 7#5 7#5 with imm12 := 2#12 } idle1 sh ∧
      idle1.imageOf idle1.focusTe = some image1 ∧ image1.active = false) ∧
    open1.imageOf open1.focusTe = some { image1 with state := .opened } ∧ ({ image1 with state := .opened } : Image).active = true ∧
      ∃ sh, fires .doneTok (trig 7#3) { comp 6#5 7#5 7#5 7#5 with imm12 := 2#12 } open1 sh :=
  ⟨⟨(firingShape .doneTok (trig 7#3) { comp 6#5 7#5 7#5 7#5 with imm12 := 2#12 } idle1).getD {}, by decide +kernel,
      ⟨by decide, by decide, by decide, by decide +kernel⟩, by decide +kernel, by decide +kernel⟩, by decide +kernel,
    by decide +kernel, (firingShape .doneTok (trig 7#3) { comp 6#5 7#5 7#5 7#5 with imm12 := 2#12 } open1).getD {},
    ⟨by decide, by decide, by decide, by decide +kernel⟩⟩

/-- A slot that needs a token of in.s, which is empty. -/
theorem witness_unready_slots :
    (∃ sh, formShape .src2 { trig 7#3 with inreq := 4#6 } addFields (idle1.teAt idle1.focusTe)
        (readIn idle1 addFields {} 0) = some sh ∧
      idle1.slotReady idle1.focusTe { trig 7#3 with inreq := 4#6 } sh = false) ∧
      idle1.slotReady idle1.focusTe { trig 7#3 with inreq := 4#6 } (memShape { trig 7#3 with inreq := 4#6 } (memf 7#5)) = false :=
  ⟨⟨_, rfl, by decide +kernel⟩, by decide +kernel⟩

/-- An instance whose commit has begun. -/
def committing1 : Image := { image1 with state := .closed, committing := true }

/-- ROPEN, RCLOSE and RABORT in front of an idle domain, in an open one, at its last re-entry, while its commit runs, and
in an image without a domain. -/
theorem witness_regions :
    (∃ sh, fires .region (trig 7#3) (comp 6#5 7#5 7#5 7#5) idle1 sh ∧ image1.head.isSome = true ∧ image1.active = false) ∧
    (∃ sh, fires .region (trig 7#3) (comp 6#5 7#5 7#5 7#5) open1 sh ∧ ({ image1 with state := .opened } : Image).discards = true ∧
      image1.reentry.toNat + 1 < image1.reentrymax.toNat) ∧
    (∃ sh, fires .region (trig 7#3) (comp 6#5 7#5 7#5 7#5) (teBase { image1 with state := .opened, reentry := 7#8 }) sh ∧
      ({ image1 with state := .opened, reentry := 7#8 } : Image).discards = true) ∧
    (∃ sh, fires .region (trig 7#3) (comp 6#5 7#5 7#5 7#5) (teBase committing1) sh ∧ committing1.active = true ∧
      committing1.committing = true ∧ committing1.discarded ≠ some (teBase committing1).now) ∧
    ∃ sh, fires .region (trig 7#3) (comp 6#5 7#5 7#5 7#5) (teBase { image1 with head := none, tail := none }) sh :=
  ⟨⟨(firingShape .region (trig 7#3) (comp 6#5 7#5 7#5 7#5) idle1).getD {},
      ⟨by decide, by decide, by decide, by decide +kernel⟩, by decide, by decide⟩,
    ⟨(firingShape .region (trig 7#3) (comp 6#5 7#5 7#5 7#5) open1).getD {},
      ⟨by decide, by decide, by decide, by decide +kernel⟩, by decide⟩,
    ⟨(firingShape .region (trig 7#3) (comp 6#5 7#5 7#5 7#5) (teBase { image1 with state := .opened, reentry := 7#8 })).getD {},
      ⟨by decide, by decide, by decide, by decide +kernel⟩, by decide⟩,
    ⟨(firingShape .region (trig 7#3) (comp 6#5 7#5 7#5 7#5) (teBase committing1)).getD {},
      ⟨by decide, by decide, by decide, by decide +kernel⟩, by decide, by decide, by decide +kernel⟩,
    ⟨(firingShape .region (trig 7#3) (comp 6#5 7#5 7#5 7#5) (teBase { image1 with head := none, tail := none })).getD {},
      ⟨by decide, by decide, by decide, by decide +kernel⟩⟩⟩

/-- TRAP in an image without an instance, in one with an instance, with FTRAP taken, with a thread that has halted, and
in a TE without an image. -/
theorem witness_element_trap :
    (∃ sh, fires .trapTok (trig 7#3) trapFields idle1 sh ∧ idle1.imageOf idle1.focusTe = some image1 ∧
      image1.active = false ∧ idle1.ownerThread image1 = some (0, 0) ∧ (idle1.thread 0 0).ftrap.getLsbD 63 = false) ∧
    (∃ sh, fires .trapTok (trig 7#3) trapFields open1 sh ∧ open1.imageOf open1.focusTe = some { image1 with state := .opened } ∧
      ({ image1 with state := .opened } : Image).discards = true) ∧
    (let s := idle1.modThread 0 0 fun th => { th with ftrap := 0x8000000000000000#64 }
     ∃ sh, fires .trapTok (trig 7#3) trapFields s sh ∧ (s.thread 0 0).ftrap.getLsbD 63 = true) ∧
    (let s := idle1.modThread 0 0 fun th => { th with status := .halted }
     ∃ sh, fires .trapTok (trig 7#3) trapFields s sh ∧ s.ownerThread image1 = none) ∧
    (let s := idle1.modTe 0 0 0 fun e => { e with image := none }
     ∃ sh, fires .trapTok (trig 7#3) trapFields s sh ∧ s.imageOf s.focusTe = none) ∧
    (let s := teBase committing1
     ∃ sh, fires .trapTok (trig 7#3) trapFields s sh ∧ s.imageOf s.focusTe = some committing1 ∧ committing1.committing = true) ∧
    let m := { image1 with endedAt := some 0 }
    ∃ sh, fires .trapTok (trig 7#3) trapFields (teBase m) sh ∧ (teBase m).imageOf (teBase m).focusTe = some m ∧
      m.endedAt = some (teBase m).now :=
  ⟨⟨(firingShape .trapTok (trig 7#3) trapFields idle1).getD {},
      ⟨by decide, by decide, by decide, by decide +kernel⟩, by decide +kernel⟩,
    ⟨(firingShape .trapTok (trig 7#3) trapFields open1).getD {}, ⟨by decide, by decide, by decide, by decide +kernel⟩, by decide +kernel⟩,
    ⟨(firingShape .trapTok (trig 7#3) trapFields idle1).getD {}, ⟨by decide, by decide, by decide, by decide +kernel⟩, by decide +kernel⟩,
    ⟨(firingShape .trapTok (trig 7#3) trapFields idle1).getD {}, ⟨by decide, by decide, by decide, by decide +kernel⟩, by decide +kernel⟩,
    ⟨(firingShape .trapTok (trig 7#3) trapFields idle1).getD {}, ⟨by decide, by decide, by decide, by decide +kernel⟩, by decide +kernel⟩,
    ⟨(firingShape .trapTok (trig 7#3) trapFields idle1).getD {}, ⟨by decide, by decide, by decide, by decide +kernel⟩, by decide +kernel⟩,
    ⟨(firingShape .trapTok (trig 7#3) trapFields idle1).getD {}, ⟨by decide, by decide, by decide, by decide +kernel⟩, by decide +kernel⟩⟩

/-- R152, R165: the trap of the thread, with IMM12 as DETAIL, and the image stopped. -/
theorem test_element_trap :
    after (fun t => ((t.thread 0 0).ftrap, (t.thread 0 0).evt, (t.image? 7).map (·.started)))
      (exec (.teTrap (trig 7#3) trapFields) idle1) = some (0x8000000500000015#64, 0x8000#16, some false) := by decide +kernel

theorem witness_chain_slots : firesChain (trig 7#3) { memf 0#5 with deq := 1#6 } idle1 :=
  ⟨by decide, by decide, by decide, by decide +kernel, by decide +kernel, by decide +kernel, by decide +kernel,
    by decide +kernel⟩

/-- STC of the token in n to the address in X[0]. -/
theorem test_chain_store :
    after (fun t => (t.teAt (0, 0, 0)).outM.map fun r => (r.addr, r.data, r.own)) (exec (.stcSp (trig 7#3) { memf 0#5 with deq := 1#6 }) idle1) =
      some [(0x80#32, 3#32, 1#8)] := by decide +kernel

/-! ## Witnesses: engine commands -/

/-- A command of thread 0 of tile 0. -/
def cmd (func : BitVec 7) (a b : Word) : Cmd := { id := 5, func := func, a := a, b := b, slot := 0, gid := 1, reply := none }

/-- The tile's engines hold a command, and the token t1 that a token word of 0x0600000000000000 produces is its own. -/
def withCmds (c : Cmd) : State :=
  (base.modCtx 0 fun x => { x with cmds := [c] }).modToken 0 1 fun t => { t with state := .pending, owner := some 5 }

/-- The token word that produces t1, and one that consumes t3 at VISIBLE beside it. -/
def produces1 : Word := 0x0600000000000000#64

/-- A thread whose open region holds 16 commands. -/
def fullBuffer : State := with1 { thread1 with held := List.replicate 16 (cmd 0x07#7 1#64 0#64) }

theorem witness_commands_enter :
    (∃ i c, CommandWord i c 0x07#7 1#5 7#5 ∧ issues i c base = true ∧ base.begin.cur.bufferFull = false ∧
      (base.atIssue i c).commandTrap 0x07#7 5#64 0#64 = none ∧
      (base.atIssue i c).cur.held.length + (base.atIssue i c).cur.departing.length < 16) ∧
    (∃ i c, CommandWord i c 0x07#7 1#5 7#5 ∧ issues i c fullBuffer = true ∧ fullBuffer.begin.cur.bufferFull = false ∧
      (fullBuffer.atIssue i c).commandTrap 0x07#7 5#64 0#64 = none ∧
      16 ≤ (fullBuffer.atIssue i c).cur.held.length + (fullBuffer.atIssue i c).cur.departing.length) ∧
    ∃ i c, CommandWord i c 0x07#7 1#5 7#5 ∧ issues i c baseSup = true :=
  ⟨⟨_, c0, .pzero c0 1#5 7#5, by decide +kernel⟩, ⟨_, c0, .pzero c0 1#5 7#5, by decide +kernel⟩,
    ⟨_, c0, .pzero c0 1#5 7#5, by decide +kernel⟩⟩

theorem witness_commands_with_reply :
    (∃ i c, ReplyWord i c 0x3A#7 7#5 1#5 8#5 ∧ issues i c base = true ∧
      (base.atIssue i c).commandTrap 0x3A#7 5#64 0#64 = none ∧ (base.atIssue i c).cur.departing = []) ∧
    ∃ i c, ReplyWord i c 0x3A#7 7#5 1#5 8#5 ∧ issues i c withCmd = true ∧ (withCmd.atIssue i c).cur.departing ≠ [] :=
  ⟨⟨_, c0, .tquery c0 7#5 1#5 8#5, by decide +kernel⟩, ⟨_, c0, .tquery c0 7#5 1#5 8#5, by decide +kernel⟩⟩

/-- A token word with bit 56 set; one that produces t1 outside TOKMASK; and one that produces t1 while it is PENDING. -/
theorem witness_token_words :
    (let s := with1 { thread1 with regs := regs [(2, 0x0100000000000000#64)] }
     issues (.pzero c0 1#5 2#5) c0 s = true ∧ tokenWordBad (s.begin.cur.reg 2#5)) ∧
    (let s : State := { with1 { thread1 with regs := regs [(2, produces1)] } with groups := [{ group1 with tokmask := 1#64 }] }
     issues (.pzero c0 1#5 2#5) c0 s = true ∧ (namedTokens (s.begin.cur.reg 2#5)).find? s.outsideMask = some 1) ∧
    let s := (with1 { thread1 with regs := regs [(2, produces1)] }).modToken 0 1 fun t => { t with state := .pending }
    issues (.pzero c0 1#5 2#5) c0 s = true ∧ s.begin.cur.bufferFull = false ∧ hasHandler s ∧
      (∀ k ∈ namedTokens (s.begin.cur.reg 2#5), s.outsideMask k = false) ∧ produced (s.begin.cur.reg 2#5) = some 1 ∧
      s.pendingToken 1 = true := by
  unfold hasHandler
  exact ⟨⟨by decide +kernel, .inl (by decide +kernel)⟩, by decide +kernel⟩

theorem test_token_words :
    after (fun t => (t.cur.tcause, t.cur.taux))
      (exec (.pzero c0 1#5 2#5) ((with1 { thread1 with regs := regs [(2, produces1)] }).modToken 0 1 fun t => { t with state := .pending })) =
      some (8#64, 0x100#64) := by decide +kernel

/-- A thread whose buffer releases a command next. -/
def leaving (c : Cmd) : State := with1 { thread1 with departing := [c] }

theorem witness_commands_leave :
    ((leaving (cmd 0x07#7 1#64 produces1)).thread 0 0).departing = [cmd 0x07#7 1#64 produces1] ∧
      (cmd 0x07#7 1#64 produces1).descriptorOk = true ∧ (cmd 0x21#7 0#64 0#64).descriptorOk = false ∧
      (leaving (cmd 0x07#7 1#64 0#64)).queueLength 0 .drain < 16 := by decide +kernel

/-- R285, R295: DRAIN waits for a copy into its space that still stands in the buffer, and for no other command. -/
theorem test_drain_in_the_buffer :
    departsCopy .g (Vector.replicate 5 0#64) [cmd 0x20#7 8#64 1#64, cmd 0x21#7 0#64 0#64] = true ∧
      departsCopy .g (Vector.replicate 5 0#64) [cmd 0x21#7 0#64 0#64, cmd 0x38#7 0#64 0#64] = false := by decide

/-- A full drain queue. -/
theorem witness_full_queue :
    ¬(({ leaving (cmd 0x07#7 1#64 0#64) with tiles := (leaving (cmd 0x07#7 1#64 0#64)).tiles } : State).modCtx 0 fun x =>
      { x with cmds := List.replicate 16 (cmd 0x07#7 1#64 0#64) }).queueLength 0 .drain < QueueId.drain.room := by
  decide +kernel

theorem test_commands_leave :
    after (fun t => (vget (t.thread 0 0).copy 2 0#64, (t.thread 0 0).departing)) (exec (.commandBufferDeparture 0 0) (leaving (cmd 0x20#7 64#64 2#64))) =
        some (64#64, []) ∧
      after (fun t => ((t.ctx 0).cmds.map (·.id), (t.token 0 1).state)) (exec (.commandBufferDeparture 0 0) (leaving (cmd 0x07#7 1#64 produces1))) =
        some ([5], .pending) ∧
      after (fun t => ((t.ctx 0).cmds.map (·.id), (t.token 0 1).state)) (exec (.commandBufferDeparture 0 0) (leaving (cmd 0x21#7 0#64 produces1))) =
        some ([], .faulted) := by decide +kernel

theorem stands_of (c : Cmd) (h : (withCmds c).cmd? 0 c.id = some c ∧ c.armed = false)
    (hk : produced c.b = none ∨ (produced c.b = some 1 ∧ c.id = 5)) : Stands (withCmds c) 0 c := by
  refine ⟨by decide, h.1, h.2, fun k e => ?_⟩
  rcases hk with hk | ⟨hk, hi⟩
  · rw [hk] at e; cases e
  · rw [hk] at e; cases e; rw [hi]; rfl

/-- TJOIN, TRESET, TQUERY, FPUT and FGET that begin, one whose consumed token ended FAULTED, and an FPUT that names no
word. -/
theorem witness_engine_begins :
    (let c := { cmd 0x38#7 0#64 produces1 with satisfied := 7#3 }
     BeginsNext (withCmds c) 0 c ∧ c.upstream = false) ∧
    (let c := { cmd 0x39#7 4#64 produces1 with satisfied := 7#3 }
     BeginsNext (withCmds c) 0 c ∧ c.a.getLsbD 1 = false) ∧
    (let c := { cmd 0x3A#7 9#64 produces1 with satisfied := 7#3, reply := some 7#5 }
     BeginsNext (withCmds c) 0 c ∧ ((withCmds c).token 0 9).poisoned = false ∧ ((withCmds c).thread 0 0).gid = c.gid) ∧
    (let c := { cmd 0x33#7 0x30000#64 (produces1 ||| 9#64) with satisfied := 7#3 }
     BeginsNext (withCmds c) 0 c ∧ (withCmds c).wTarget 0 c = some ((0, 0, 0), 3)) ∧
    (let c := { cmd 0x34#7 0x30000#64 produces1 with satisfied := 7#3, reply := some 7#5 }
     BeginsNext (withCmds c) 0 c ∧ (withCmds c).wTarget 0 c = some ((0, 0, 0), 3) ∧ (withCmds c).wBad (0, 0, 0) 3 = false) ∧
    (let c := { cmd 0x38#7 0#64 produces1 with satisfied := 7#3, upstream := true }
     BeginsNext (withCmds c) 0 c ∧ c.flags = 0#8) ∧
    let c := { cmd 0x33#7 0x30000#64 produces1 with satisfied := 7#3, gid := 2 }
    BeginsNext (withCmds c) 0 c ∧ (withCmds c).wTarget 0 c = none :=
  ⟨⟨⟨stands_of _ (by decide +kernel) (.inr (by decide +kernel)), by decide, by decide, by decide +kernel⟩, by decide +kernel⟩,
    ⟨⟨stands_of _ (by decide +kernel) (.inr (by decide +kernel)), by decide, by decide, by decide +kernel⟩, by decide +kernel⟩,
    ⟨⟨stands_of _ (by decide +kernel) (.inr (by decide +kernel)), by decide, by decide, by decide +kernel⟩, by decide +kernel⟩,
    ⟨⟨stands_of _ (by decide +kernel) (.inr (by decide +kernel)), by decide, by decide, by decide +kernel⟩, by decide +kernel⟩,
    ⟨⟨stands_of _ (by decide +kernel) (.inr (by decide +kernel)), by decide, by decide, by decide +kernel⟩, by decide +kernel⟩,
    ⟨⟨stands_of _ (by decide +kernel) (.inr (by decide +kernel)), by decide, by decide, by decide +kernel⟩, by decide +kernel⟩,
    ⟨⟨stands_of _ (by decide +kernel) (.inr (by decide +kernel)), by decide, by decide, by decide +kernel⟩, by decide +kernel⟩⟩

theorem test_engine_begins :
    after (fun t => ((t.token 0 1).state, t.readW (0, 0, 0) 3))
        (exec (.engineCommandBegin 0 5) (withCmds { cmd 0x33#7 0x30000#64 (produces1 ||| 9#64) with satisfied := 7#3 })) =
        some (.visible, 9#32) ∧
      after (fun t => ((t.token 0 1).state, (t.token 0 1).cause))
        (exec (.engineCommandBegin 0 5) (withCmds { cmd 0x38#7 0#64 produces1 with satisfied := 7#3, upstream := true })) =
        some (.faulted, 9#6) := by decide +kernel

/-- A PZERO at work, a CPY at work on its last byte, and a frozen CPY. -/
def zeroing : Cmd := { cmd 0x07#7 1#64 produces1 with stage := .running }
def copying : Cmd :=
  { cmd 0x21#7 0#64 (produces1 ||| 0x10#64) with stage := .running, readDone := true, chunk := [0xAB#32], ask := .booked 0, copy := vset (Vector.replicate 5 0#64) 2 1#64 }

/-- The same copy to host memory, at system scope. -/
def copyingFar : Cmd := { copying with copy := vset (vset (Vector.replicate 5 0#64) 2 1#64) 1 0x38C#64 }

/-- The same copy to the die's own device memory. -/
def copyingG : Cmd := { copying with copy := vset (vset (Vector.replicate 5 0#64) 2 1#64) 1 0x08#64 }

/-- The tile's engines hold a command, and a write of it at a wide scope is on its way. -/
def lagging (c : Cmd) : State := withFar (withCmds c) (farWrite (.command 5 0 0) .g 0x2000 true)

theorem witness_engine_work :
    Runs (withCmds zeroing) 0 zeroing ∧ Runs (withCmds copying) 0 copying ∧ (withCmds copying).mem.wf = true ∧
      copying.pos + 1 = copying.elems ∧ copying.dspace = .sp ∧ (withCmds copying).throttled 0 = false ∧
      (withCmds copying).lags 0 5 = false ∧ farPlace 0 copying.dspace 0x10 = false ∧ (lagging copying).lags 0 5 = true ∧
      (let c : Cmd := { copying with pos := 1, chunk := [] }
       c.pos = c.elems) ∧
      ((withCmds copying).copyElement 0 1 copying.dspace (copying.dstAddr 0) 1 needStore).toOption.map (·.1) = some 0x10 ∧
      copyingFar.dspace = .h ∧ farPlace 0 .h 0x10 = true ∧ 6 < copyingFar.mode 9 7 ∧
      ((withCmds copyingFar).copyElement 0 1 .h (copyingFar.dstAddr 0) 1 needStore).toOption.isSome = true ∧
      copyingG.dspace = .g ∧ farPlace 0 .g 0x10 = false ∧
      ((lagging copyingG).copyElement 0 1 .g (copyingG.dstAddr 0) 1 needStore).toOption.map (·.1) = some 0x10 ∧
      (∃ w ∈ (lagging copyingG).pkg.far, w.tile = 0 ∧ w.maker = .command 5 0 0 ∧ w.space = .g) :=
  ⟨⟨stands_of _ (by decide +kernel) (.inr (by decide +kernel)), by decide, by decide⟩,
    ⟨stands_of _ (by decide +kernel) (.inr (by decide +kernel)), by decide, by decide⟩, by decide +kernel, by decide +kernel,
    by decide +kernel⟩

theorem test_engine_work :
    after (fun t => (t.mem.read (locSp 0 0x10), (t.token 0 1).state)) (exec (.engineCommandComplete 0 5) (withCmds copying)) =
      some (0xAB#8, .visible) ∧
    after (fun t => ((t.token 0 1).state == .visible, t.pkg.far.map (·.wide))) (exec (.engineCommandComplete 0 5) (withCmds copyingFar)) =
      some (false, [true]) ∧
    after (fun t => ((t.token 0 1).state == .visible, t.mem.read 0x10, t.pkg.far.map fun w => (w.place, w.due)))
      (exec (.engineCommandComplete 0 5) (lagging copyingG)) = some (false, 0#8, [(0x2000, 9), (0x10, 9)]) := by decide +kernel

theorem witness_frozen_commands :
    let c : Cmd := { copying with stage := .frozen 3#6 0#64 }
    Stands (withCmds c) 0 c ∧ c.func ≠ 0x13#7 ∧ (withCmds c).lags 0 c.id = false ∧ (lagging c).lags 0 c.id = true ∧
      (lagging c).cmd? 0 c.id = some c :=
  ⟨stands_of _ (by decide +kernel) (.inr (by decide +kernel)), by decide, by decide +kernel⟩

theorem test_frozen_commands :
    after (fun t => ((t.token 0 1).state, (t.token 0 1).cause))
      (exec (.terminateFrozenCommand 0 5) (withCmds { copying with stage := .frozen 3#6 0#64 })) = some (.faulted, 3#6) := by
  decide +kernel

/-! ## Witnesses: the pool and the streams -/

/-- A PMODE and a PMAP of two entries whose wavefronts stand at the head of the configuration queue. -/
def moding : Cmd := { cmd 0x00#7 0x3380000000000000#64 produces1 with stage := .running }
def mapping : Cmd := { cmd 0x03#7 0#64 (produces1 ||| 4#64) with stage := .running, list := [0x8001, 0x8002] }

/-- The same PMODE over a pool of two dies that have lost the ways between them. -/
def spanning : State :=
  ((withCmds moding).modCtx 0 fun x => { x with pool := { x.pool with joined := 6 } }).modPkg fun p =>
    { p with dies := vset p.dies 0 { (vget p.dies 0 {}) with lost := List.range 14 } }

theorem witness_wavefronts :
    (Runs (withCmds moding) 0 moding ∧ (withCmds moding).runningHead 0 .config = some moding ∧
      bits moding.a 47 44 = ((withCmds moding).ctx 0).pool.joined ∧ ((withCmds moding).ctx 0).pool.armed = none) ∧
    Runs (withCmds mapping) 0 mapping ∧ (withCmds mapping).runningHead 0 .config = some mapping ∧
      (∀ x ∈ mapping.list, x / 1024 % 32 = 0) ∧ (withCmds mapping).spanLost 0 0 = false ∧
      spanning.runningHead 0 .config = some moding ∧ (spanning.ctx 0).pool.armed = none ∧
      spanning.spanLost 0 (spanning.ctx 0).pool.joined = true ∧ spanning.lags 0 5 = false :=
  ⟨⟨⟨stands_of _ (by decide +kernel) (.inr (by decide +kernel)), by decide, by decide⟩, by decide +kernel⟩,
    ⟨stands_of _ (by decide +kernel) (.inr (by decide +kernel)), by decide, by decide⟩, by decide +kernel⟩

theorem test_wavefronts :
    after (fun t => ((t.ctx 0).pool.mode, (t.token 0 1).state)) (exec (.configWavefront 0) (withCmds moding)) =
        some (0x3380000000000000#64, .visible) ∧
      after (fun t => ((t.ctx 0).pool.map.get 0#16 4, (t.ctx 0).pool.map.get 0#16 5)) (exec (.configWavefront 0) (withCmds mapping)) =
        some (0x8001#16, 0x8002#16) := by decide +kernel

/-- A PFLOW of one pass and one lane at accumulator tile 0, over a bed of one cell, with two elements in the port. -/
def flowing : Cmd := { cmd 0x05#7 0x100000001#64 produces1 with stage := .running }
def withFlow : State :=
  (withCmds flowing).modCtx 0 fun x =>
    { x with pool := { x.pool with mode := 0x3380000000000000#64, beds := [0#64], flowPort := [⟨1#32, false⟩, ⟨2#32, false⟩] } }

theorem witness_passes :
    withFlow.cmd? 0 5 = some flowing ∧ flowing.stage = .running ∧ (withFlow.tile 0).stopped = false ∧
      withFlow.runningHead 0 .flow = some flowing ∧ (withFlow.ctx 0).pool.flowPort.length = 2 ∧
      withFlow.passPoisoned 0 flowing = false ∧ withFlow.throttled 0 = false ∧ withFlow.spanLost 0 0 = false ∧
      ((withFlow.ctx 0).pool.beds.filter fun w => flowing.a.getLsbD (bedTarget w 0 / 64)) = [0#64] ∧
      (withFlow.token 0 1).owner = some 5 := by decide +kernel

/-- A stream of two elements of 32 bits with a subscriber at column 3, both fetched. -/
def stream1 : Stream :=
  { fmt := 9, counts := vset (Vector.replicate 6 1) 0 2, subs := [{ sub := 3, win := 2, rep := 1 }], gid := 1, running := true
    fetched := 2, buffer := [⟨6#32, false⟩, ⟨8#32, false⟩] }
def withStream : State := base.modCtx 0 fun x => { x with streams := vset x.streams 2 stream1 }

theorem witness_streams :
    withStream.stream 0 2 = stream1 ∧ stream1.running = true ∧ stream1.frozen = none ∧
      ({ sub := 3, win := 2, rep := 1 } : Sub).place stream1.total = some (0, 2, 0) ∧ stream1.total ≤ stream1.fetched ∧
      (withStream.teAt (0, 3, 0)).streamTokens < 4 ∧ (withStream.teAt (0, 3, 0)).usedSlots 4 < 8 ∧
      (stream1.elem? 0).isSome = true := by decide +kernel

theorem test_streams :
    after (fun t => ((t.teAt (0, 3, 0)).queue 4).map fun x => (x.data, x.fmt, x.utag)) (exec (.streamElementDelivery 0 2) withStream) =
      some [(6#32, 7#3, 2#2)] := by decide +kernel

/-! ## Witnesses: the fabric -/

/-- The bytes of an image of one TE with one word of W: a header, a record header, no slot and one word. -/
def imageBytes : List Nat :=
  [1, 0, 0, 0, 1, 0, 0, 0, 0, 0, 1, 1, 112, 0, 0, 0] ++ List.replicate 48 0 ++
    ([0, 0, 0, 0, 1, 0, 0, 0] ++ List.replicate 24 0) ++ ([9, 0, 0, 0] ++ List.replicate 12 0)

def loading : Cmd := { cmd 0x30#7 0#64 produces1 with stage := .running, list := imageBytes }

theorem witness_takeover :
    Stands (withCmds loading) 0 loading ∧ loading.upstream = false ∧
      (parseImage (loading.list.map (BitVec.ofNat 8)) loading.colOff loading.rowOff).toOption.map (·.2.length) = some 1 ∧
      ((withCmds loading).rect? loading.gid 0).isSome = true ∧
      (∀ m, (withCmds loading).imageOf (0, 0, 0) = some m → m.committing = false) ∧
      (teBase committing1).imageOf (0, 0, 0) = some committing1 ∧ committing1.committing = true :=
  ⟨stands_of _ (by decide +kernel) (.inr (by decide +kernel)), by decide +kernel⟩

theorem test_takeover :
    after (fun t => (t.readW (0, 0, 0) 0, (t.token 0 1).state, (t.teAt (0, 0, 0)).started)) (exec (.floadTakeover 0 5) (withCmds loading)) =
      some (9#32, .visible, false) := by decide +kernel

/-- A request of TE (2, 0) for the reciprocal of 2. -/
def withRequest : State :=
  idle1.modCtx 0 fun x => { x with colReqs := vset x.colReqs 2 [⟨0, 2#3, 0x40000000#32, 1#2, false, 7⟩] }

theorem witness_column_units :
    nextRow (vget (withRequest.ctx 0).colReqs 2 []) (vget (withRequest.ctx 0).lastRow 2 9) = some 0 ∧
      ((vget (withRequest.ctx 0).colReqs 2 []).find? fun x => x.row == 0).isSome = true := by decide +kernel

theorem test_column_units :
    after (fun t => ((t.teAt (0, 2, 0)).queue 5).map fun x => (x.data, x.utag)) (exec (.columnUnitReply 0 2) withRequest) =
      some [(0x3F000000#32, 1#2)] := by decide +kernel

/-- A control token of bit 3 for thread 0 of a tile, and of a group. -/
def control1 (tile gid : Nat) : CtlToken :=
  { col := 1, row := 0, bit := 3#4, flags := 2#8, tile := tile, slot := 0, gid := gid }
def withControl (tile gid : Nat) : State := idle1.modCtx 0 fun x => { x with collector := [control1 tile gid] }

theorem witness_control_tokens :
    (let due := ((withControl 0 1).ctx 0).collector.filter fun y => decide (y.due ≤ (withControl 0 1).now)
     nextServed due ((withControl 0 1).ctx 0).lastServed = some 10 ∧
      (due.find? fun y => teKey y.col y.row == 10) = some (control1 0 1)) ∧
      ((withControl 0 1).tile 0).stopped = false ∧ ((withControl 0 1).thread 0 0).status = .running ∧
      ((withControl 0 1).thread 0 0).gid = 1 ∧ ((withControl 0 2).thread 0 0).gid ≠ 2 ∧ (control1 5 1).tile ≠ 0 := by
  decide +kernel

theorem test_control_tokens :
    after (fun t => ((t.thread 0 0).evt, (t.thread 0 0).flags)) (exec (.controlTokenDelivery 0) (withControl 0 1)) = some (8#16, 2#8) ∧
      after (fun t => ((t.thread 0 0).evt, (t.thread 0 0).flags)) (exec (.controlTokenDelivery 0) (withControl 0 2)) = some (0#16, 0#8) ∧
      after (fun t => (t.tile 0).presented.map (·.payload)) (exec (.controlTokenDelivery 0) (withControl 5 1)) =
        some [.token { control1 5 1 with source := 0 }] := by
  decide +kernel

/-- A link inside the fabric, one under audit, and an input that has dropped a token of an open instance. -/
theorem witness_links :
    (idle1.finalOf maxHops (0, 0, 0) 1 0).isSome = true ∧ (∀ j, j < 4 → (idle1.teAt (0, 0, 0)).route j ≠ 1 + 1) ∧
      vget ((idle1.modTeAt (0, 0, 0) fun e => { e with auditing := vset e.auditing 1 (some 0) }).teAt (0, 0, 0)).auditing 1 none ≠
        none ∧
      (let s := open1.modTeAt (0, 0, 0) fun e => { e with audited := vset e.audited 1 true }
       vget (s.teAt (0, 0, 0)).audited 1 false = true ∧ s.imageOf (0, 0, 0) = some { image1 with state := .opened } ∧
        ({ image1 with state := .opened } : Image).discards = true) ∧
      (let m := { image1 with discarded := some 0 }
       let s := (teBase m).modTeAt (0, 0, 0) fun e => { e with audited := vset e.audited 1 true }
       vget (s.teAt (0, 0, 0)).audited 1 false = true ∧ s.imageOf (0, 0, 0) = some m ∧ m.discards = false ∧
        m.discarded = some s.now) ∧
      (let s := idle1.modTeAt (0, 0, 0) fun e => { e with audited := vset e.audited 1 true }
       vget (s.teAt (0, 0, 0)).audited 1 false = true ∧ s.imageOf (0, 0, 0) = some image1 ∧ image1.discards = false ∧
        image1.discarded ≠ some s.now ∧ image1.endedAt ≠ some s.now ∧ image1.committing = false) ∧
      (let s := (teBase committing1).modTeAt (0, 0, 0) fun e => { e with audited := vset e.audited 1 true }
       vget (s.teAt (0, 0, 0)).audited 1 false = true ∧ s.imageOf (0, 0, 0) = some committing1 ∧ committing1.committing = true ∧
        committing1.discarded ≠ some s.now ∧ committing1.endedAt ≠ some s.now) ∧
      let m := { image1 with endedAt := some 0 }
      let s := (teBase m).modTeAt (0, 0, 0) fun e => { e with audited := vset e.audited 1 true }
      vget (s.teAt (0, 0, 0)).audited 1 false = true ∧ s.imageOf (0, 0, 0) = some m ∧ m.endedAt = some s.now := by
  decide +kernel

/-- R191: each return that an audit finds lost is an event of the link. -/
theorem test_audit_counts :
    after (fun t => (t.pkg.corrected.map (·.cycles.length), vget (t.teAt (0, 0, 0)).credit 1 0))
      (exec (.auditReport ⟨0, 0, 0, .e⟩) (idle1.modTeAt (0, 0, 0) fun e =>
        { e with credit := vset e.credit 1 (vget e.credit 1 0 - 2), auditing := vset e.auditing 1 (some 0) })) =
      some ([2], idle1.trueFree (0, 0, 0) 1) := by decide +kernel

/-! ## Witnesses: chains -/

/-- Access 1 of chain 0, a store of 4 bytes to SP 0x80, its own chain's last. -/
def req1 : ChainReq :=
  { firing := 0, beat := 0, beats := 1, chain := 0#4, lap := 0#8, own := 1#8, pred := 0#8, succ := 0#8, op := .stcSp, size := 2
    amo := 0#3, returning := false, addr := 0x80#32, data := 9#32, inRegion := false, slot := 0 }

/-- The access stands at out.m, and its home has the context of its chain. -/
def offering (st : DomState) (ord : Bool) : State :=
  (teBase { image1 with state := st, ordered := ord }).modCtx 0 (fun x => { x with home := { x.home with ctxs := [{ img := 7, chain := 0 }] } })
    |>.modTeAt (0, 0, 0) fun e => { e with outM := [req1], reservedM := 1 }

theorem witness_homes_accept :
    (let s := offering .idle false
     Offers s (0, 0, 0) image1 req1 { img := 7, chain := 0 } ∧ (s.homeOf image1).withholds image1 { img := 7, chain := 0 } req1 = false ∧
      (s.chainPlace image1 (0, 0, 0) req1).toOption.map (·.1) = some 0x80 ∧ s.wayLost 0 .sp 0x80 = false) ∧
    (let m := { image1 with state := .opened, ordered := true }
     let s := offering .opened true
     Offers s (0, 0, 0) m { req1 with inRegion := true } { img := 7, chain := 0 } ∧
      (s.homeOf m).withholds m { img := 7, chain := 0 } { req1 with inRegion := true } = false ∧ (s.homeOf m).writesOf 7 < 192) ∧
    (let m := { image1 with home := 1 }
     let r := { req1 with net := .arrived }
     let s := ((teBase m).modTeAt (0, 0, 0) fun e => { e with outM := [r], reservedM := 1 }).modHome 1 0 fun h =>
       { h with ctxs := [{ img := 7, chain := 0 }] }
     Offers s (0, 0, 0) m r { img := 7, chain := 0 } ∧ (s.homeOf m).withholds m { img := 7, chain := 0 } r = false) ∧
    let m := { image1 with state := .closed }
    let s := offering .closed false
    Offers s (0, 0, 0) m req1 { img := 7, chain := 0 } ∧ (s.homeOf m).withholds m { img := 7, chain := 0 } req1 = true :=
  ⟨⟨⟨by decide, by decide, by decide, by decide +kernel, ⟨req1, [], by decide +kernel⟩, by decide +kernel⟩, by decide +kernel⟩,
    ⟨⟨by decide, by decide, by decide, by decide +kernel, ⟨req1, [], by decide +kernel⟩, by decide +kernel⟩, by decide +kernel⟩,
    ⟨⟨by decide, by decide, by decide, by decide +kernel, ⟨{ req1 with net := .arrived }, [], by decide +kernel⟩,
      by decide +kernel⟩, by decide +kernel⟩,
    ⟨⟨by decide, by decide, by decide, by decide +kernel, ⟨req1, [], by decide +kernel⟩, by decide +kernel⟩, by decide +kernel⟩⟩

theorem test_homes_accept :
    after (fun t => (((t.homeOf image1).entries.map (·.loc)), ((t.teAt (0, 0, 0)).queue 4).map (·.utag), (t.teAt (0, 0, 0)).outM))
      (exec (.chainAccessAccept 0 0 0) (offering .idle false)) = some ([0x80], [1#2], []) := by decide +kernel

/-- An entry of the tile's home. -/
def entry1 (r : ChainReq) : Entry := { id := 3, img := 7, req := r, te := (0, 0, 0), loc := 0x80 }
def withEntry (m : Image) (x : Entry) : State :=
  (teBase m).modCtx 0 fun c => { c with home := { c.home with ctxs := [{ img := 7, chain := 0 }], entries := [x] } }

theorem witness_chain_releases :
    (let s := withEntry image1 (entry1 req1)
     (s.homeAt 0 0).next { img := 7, chain := 0 } = some (entry1 req1) ∧ s.liveImage? 7 = some image1 ∧ s.mem.wf = true ∧ (s.tile 0).stopped = false ∧
      s.placePoisoned 0 1 .sp 0x80 = false ∧ s.wayLost 0 .sp 0x80 = false ∧ (s.chainTurn image1 (entry1 req1)).1 = true) ∧
    (let x := { entry1 req1 with booked := some 4 }
     let s := withEntry image1 x
     (s.homeAt 0 0).next { img := 7, chain := 0 } = some x ∧ (s.chainTurn image1 x).1 = false) ∧
    (let r := { req1 with inRegion := true, succ := 2#8 }
     let s := withEntry { image1 with state := .opened } (entry1 r)
     (s.homeAt 0 0).next { img := 7, chain := 0 } = some (entry1 r)) := by decide +kernel

theorem test_chain_releases :
    after (fun t => (t.mem.read (locSp 0 0x80), (t.homeAt 0 0).entries.length, (t.homeAt 0 0).ctxs.map (·.lap)))
        (exec (.chainRelease 0 0 0) (withEntry image1 (entry1 req1))) = some (9#8, 0, [1#8]) ∧
      after (fun t => (t.mem.read (locSp 0 0x80), (t.homeAt 0 0).entries.map (·.state), (t.homeAt 0 0).ctxs.map (·.lap)))
        (exec (.chainRelease 0 0 0) (withEntry { image1 with state := .opened } (entry1 { req1 with inRegion := true, succ := 2#8 }))) =
        some (0#8, [.held 0], [0#8]) := by decide +kernel

theorem witness_chain_replies :
    let x := { entry1 { req1 with op := .ldcSp } with value := some 4#32 }
    let s := withEntry image1 x
    ((s.homeAt 0 0).entries.find? fun x => x.id == 3 && isLdc x.req.op && !x.replied && decide (x.due ≤ s.now)) = some x ∧ s.liveImage? 7 = some image1 := by
  decide +kernel

theorem witness_chain_overflow :
    let m := { image1 with state := .opened, blockedSince := some 0 }
    let s : State := { teBase m with now := 512 }
    s.liveImage? 7 = some m ∧ m.discards = true ∧ 0 + 512 ≤ s.now := by decide +kernel

/-- A commit that has begun, with an access of its image on its way to another die, and without one. -/
def committing : State := teBase committing1

/-- An image whose home holds one store of its instance. -/
def holding (x : Entry) : State := withEntry { image1 with state := .closed } x

/-- A held store of the instance to SP, one whose bank is booked, and one to another die. -/
def heldSp : Entry := { entry1 { req1 with inRegion := true } with state := .held 0 }
def heldBooked : Entry := { heldSp with booked := some 4 }
def heldFar : Entry := { heldSp with req := { heldSp.req with op := .stcG }, loc := 0x2000 }

theorem witness_commits :
    let m := { image1 with state := .closed }
    ((holding heldSp).liveImage? 7 = some m ∧ (holding heldSp).commitReady m = true ∧ (holding heldSp).heldChains m = [[heldSp]] ∧
      (holding heldSp).farChain 7 = false ∧ ((holding heldSp).chainTurn m heldSp).1 = true ∧ (holding heldSp).mem.wf = true ∧
      farPlace 0 .sp 0x80 = false ∧ (holding heldSp).placePoisoned 0 1 .sp 0x80 = false ∧
      (holding heldSp).wayLost 0 .sp 0x80 = false) ∧
    ((holding heldBooked).commitReady m = true ∧ (holding heldBooked).heldChains m = [[heldBooked]] ∧
      ((holding heldBooked).chainTurn m heldBooked).1 = false) ∧
    ((holding heldFar).commitReady m = true ∧ (holding heldFar).heldChains m = [[heldFar]] ∧
      ((holding heldFar).chainTurn m heldFar).1 = true ∧ farPlace 0 .g 0x2000 = true ∧
      (holding heldFar).placePoisoned 0 1 .g 0x2000 = false ∧ (holding heldFar).wayLost 0 .g 0x2000 = false) ∧
    (committing.liveImage? 7 = some committing1 ∧ committing.commitReady committing1 = true ∧ committing.farChain 7 = false ∧
      committing.heldChains committing1 = []) ∧
    (let s := withFar committing (farWrite (.chain 7 0 0 0) .g 0x2000 false)
     s.liveImage? 7 = some committing1 ∧ s.commitReady committing1 = true ∧ s.farChain 7 = true ∧ s.heldChains committing1 = []) := by
  decide +kernel

/-- R208, R229, R262: a commit performs a held store once its bank is its own, and is not complete while one is on its way to
another die. -/
theorem test_commits :
    after (fun t => (t.mem.read (locSp 0 0x80), (t.image? 7).map (·.state))) (exec (.instanceCommit 7) (holding heldSp)) =
        some (9#8, some .idle) ∧
      after (fun t => (t.mem.read (locSp 0 0x80), (t.image? 7).map fun m => (m.state, m.committing)))
        (exec (.instanceCommit 7) (holding heldBooked)) = some (0#8, some (.closed, true)) ∧
      after (fun t => (t.farChain 7, (t.image? 7).map fun m => (m.state, m.committing))) (exec (.instanceCommit 7) (holding heldFar)) =
        some (true, some (.closed, true)) := by decide +kernel

/-! ## Witnesses: the network, the links and the host -/

/-- Egress 5 of quad 0 with a load's request at its head, at the end of its path. -/
def packet1 : Packet := { vc := 1, owner := 1, path := [13], payload := .load 0 0 4 }
def packet2 : Packet := { packet1 with path := [13, 21] }
def withPacket (packet1 : Packet) (busy : Nat) : State :=
  let w : Switch := {}
  withLoad.setSwitch 1 0
    { w with egress := vset w.egress 5 { busy := busy }, queues := vset w.queues 2 (vset (Vector.replicate 7 []) 1 [packet1]) }

theorem witness_egress :
    switchOk 1 0 5 = true ∧ (vget ((withPacket packet1 2).switch 1 0).egress 5 {}).busy = 2 ∧
      (vget ((withPacket packet1 0).switch 1 0).egress 5 {}).choose ((withPacket packet1 0).switch 1 0)
        (withPacket packet1 0).now ((withPacket packet1 0).heads 1 0 5) = some (⟨2, 1, packet1⟩, false) ∧ packet1.path.tail = [] ∧
      (withPacket packet1 0).stopsPacket 1 0 5 packet1 = false ∧
      ((withPacket packet1 0).switch 1 0).settle 0 = (withPacket packet1 0).switch 1 0 ∧
      (vget ((withPacket packet1 0).switch 1 0).egress 4 {}).choose ((withPacket packet1 0).switch 1 0)
        (withPacket packet1 0).now ((withPacket packet1 0).heads 1 0 4) = none ∧
      (vget ((withPacket packet2 0).switch 1 0).egress 5 {}).choose ((withPacket packet2 0).switch 1 0)
        (withPacket packet2 0).now ((withPacket packet2 0).heads 1 0 5) = some (⟨2, 1, packet2⟩, false) ∧ packet2.path.tail ≠ [] ∧
      (((withPacket packet1 0).thread 0 0).outstanding.find? fun y => y.id == 4).isSome = true := by decide +kernel

/-- A packet of another owner than its block's, at the block's way up. -/
def foreign : State :=
  let s := withPacket packet1 0
  (s.setSwitch 2 0 { (s.switch 1 0) with egress := vset (s.switch 1 0).egress 5 {} }).modPkg fun p =>
    { p with blockOwner := p.blockOwner.set 0 7 }

theorem witness_egress_payloads :
    switchOk 2 0 5 = true ∧ foreign.stopsPacket 2 0 5 packet1 = true ∧
      (let q : Packet := { vc := 2, owner := 1, tile := 0, path := [8], payload := .chainReply 7 0 0 (tok 3#32) }
       let s := withPacket q 0
       ∃ x, ((vget (s.switch 1 0).egress 0 {}).choose (s.switch 1 0) s.now (s.heads 1 0 0)) = some (x, false) ∧ x.pkt = q ∧
        s.stopsPacket 1 0 0 q = false) := by
  refine ⟨by decide +kernel, by decide +kernel, ?_⟩
  exact ⟨⟨2, 1, _⟩, by decide +kernel, rfl, by decide +kernel⟩

theorem test_egress_grants :
    after (fun t => ((t.switch 1 0).queue 2 1, (vget (t.switch 1 0).egress 5 {}).busy)) (exec (.egressArbitration 1 0 5) (withPacket packet1 0)) =
      some ([], 0) ∧
    after (fun t => ((t.switch 2 0).queue 0 1).map (·.path)) (exec (.egressArbitration 1 0 5) (withPacket packet2 0)) =
      some [[21]] := by decide +kernel

/-- R269: AGE_MAX at least 4 and each weight at least 1, in force from the next cycle on. -/
theorem test_switch_settings :
    after (fun t => ((vget (t.switch 1 0).egress 5 {}).settings, ((vget (t.switch 1 0).egress 5 {}).settle 1).settings))
      (exec (.switchSettingsWrite 1 0 5 0#64) base) = some (0x11111120#64, 0x11111104#64) := by decide +kernel

/-- A load of another die's memory, a store to it and a copy from it, all long overdue. -/
def overdueLoad : State :=
  { with1 { thread1 with outstanding := [{ id := 4, dst := 7#5, src := .load, space := .g, place := 0x1000 * 15, inNet := true }] } with now := 2 ^ 21 }
def overdueStore : State :=
  { with1 { thread1 with inflight := [{ region := 0, sid := 0, buf := ⟨.g, 0x1000 * 15, 0#64, .store 8 7#64⟩ }] } with now := 2 ^ 21 }
def readingG : Cmd :=
  { cmd 0x21#7 0xF000#64 (produces1 ||| 0x10#64) with stage := .running, copy := vset (vset (Vector.replicate 5 0#64) 2 1#64) 1 2#64 }

theorem witness_lost_requests :
    (∃ o, ((overdueLoad.thread 0 0).outstanding.find? fun x => x.id == 4 && x.inNet) = some o ∧
      overdueLoad.replyOverdue 0 o.space o.place (o.due - latencyOf 0 o.space o.place) false = true ∧
      (overdueLoad.thread 0 0).reentry.toNat + 1 < (overdueLoad.thread 0 0).reentrymax.toNat) ∧
    (∃ f fs, (overdueStore.thread 0 0).streamOf (spaceOf 2#2) = f :: fs ∧
      f.passed = false ∧
      overdueStore.replyOverdue 0 (spaceOf 2#2) f.buf.place f.since false = true) ∧
    let s : State := { withCmds readingG with now := 2 ^ 21 }
    s.cmd? 0 5 = some readingG ∧ readingG.stage = .running ∧ (.tile 0, 0, .g, 0xF000#64) ∈ s.nextRequests 0 readingG ∧
      s.placeAt (.tile 0) 0 1 .g 0xF000#64 = some 0xF000 ∧ s.replyOverdue 0 .g 0xF000 readingG.asked false = true ∧
      (s.token 0 1).owner = some 5 ∧ s.pkg.far = [] :=
  ⟨⟨_, rfl, by decide +kernel⟩, ⟨_, _, rfl, by decide +kernel⟩, by decide +kernel⟩

/-- Requests of package 9 with owner 2 for the first gigabyte, granted, refused and of a poisoned granule. -/
def granted (bad : List Nat) : State :=
  { base with pkg := { base.pkg with remoteGrants := [(9, 2, 0)] }, poison := bad }

theorem witness_remote_requests :
    base.admits ⟨9, 2, 64, 8, .store, 7#64, 0#64⟩ = false ∧ (granted []).admits ⟨9, 2, 64, 8, .store, 7#64, 0#64⟩ = true ∧
      (granted []).poisonedAt 64 = false ∧ (granted [64]).admits ⟨9, 2, 64, 8, .load, 0#64, 0#64⟩ = true ∧
      (granted [64]).poisonedAt (locPa 64) = true ∧
      (∀ n, n = 0 ∨ n = 1 → base.ioWayLost (dieOfPa (locPa 64)) n = false ∧ (granted [64]).ioWayLost (dieOfPa (locPa 64)) n = false) := by
  refine ⟨by decide +kernel, by decide +kernel, by decide +kernel, by decide +kernel, by decide +kernel, ?_⟩
  rintro _ (rfl | rfl) <;> decide +kernel

theorem test_remote_requests :
    after (fun t => (t.mem.read 64, t.pkg.remoteReplies.map (·.2.1)))
        (exec (.remoteRequestArrival ⟨9, 2, 64, 8, .store, 7#64, 0#64⟩) (granted [])) = some (7#8, [0]) ∧
      after (fun t => (t.mem.read 64, t.pkg.remoteReplies.map (·.2.2.length)))
        (exec (.remoteRequestArrival ⟨9, 2, 64, 8, .amo 0#3 true, 7#64, 0#64⟩) (granted [])) = some (7#8, [8]) := by decide +kernel

/-- The package once it is ready. -/
def ready1 : State := { base with pkg := { base.pkg with bootState := 7#8, hdm := Sparse.empty.set 0 (0, 2 ^ 41) } }

theorem witness_host_requests :
    ready1.mem.wf = true ∧ ready1.hostMay 0x100 2 = true ∧ ready1.hostMay (2 ^ 41) 2 = false ∧ base.hostMay 0x100 2 = false := by
  decide +kernel

theorem test_host_requests :
    after (fun t => (t.mem.readBytes 0x100 2, t.pkg.hostReplies)) (exec (.hostCxlMemWrite 0x100 [1#8, 2#8]) ready1) =
      some ([1#8, 2#8], [(true, [])]) := by decide +kernel

/-! ## Witnesses: the supervisor -/

theorem witness_scrubs :
    (granted [64]).mem.wf = true ∧ granuleOf 64 = 64 ∧ (List.replicate 32 1#8).length = 32 ∧ granuleOf (2 ^ 48 + 64) = 2 ^ 48 + 64 := by
  decide +kernel

theorem test_scrubs :
    after (fun t => (t.poison, t.mem.read 95)) (exec (.granuleScrub 64 (List.replicate 32 1#8)) (granted [64])) = some ([], 1#8) := by
  decide +kernel

theorem test_invalidations :
    after (fun t => (t.tile 0).tlb.map (·.host)) (exec (.translationInvalidation (.range 0 false 0 1)) base) = some [true] := by
  decide +kernel

theorem witness_management_writes :
    base.part? 0 = some part0 ∧ 0x1000 % 4096 = 0 ∧ ready1.pkg.bootState = 7#8 ∧ ready1.parts.length < 128 ∧
      ready1.part? 4 = none ∧ ready1.blockFree 5 = true := by decide +kernel

theorem test_management_writes :
    after (fun t => (t.part? 0).map (·.rootG)) (exec (.managementRegisterWrite (.partRoot 0 false 0x1000)) base) = some (some 0x1000) ∧
      after (fun t => (t.part? 4).map (·.blocks)) (exec (.managementRegisterWrite (.createPartition 4 2 [5])) ready1) =
        some (some [5]) := by decide +kernel

theorem witness_attestation :
    5 ≤ ready1.pkg.bootState.toNat ∧ ready1.pkg.bootState.toNat ≤ 7 ∧ State.reset.pkg.bootState.toNat < 5 := by decide +kernel

/-- R416: the hash of the standard's example message "abc". -/
theorem test_hash :
    (sha384 [0x61#8, 0x62#8, 0x63#8]).take 8 = [0xCB#8, 0x00#8, 0x75#8, 0x3F#8, 0x45#8, 0xA3#8, 0x5E#8, 0x8B#8] := by decide +kernel

/-- R419: TEMP1 reads the sample, and nothing is cleared. -/
theorem test_telemetry :
    after (fun t => t.pkg.supervisorValue) (exec (.counterRead ⟨unitTelemetry, 17, 0⟩) base) = some 0xFFFFFFFF#64 := by decide +kernel

theorem test_power_samples :
    after (fun t => (vget t.pkg.dies 1 {}).duty) (exec (.powerSample ⟨1, 10#16, 80#16, 106#8, 9⟩) base) = some 4 ∧
      after (fun t => (vget t.pkg.dies 1 {}).duty) (exec (.powerSample ⟨1, 10#16, 80#16, 105#8, 9⟩) base) = some 9 := by
  decide +kernel

theorem witness_uncorrectable_errors :
    (base.thread 0 0).wroteR.getLsbD 7 = false ∧ base.imageOf (0, 3, 4) = none ∧
      idle1.imageOf (0, 0, 0) = some image1 ∧ image1.metBy idle1.now = false := by decide +kernel

theorem test_uncorrectable_errors :
    after (fun t => t.poisonedAt 64) (exec (.uncorrectableError (.granule 70)) base) = some true := by decide +kernel

/-! ## Witnesses: reset and boot -/

/-- A die without a partition; one with a partition in a stop wave; and one with a partition that runs. -/
theorem witness_die_reset :
    (∀ p ∈ base.parts, ¬∃ b ∈ p.blocks, b / 16 = 3) ∧
      (let p := { part0 with stopping := true }
       p ∈ [p] ∧ (∃ b ∈ p.blocks, b / 16 = 0) ∧ p.stopping = true ∧ p.stopped = false) ∧
      (part0 ∈ base.parts ∧ (∃ b ∈ part0.blocks, b / 16 = 0) ∧ ∀ p ∈ base.parts, p.stopping = false) := by decide +kernel

/-- A partition whose only group has ended. -/
def ended1 : State := { base with groups := [{ group1 with ended := true }] }

theorem witness_partition_reset :
    (ended1.part? 0 = some part0 ∧ part0.stopping = false ∧ (∀ g ∈ ended1.groups, g.part = 0 → g.ended = true) ∧
      ∀ tile ∈ part0.tiles, (ended1.ctx tile).pool.armed = none) ∧
    (base.part? 0 = some part0 ∧ part0.stopping = false) ∧ base.part? 4 = none ∧
    (let s : State := { base with parts := [{ part0 with stopping := true }] }
     s.part? 0 = some { part0 with stopping := true }) := by decide +kernel

/-- R346, R413: the reset of a partition whose group runs ends the group and leaves its tokens FREE. -/
theorem test_partition_reset :
    after (fun t => ((t.group? 1).map (·.ended), (t.token 0 5).state)) (exec (.partitionReset 0) (withToken 5 .visible)) =
      some (some true, .free) := by decide +kernel

/-- Every boot state that a clause starts from. -/
def booted (n : BitVec 8) : State := { State.reset with pkg := { State.reset.pkg with bootState := n } }

theorem witness_boot :
    State.reset.pkg.bootState = 0#8 ∧ State.reset.firmwareOk [] = false ∧ (booted 1#8).pkg.bootState = 1#8 ∧
      (booted 2#8).pkg.bootState = 2#8 ∧ (booted 5#8).pkg.bootState = 5#8 ∧ (booted 2#8).anyPairLost = false ∧
      State.reset.pkg.bootState.toNat ≠ bootPlace .ready ∧ (booted 3#8).pkg.bootState = 3#8 ∧ (booted 4#8).pkg.bootState = 4#8 ∧ (booted 6#8).pkg.bootState = 6#8 := by decide +kernel

theorem test_boot :
    after (fun t => (t.pkg.bootState, t.pkg.bootError)) (exec (.bootStep (.firmware [] [])) State.reset) = some (0xFF#8, 1#8) ∧
      after (fun t => (t.pkg.bootState, t.pkg.bootError)) (exec (.bootStep (.ucie [(0, 0), (0, 1)])) (booted 2#8)) =
        some (0xFF#8, 2#8) ∧
      after (fun t => (t.pkg.bootState, t.pkg.il)) (exec (.bootStep (.memory true 60)) (booted 3#8)) = some (4#8, 60) := by
  decide +kernel

/-! ## Witnesses: launches, groups and pre-emption -/

/-- The tables of a partition whose first 2 MiB of G are the first of device memory, with a launch window at 0x10000
for the graph at 0x10100, whose one node is a barrier, and a code image of one word of text at 0x20000. -/
def tables : Memory :=
  ((((((Memory.empty.writeBytes 0x1000 (leBytes 8 0x2001)).writeBytes 0x2000 (leBytes 8 0x3001)).writeBytes 0x3000
    (leBytes 8 0x0000800000000063)).writeBytes 0x10000 (leBytes 8 0x10100 ++ leBytes 2 1)).writeBytes 0x10100
      (leBytes 2 2)).writeBytes 0x10128 (List.replicate 8 0xFF#8)).writeBytes 0x20000
        (leBytes 4 0x10001 ++ leBytes 4 4 ++ leBytes 4 64)

def part1 : Partition := { part0 with window := 0x10000#64, rootG := 0x1000 }

def node1 (kind : Nat) : Node :=
  { kind := kind, preds := [], soft := 0, cfg := 0#8, groups := 1, code := 0x20000#64, fimg := 0, members := 1#16, entry := [0]
    tokmask := 1#64, set := 0#64, passes := 0, value := 0#64 }

def graph1 (n : Node) : Graph :=
  { id := 0, part := 0, window := 0x10000#64, graphVa := 0x10100#64, seq := 3#32, flags := 0#16, vector := 0
    pwbase := Vector.replicate 4 0#64, pwlim := Vector.replicate 4 0#32, nodes := [n, node1 2] }

/-- The package with the partition, its memory, and a graph of two nodes. -/
def launched (gs : List Graph) (p : Partition) : State :=
  { ready1 with mem := tables, parts := [p], seqs := Sparse.empty.set 0 { graphs := gs } }

/-- The partition pre-empted at a node boundary. -/
def atBoundary (s : State) : State := s.modSeqr 0 fun q => { q with boundary := [0] }

theorem witness_launches :
    (let s := launched [] part1
     (s.parts.find? fun q => q.blocks.foldl Nat.min (q.blocks.headD 0) == 4 * 0 + 0 && !q.blocks.isEmpty) = some part1 ∧
      s.pkg.bootState = 7#8 ∧ s.mem.wf = true ∧ (s.seqRead part1 0x10000#64 64).toOption.isSome = true ∧
      (s.seqReach part1 0x10040#64 16 needStore).toOption = some 0x10040 ∧
      (s.seqReach part1 0x10048#64 7 needStore).toOption = some 0x10048 ∧
      (s.seqReach part1 0x1004F#64 1 needStore).toOption = some 0x1004F ∧
      (s.seqReach part1 0x10134#64 1 needStore).toOption = some 0x10134 ∧ s.windowBusy part1 0x10000#64 = false ∧
      (s.graphOf part1 { part := 0, window := 0x10000#64, seq := 3#32 } (leBytes 8 0x10100 ++ leBytes 2 1)).toOption.isSome = true ∧
      (s.seqr 0).room 1 = true) ∧
    (launched [graph1 (node1 2)] part1).windowBusy part1 0x10000#64 = true ∧
    (atBoundary (launched [] part1)).windowBusy part1 0x10000#64 = false ∧
    ((atBoundary (launched [] part1)).seqr part1.plot).boundary.contains part1.id = true ∧
    ((launched [] part1).seqr part1.plot).boundary.contains part1.id = false ∧ part1.stopping = false := by
  decide +kernel

theorem test_launches :
    after (fun t => ((t.seqr 0).graphs.map (·.nodes.length), t.mem.readLe 0x10048 4, t.mem.read 0x1004E))
        (exec (.launchRegisterWrite 0 0 3#64) (launched [] part1)) = some ([1], 3, 1#8) ∧
      after (fun t => t.mem.read 0x1004F) (exec (.launchRegisterWrite 0 0 3#64) (launched [graph1 (node1 2)] part1)) = some 1#8 := by
  decide +kernel

theorem witness_nodes :
    (let n := node1 0
     let s := launched [graph1 n] part1
     (graph1 n).ready n = true ∧ (s.seqr 0).graph? 0 = some (graph1 n) ∧ s.part? 0 = some part1 ∧ part1.stopping = false ∧
      (s.seqr 0).boundary.contains 0 = false ∧ ((atBoundary s).seqr 0).boundary.contains 0 = true ∧
      ((atBoundary s).seqr 0).graph? 0 = some (graph1 n) ∧ s.pkg.savedSeqs = []) ∧
    (let n := node1 2
     (graph1 n).ready n = true) ∧
    let n := { node1 2 with state := 1 }
    n.done (graph1 n).aborted.isSome = true ∧ (graph1 n).nodes[1]? = some (node1 2) ∧ (node1 2).state < 2 := by decide +kernel

theorem test_nodes :
    after (fun t => (t.node? 0 0 0).map fun n => (n.state, n.ready)) (exec (.nodeReady 0 0 0) (launched [graph1 (node1 0)] part1)) =
        some (some (1, true)) ∧
      after (fun t => (t.node? 0 0 0).map (·.state)) (exec (.nodeComplete 0 0 0) (launched [graph1 { node1 2 with state := 1 }] part1)) =
        some (some 2) := by decide +kernel

/-- The kernel node is ready and no group stands. -/
def placing : State := { launched [graph1 { node1 0 with state := 1, ready := true }] part1 with groups := [] }

theorem witness_placements :
    (∃ i n, firstReady (placing.candidates 0) = some (graph1 { node1 0 with state := 1, ready := true }, i, n) ∧
      n = { node1 0 with state := 1, ready := true }) ∧
    (placing.codeImage part1 0x20000#64).toOption = some (some ⟨4, 64, [0]⟩) ∧
    (placing.imageSize part1 (node1 0) ⟨4, 64, [0]⟩).toOption = some (0, 0) ∧
    (firstFit (fun x => placing.fits (placing.barred placing.placed) placing.placed placing.swappedOut (graph1 { node1 0 with state := 1, ready := true }) 0
        { node1 0 with state := 1, ready := true } ⟨4, 64, [0]⟩ (0, 0) x)
      (cyclicFrom (vget (placing.seqr 0).ptr 0 0) ((part1.units 0).filter fun x => (unitBlocks 0 x).all placing.awake))).isSome = true :=
  ⟨⟨0, { node1 0 with state := 1, ready := true }, by decide +kernel, rfl⟩, by decide +kernel⟩

theorem test_placements :
    after (fun t => t.groups.map fun h => (h.members, h.slots, h.started)) (exec (.groupPlacement 0) placing) =
      some [([0], [(0, 0)], false)] := by decide +kernel

/-- A placed group that has not started. -/
def starting : State :=
  { launched [graph1 { node1 0 with state := 1, ready := true, placed := 1 }] part1 with
    groups := [{ group1 with started := false, codeVa := 0x20000#64 }] }

theorem witness_group_starts :
    let g := { group1 with started := false, codeVa := 0x20000#64 }
    starting.group? 1 = some g ∧ starting.partOf 1 = some part1 ∧ (∀ t ∈ g.members, starting.awake (t / 16) = true) ∧
      g.terminated = false ∧ ((starting.seqr 0).graph? 0).isSome = true ∧ (starting.codeImage part1 g.codeVa).toOption = some (some ⟨4, 64, [0]⟩) ∧
      (starting.seqRead part1 (g.codeVa + 128#64) 4).toOption.isSome = true ∧
      (starting.seqRead part1 (g.codeVa + 192#64) 64).toOption.isSome = true := by decide +kernel

theorem test_group_starts :
    after (fun t => ((t.thread 0 0).status, (t.thread 0 0).pc, (t.thread 0 0).group, (t.thread 0 0).reg 1#5)) (exec (.groupStart 1) starting) =
      some (.running, 0#64, 3#32, 0#64) := by decide +kernel

/-- A group whose one thread has halted. -/
def ending : State :=
  { (launched [graph1 { node1 0 with state := 1, placed := 1 }] part1).modThread 0 0 (fun _ => { thread1 with status := .halted }) with
    groups := [group1] }

/-- The same with a write of the group's on its way to another die, and a group that TERMINATE has stopped. -/
def endingFar : State := withFar ending (farWrite (.command 5 0 0) .g 0x2000 false)
def terminated1 (s : State) : State := { s with groups := [{ group1 with terminated := true }] }

theorem witness_group_ends :
    ending.group? 1 = some group1 ∧ ending.partOf 1 = some part1 ∧ ending.groupDone group1 = true ∧
      (ending.node? 0 0 0).isSome = true ∧ group1.terminated = false ∧
      (terminated1 ending).group? 1 = some { group1 with terminated := true } ∧
      (∀ tile ∈ group1.members, (terminated1 ending).quietOn { group1 with terminated := true } tile = true) ∧
      (∃ tile ∈ group1.members, (terminated1 endingFar).quietOn { group1 with terminated := true } tile = false) := by decide +kernel

theorem test_group_ends :
    after (fun t => ((t.group? 1).map (·.ended), (t.node? 0 0 0).map (·.ended), (t.thread 0 0).status)) (exec (.groupEnd 1) ending) =
      some (some true, some 1, .empty) ∧
    after (fun t => (t.group? 1).map (·.ended)) (exec (.groupEnd 1) (terminated1 endingFar)) = some (some false) := by decide +kernel

theorem witness_blocks :
    (let s : State := { ended1 with now := 65536 }
     (s.partAt 0).isSome = true ∧ (∀ g ∈ s.groups, g.ended = false → ∀ t ∈ g.members, t / 16 ≠ 0) ∧ s.blockArmed 0 = false ∧
      s.awake 0 = true ∧ s.pkg.idleSince.get 0 0 + 65536 ≤ s.now) ∧
    let s : State := { base with pkg := { base.pkg with waking := [(0, 0)] } }
    0 ∉ s.pkg.gated ∧ ∀ w ∈ s.pkg.waking, w.1 = 0 → w.2 ≤ s.now := by decide +kernel

theorem test_blocks :
    after (fun t => t.awake 0) (exec (.blockGate 0) { ended1 with now := 65536 }) = some false ∧
      after (fun t => t.awake 0) (exec (.blockWakeComplete 0) { base with pkg := { base.pkg with waking := [(0, 0)] } }) =
        some true := by decide +kernel

/-- An armed section of two passes, about to begin a round, at its end with passes left, and at its end. -/
def armed1 (phase left round : Nat) : Armed := { passesLeft := left, round := round, phase := phase, node := none, command := none }
def withArmed (a : Armed) : State :=
  base.modCtx 0 fun x =>
    { x with pool := { x.pool with mode := 0x3380000000000000#64, armed := some a, lastFlow := some flowing
                                   lastDrain := some (cmd 0x06#7 1#64 0#64) } }

theorem witness_armed_rounds :
    ((withArmed (armed1 0 2 0)).ctx 0).pool.armed = some (armed1 0 2 0) ∧ ((withArmed (armed1 0 2 0)).tile 0).stopped = false ∧
      (armed1 4 2 1).round < (armed1 4 2 1).passesLeft ∧ (armed1 4 1 1).passesLeft ≤ (armed1 4 1 1).round := by decide +kernel

theorem test_armed_rounds :
    after (fun t => (t.ctx 0).pool.armed) (exec (.armedRound 0) (withArmed (armed1 4 2 1))) =
        some (some { armed1 0 1 1 with round := 1 }) ∧
      after (fun t => (t.ctx 0).pool.armed) (exec (.armedRound 0) (withArmed (armed1 4 1 1))) = some none := by decide +kernel

/-- A partition whose stop wave is on its way, and one that has stopped. -/
def stopping1 : State := { base with parts := [{ part0 with stopping := true }] }
def stopped1 : State := { base with parts := [{ part0 with stopping := true, stopped := true }] }

theorem witness_stop_waves :
    stopping1.part? 0 = some { part0 with stopping := true } ∧ (0 ∈ part0.tiles ∧ 1 ∈ part0.tiles) ∧
      (stopping1.tile 0).stopped = false ∧ (stopping1.tile 1).stopped = false ∧
      (stopping1.thread 0 0).reentry.toNat + 1 < (stopping1.thread 0 0).reentrymax.toNat := by decide +kernel

/-- R252, R343: the stop wave leaves the die root on channel 5. -/
theorem test_stop_word :
    after (fun t => ((t.switch 4 0).waiting.map fun x => (x.1, x.2.vc)).take 1) (exec (.stopWordWrite 0) base) = some [(5, 5)] := by
  decide +kernel

theorem test_stop_waves :
    after (fun t => ((t.tile 0).stopped, (t.tile 0).tlb.length, (t.thread 0 0).pc, (t.thread 0 0).reentry))
      (exec (.stopWaveArrival 0 0) (stopping1.modThread 0 0 fun th => { th with resume := 0x80#64 })) =
      some (true, 0, 0x80#64, 1#8) := by decide +kernel

theorem witness_preemption :
    stopped1.part? 0 = some { part0 with stopping := true, stopped := true } ∧ part0.tiles.Nodup ∧
      stopped1.group? 1 = some group1 ∧ group1.ended = false ∧
      (∀ g ∈ ended1.groups, g.plot = 0 → g.part = 0 → g.ended = true) ∧ group1.away = false ∧ group1.terminated = false ∧
      stopped1.pkg.far = [] ∧ (∀ m ∈ stopped1.images, m.gid = 1 → m.committing = false) ∧
      (∀ tile ∈ group1.members, ∀ c ∈ (stopped1.ctx tile).cmds, c.gid ≠ 1) ∧ stopped1.pkg.savedSeqs = [] ∧
      (let s : State := { stopped1 with groups := [{ group1 with away := true }] }
       s.group? 1 = some { group1 with away := true }) := by decide +kernel

/-- Only tile 0 has threads of the group, and none of them has an access of its own on its way. -/
theorem witness_preemption_threads :
    ∀ tile slot, slot < 4 → (stopped1.thread tile slot).gid = 1 →
      (stopped1.thread tile slot).inflight = [] ∧ (stopped1.thread tile slot).departing = [] ∧
        (stopped1.thread tile slot).held = [] ∧ (stopped1.thread tile slot).outstanding = [] := by
  intro tile slot hs h
  obtain rfl | ht := Nat.eq_zero_or_pos tile
  · revert slot; decide +kernel
  · have e : stopped1.tiles.items = [(0, stopped1.tile 0)] := rfl
    have d : stopped1.tile tile = {} := by
      rw [State.tile, Sparse.get, e, lookupKey, if_neg (by omega), lookupKey, Option.getD_none]
    rw [State.thread, State.ctx, d] at h ⊢
    revert slot; decide +kernel

theorem test_preemption :
    after (fun t => ((t.tile 0).shadow.threads == (stopped1.ctx 0).threads, (t.thread 0 0).status)) (exec (.swap 0) stopped1) =
        some (true, .empty) ∧
      after (fun t => (t.part? 0).map (·.stopping)) (exec (.resume 0) stopped1) = some (some false) ∧
      after (fun t => (t.group? 1).map (·.ended)) (exec (.terminate 1) stopped1) = some (some true) := by decide +kernel

/-! ## Witnesses: the machine as a whole -/

theorem witness_hardwired_registers :
    ∃ i c s, RegisterWord i c 0#5 2 (fun th => th.reg 1#5 + th.reg 2#5) ∧ issues i c s = true :=
  ⟨_, _, base, .add c0 0#5 1#5 2#5, by decide⟩

theorem witness_hardwired_predicates :
    ∃ i c pair f s, PredicateWord i c 1#4 pair f ∧ issues i c s = true ∧ pair = true :=
  ⟨_, _, _, _, base, .cmp c0 1#4 2#3 1#5 2#5 1#1, by decide⟩

/-- The word of an ADDI at the thread's pc, its issue next; then a word that decodes to nothing; a tile with nothing to
issue; a word that waits; a TE with a slot; an event; and an empty agenda. -/
def placed (w : Nat) (a : List Action) : State :=
  { base with mem := base.mem.writeBytes (locText 0 0x100) (leBytes 4 w), agenda := a }

theorem witness_steps :
    ((placed 0x001084FF [.issue 0]).winner 0 = some 0 ∧ (placed 0x001084FF [.issue 0]).textLoc 0 1 false 0x100#64 4 = some (locText 0 0x100) ∧
      decode ((placed 0x001084FF [.issue 0]).mem.readBytes (locText 0 0x100) 4) = .ok (.addi c0 4#5 4#5 0xFF#8)) ∧
    (decode ((placed 0xFFFFFFFF [.issue 0]).mem.readBytes (locText 0 0x100) 4)).toOption = none ∧
    (placed 0x001084FF [.issue 1]).winner 1 = none ∧
    (let s := with1 { thread1 with waiting := true }
     (s.thread 0 0).waiting = true ∧ (s.thread 0 0).status = .running ∧ (s.tile 0).stopped = false) ∧
    (let s := idle1.modTeAt (0, 0, 0) fun e => { e with slots := [BitVec.ofNat 128 (leNat (encode (.teAdd (trig 7#3) addFields)))] }
     s.firstReadySlot (0, 0, 0) 0 (s.te 0 0 0).slots = some (0, .teAdd (trig 7#3) addFields)) ∧
    base.agenda = [] := by decide +kernel

theorem witness_encoding :
    (Instr.add c0 1#5 2#5 3#5).wf = true ∧ (encodeWord (.add c0 1#5 2#5 3#5)).isSome = true ∧
      (Instr.teAdd (trig 7#3) addFields).wf = true ∧ encodeWord (.teAdd (trig 7#3) addFields) = none ∧
      (encodeSlot (.teAdd (trig 7#3) addFields)).isSome = true := by decide +kernel

theorem witness_canonical_memory :
    (placed 0x001084FF []).mem.wf = true ∧ after (fun _ => ()) (step (placed 0x001084FF [])) = some () := by decide +kernel

end Sys2Proof.Tests
end

section
/-! SUPPORT. Every operation of the state keeps the memory in its one canonical form (R6), in the order of the model. For
an operation that leaves the memory as it is, a lemma `foo_mem` says so where it is plain; for every other a lemma
`foo_wf` says that a canonical memory stays canonical. -/

namespace Sys2Proof.Machine

/-! ## Choices, folds and results -/

/-- Either branch of a choice keeps the canonical form. -/
theorem ite_wf {c : Prop} [Decidable c] {a b : State} (ha : a.mem.wf = true) (hb : b.mem.wf = true) :
    (if c then a else b).mem.wf = true := by
  split
  · exact ha
  · exact hb

/-- A fold whose steps keep the canonical form keeps it. -/
theorem foldl_wf {α : Type} {f : State → α → State} (hf : ∀ a x, a.mem.wf = true → (f a x).mem.wf = true) :
    ∀ {l : List α} {s : State}, s.mem.wf = true → (l.foldl f s).mem.wf = true :=
  fun {_ _} h => List.foldlRecOn _ f h fun a ha x _ => hf a x ha

/-- A fold whose steps leave the memory leaves it. -/
theorem foldl_mem {α : Type} {f : State → α → State} (hf : ∀ a x, (f a x).mem = a.mem) :
    ∀ (l : List α) (s : State), (l.foldl f s).mem = s.mem
  | [], _ => rfl
  | x :: l, s => (foldl_mem hf l (f s x)).trans (hf s x)

/-- A turn of every unit in a list keeps the canonical form when each unit's turn does. -/
theorem forAll_wf {α : Type} {l : List α} {f : State → α → State} {s : State}
    (hf : ∀ a x, a.mem.wf = true → (f a x).mem.wf = true) (h : s.mem.wf = true) : (forAll l f s).mem.wf = true :=
  foldl_wf hf h

/-- A state with the same memory as a canonical one is canonical. -/
theorem wf_of_mem_eq {s t : State} (e : t.mem = s.mem) (h : s.mem.wf = true) : t.mem.wf = true := e ▸ h

theorem of_mapError_eq_ok {ε ε' α : Type} {f : ε → ε'} {x : Except ε α} {r : α} (h : x.mapError f = .ok r) :
    x = .ok r := by
  cases x with
  | error e => cases h
  | ok a => cases h; rfl

theorem of_map_eq_ok {ε α β : Type} {f : α → β} {x : Except ε α} {r : β} (h : x.map f = .ok r) :
    ∃ a, x = .ok a ∧ f a = r := by
  cases x with
  | error e => cases h
  | ok a => cases h; exact ⟨a, rfl, rfl⟩

/-- The state that a word's effect leaves, however it ends. -/
def Body.state (b : Body) : State :=
  match b with
  | .done s => s
  | .taken s _ _ => s
  | .hold s => s
  | .marked s => s
  | .trap s _ => s

@[simp] theorem done_state (s : State) : (Body.done s).state = s := rfl
@[simp] theorem taken_state (s : State) (target : Word) (gap : Nat) : (Body.taken s target gap).state = s := rfl
@[simp] theorem hold_state (s : State) : (Body.hold s).state = s := rfl
@[simp] theorem marked_state (s : State) : (Body.marked s).state = s := rfl
@[simp] theorem trap_state (s : State) (t : Trap) : (Body.trap s t).state = s := rfl

/-- Whether the next state of an outcome, if it has one, has a canonical memory. -/
def NextWf (o : Host.Outcome State Fault Refusal) : Prop :=
  match o with
  | .next t => t.mem.wf = true
  | .fault _ => True
  | .refused _ => True

theorem nextWf_iff (o : Host.Outcome State Fault Refusal) : NextWf o ↔ ∀ t, o = .next t → t.mem.wf = true := by
  cases o with
  | next t => simp [NextWf]
  | fault r => simp [NextWf]
  | refused r => simp [NextWf]

theorem ite_nextWf {c : Prop} [Decidable c] {a b : Host.Outcome State Fault Refusal} (ha : NextWf a) (hb : NextWf b) :
    NextWf (if c then a else b) := by
  split
  · exact ha
  · exact hb

/-! ## Random codes (`Machine/Access.lean`) -/

@[simp] theorem drawCode_mem (s : State) : s.drawCode.2.mem = s.mem := by
  simp [State.drawCode]

/-! ## Translation (`Machine/Translate.lean`) -/

theorem resolve_wf {s t : State} {b : TlbId} {tile gid : Nat} {space : Space} {addr : Word} {size place : Nat}
    {need : Need} (e : s.resolve b tile gid space addr size need = .ok (place, t)) (h : s.mem.wf = true) :
    t.mem.wf = true := wf_of_mem_eq (resolve_mem e) h

/-! ## Operations that several units share (`Machine/Ops.lean`) -/

theorem gatewayRecord_wf {s : State} {tile block slot gid : Nat} {va : Word} (h : s.mem.wf = true) :
    (s.gatewayRecord tile block slot gid va).mem.wf = true := log_wf _ _ h

theorem perform_wf {s : State} {tile slot gid : Nat} {b : Buffered} (h : s.mem.wf = true) :
    (s.perform tile slot gid b).mem.wf = true := by
  unfold State.perform
  split
  · exact gatewayRecord_wf h
  · split
    · exact log_wf _ _ h
    · split
      · exact log_wf _ _ h
      · split <;> exact writeOver_wf _ _ _ _ _ _ h

theorem farRecord_wf {s : State} {w : FarWrite} {cause aux : Nat} (h : s.mem.wf = true) :
    (s.farRecord w cause aux).mem.wf = true := log_wf _ _ h

@[simp] theorem noteRead_mem (s : State) (tile place n : Nat) : (s.noteRead tile place n).mem = s.mem := by
  simp [State.noteRead, apply_ite State.mem]

@[simp] theorem takeBank_mem (s : State) (bank : Option Nat) (gid from_ : Nat) :
    (s.takeBank bank gid from_).2.mem = s.mem := by
  unfold State.takeBank
  split
  · rfl
  · simp

@[simp] theorem takeBanks_mem (s : State) (gid step d : Nat) (l : List Nat) :
    (s.takeBanks gid step d l).2.mem = s.mem := by
  obtain ⟨_, h⟩ := takeBanks_eq s gid step d l
  rw [h]; rfl

theorem bankTurn_wf {s : State} (h : s.mem.wf = true) : s.bankTurn.mem.wf = true := by
  unfold State.bankTurn
  split
  · exact h
  · extract_lets left found tiles s1 s2
    have h1 : s1.mem.wf = true := foldl_wf (fun _ _ ha => by simpa using ha) h
    have h2 : s2.mem.wf = true := foldl_wf (fun _ _ ha => by simpa using ha) h1
    exact h2

@[simp] theorem moveToken_mem (s : State) (tile : Nat) (c : Cmd) (st : TokState) (cause : BitVec 6) :
    (s.moveToken tile c st cause).mem = s.mem := by
  unfold State.moveToken
  split
  · rfl
  · simp

@[simp] theorem postFlags_mem (s : State) (tile slot gid : Nat) (f : BitVec 8) :
    (s.postFlags tile slot gid f).mem = s.mem := by
  simp [State.postFlags, apply_ite State.mem]

@[simp] theorem replyTo_mem (s : State) (tile : Nat) (c : Cmd) (v : Word) : (s.replyTo tile c v).mem = s.mem := by
  unfold State.replyTo
  split
  · rfl
  · simp [apply_ite State.mem]

@[simp] theorem endCmd_mem (s : State) (tile : Nat) (c : Cmd) (st : TokState) (cause : BitVec 6) :
    (s.endCmd tile c st cause).mem = s.mem := by
  simp [State.endCmd, apply_ite State.mem]

@[simp] theorem engineRequest_mem (s : State) (tile target gid : Nat) (who : EngineId) (space : Space)
    (place bytes : Nat) (write : Bool) :
    (s.engineRequest tile target gid who space place bytes write).mem = s.mem := by
  simp [State.engineRequest, apply_ite State.mem]

@[simp] theorem giveUp_mem (s : State) (tile slot : Nat) (held : List Cmd) :
    (s.giveUp tile slot held).mem = s.mem := by
  simp [State.giveUp]

@[simp] theorem discard_mem (s : State) (tile slot : Nat) (cause : BitVec 6) :
    (s.discard tile slot cause).mem = s.mem := by
  simp [State.discard]

@[simp] theorem trapValue_mem (s : State) (t : Trap) : (s.trapValue t).2.mem = s.mem := by
  unfold State.trapValue
  split
  · rfl
  · simp

theorem stopThread_wf {s : State} {tile slot : Nat} {t : Trap} (h : s.mem.wf = true) :
    (s.stopThread tile slot t).mem.wf = true := log_wf _ _ h

theorem enterOrStop_wf {s : State} {tile slot : Nat} {t : Trap} (h : s.mem.wf = true) :
    (s.enterOrStop tile slot t).mem.wf = true := ite_wf (stopThread_wf h) h

theorem takeTrap_wf {s : State} {tile slot : Nat} {t : Trap} (h : s.mem.wf = true) :
    (s.takeTrap tile slot t).mem.wf = true := by
  unfold State.takeTrap
  dsimp only
  split
  · exact stopThread_wf h
  · split <;> exact enterOrStop_wf (by simpa using h)

/-! ## Traps and the issue of a control word (`Machine/Issue.lean`) -/

theorem trapNow_wf {s : State} {t : Trap} (h : s.mem.wf = true) : (s.trapNow t).mem.wf = true := by
  unfold State.trapNow
  simpa using takeTrap_wf h

@[simp] theorem markWord_mem (s : State) (i : Instr) (c : Ctl) : (s.markWord i c).mem = s.mem := by
  simp [State.markWord]

/-- A word that answers later marks its registers and waits. -/
theorem finish_marked (s : State) (i : Instr) (c : Ctl) (own : Bool) :
    ∃ f, (Body.marked s).finish i c own = (s.markWord i c).modCur f := by
  rw [Body.finish]
  exact ⟨_, rfl⟩

theorem finish_wf {b : Body} {i : Instr} {c : Ctl} {own : Bool} (h : b.state.mem.wf = true) :
    (b.finish i c own).mem.wf = true := by
  cases b with
  | done s => exact wf_of_mem_eq (moveOn_mem _ _ _ _ _ _) h
  | taken s t g => exact wf_of_mem_eq (moveOn_mem _ _ _ _ _ _) h
  | hold s => exact h
  | marked s =>
    obtain ⟨f, e⟩ := finish_marked s i c own
    rw [e, modCur_mem, markWord_mem]
    exact h
  | trap s t => exact trapNow_wf h

@[simp] theorem skipToken_mem (s : State) (i : Instr) : (s.skipToken i).mem = s.mem := by
  unfold State.skipToken
  split
  · rfl
  · split
    · rfl
    · simp [apply_ite State.mem]

theorem guardFalse_wf {s : State} {i : Instr} {c : Ctl} (h : s.mem.wf = true) : (s.guardFalse i c).mem.wf = true := by
  unfold State.guardFalse
  extract_lets n s0
  have h0 : s0.mem.wf = true := h
  split
  · exact trapNow_wf h0
  · rw [moveOn_mem, skipToken_mem]
    exact ite_wf h0 h0

/-- A control word whose effect keeps the canonical form keeps it, however the word issues. -/
theorem issueWord_nextWf {i : Instr} {c : Ctl} {body : State → Body} {s : State}
    (hb : ∀ u, u.mem.wf = true → (body u).state.mem.wf = true) (h : s.mem.wf = true) :
    NextWf (issueWord i c body s) := by
  have h0 : s.begin.mem.wf = true := h
  unfold issueWord
  dsimp only
  split
  · exact finish_wf (hb _ h0)
  · split
    · exact trapNow_wf h0
    · split
      · exact guardFalse_wf h0
      · split
        · exact trapNow_wf h0
        · exact finish_wf (hb _ (by simpa using h0))

theorem resultBody_wf {d : BitVec 5} {lat : Nat} {f : Thread → Word} {s : State} (h : s.mem.wf = true) :
    (resultBody d lat f s).state.mem.wf = true := h

/-! ## Integer words (`Machine/Alu.lean`) -/

theorem predBody_wf {pd : BitVec 4} {pair : BitVec 1} {f : Thread → Bool} {s : State} (h : s.mem.wf = true) :
    (predBody pd pair f s).state.mem.wf = true := h

theorem divideBody_wf {signed quotient : Bool} {d a b : BitVec 5} {s : State} (h : s.mem.wf = true) :
    (divideBody signed quotient d a b s).state.mem.wf = true := h

/-! ## Loads, stores and atomics of a thread (`Machine/ThreadMem.lean`) -/

theorem notDropped_wf {s : State} {e : AccessErr} {addr : Word} (h : s.mem.wf = true) :
    (s.notDropped e addr).mem.wf = true := ite_wf (gatewayRecord_wf h) h

theorem memFault_wf {s : State} {e : AccessErr} {addr : Word} {detail : BitVec 32} (h : s.mem.wf = true) :
    (s.memFault e addr detail).state.mem.wf = true := notDropped_wf h

@[simp] theorem latch_mem (s : State) (o : Word × Word × Word) : (s.latch o).mem = s.mem := by
  simp [State.latch]

@[simp] theorem awaitRead_mem (s : State) (space : Space) (d : BitVec 5) (place : Nat) (addr v : Word) (net : Bool) :
    (s.awaitRead space d place addr v net).mem = s.mem := by
  simp [State.awaitRead, apply_ite State.mem]

@[simp] theorem startLoad_mem (s : State) (space : Space) (d : BitVec 5) (place : Nat) (addr : Word) (size : Nat)
    (signed : Bool) (taken : List (Option Byte)) :
    (s.startLoad space d place addr size signed taken).mem = s.mem := by
  simp [State.startLoad]

@[simp] theorem queueRead_mem (s : State) (space : Space) (d : BitVec 5) (addr : Word) (q : QueuedRead) :
    (s.queueRead space d addr q).mem = s.mem := by
  simp [State.queueRead]

theorem loadBody_wf {space : Space} {d : BitVec 5} {o : Word × Word × Word} {addr : Word} {size : Nat} {signed : Bool}
    {detail : BitVec 32} {post : Thread → Thread} {s : State} (h : s.mem.wf = true) :
    (loadBody space d o addr size signed detail post s).state.mem.wf = true := by
  unfold loadBody
  dsimp only
  split
  · exact memFault_wf h
  · split
    · simpa using resolve_wf ‹_› h
    · split
      · exact memFault_wf (resolve_wf ‹_› h)
      · split <;> simpa using resolve_wf ‹_› h

theorem plainLoad_wf {space : Space} {d a : BitVec 5} {off : BitVec 6} {sz : BitVec 2} {signed : Bool} {s : State}
    (h : s.mem.wf = true) : (plainLoad space d a off sz signed s).state.mem.wf = true := loadBody_wf h

@[simp] theorem finishLoad_mem (s : State) (tile slot : Nat) (o : Outstanding) (v : Word) :
    (s.finishLoad tile slot o v).mem = s.mem := by
  simp [State.finishLoad]

@[simp] theorem loadReply_mem (s : State) (tile slot k : Nat) : (s.loadReply tile slot k).mem = s.mem := by
  unfold State.loadReply
  split
  · rfl
  · split
    · rfl
    · split
      · simp
      · rfl

@[simp] theorem commitOne_mem (s : State) (b : Buffered) : (s.commitOne b).mem = s.mem := by
  simp [State.commitOne]

@[simp] theorem buffer_mem (s : State) (b : Buffered) : (s.buffer b).mem = s.mem := by
  simp [State.buffer, apply_ite State.mem]

theorem storeBody_wf {space : Space} {addr : Word} {size : Nat} {data : Word} {post : Thread → Thread} {s : State}
    (h : s.mem.wf = true) : (storeBody space addr size data post s).state.mem.wf = true := by
  unfold storeBody
  dsimp only
  split
  · exact memFault_wf h
  · simpa using resolve_wf ‹_› h

theorem plainStore_wf {space : Space} {d a : BitVec 5} {off : BitVec 6} {sz : BitVec 2} {s : State}
    (h : s.mem.wf = true) : (plainStore space d a off sz s).state.mem.wf = true := storeBody_wf h

@[simp] theorem acknowledge_mem (s : State) (tile slot : Nat) (f : InFlight) :
    (s.acknowledge tile slot f).mem = s.mem := by
  simp [State.acknowledge, apply_ite State.mem]

@[simp] theorem bookBank_mem (s : State) (tile slot gid from_ : Nat) (f : InFlight) :
    (s.bookBank tile slot gid from_ f).mem = s.mem := by
  simp [State.bookBank, apply_ite State.mem]

theorem sendStore_wf {s : State} {tile slot gid : Nat} {f : InFlight} (h : s.mem.wf = true) :
    (s.sendStore tile slot gid f).mem.wf = true := by
  unfold State.sendStore
  split
  · simpa using sendFar_wf _ _ _ _ _ _ _ _ _ _ h
  · exact h

theorem storeAck_wf {s : State} {tile slot : Nat} {space : Space} (h : s.mem.wf = true) :
    (s.storeAck tile slot space).mem.wf = true := by
  unfold State.storeAck
  dsimp only
  split
  · exact h
  · split
    · exact ite_wf h (by simpa using h)
    · split
      · exact h
      · split
        · simpa using h
        · have h0 (f : InFlight) (r : Nat × State) (hr : r.2.mem = s.mem) :
              (if f.booked.isSome then s else r.2).mem.wf = true := ite_wf h (wf_of_mem_eq hr h)
          exact ite_wf (sendStore_wf (h0 _ _ (by simp))) (by simpa using perform_wf (h0 _ _ (by simp)))

theorem presentStores_wf {s : State} {tile slot : Nat} (h : s.mem.wf = true) :
    (s.presentStores tile slot).mem.wf = true := by
  unfold State.presentStores
  simpa using foldl_wf (fun _ _ ha => by simpa using ha) h

theorem acquireBody_wf {d a : BitVec 5} {space : Space} {size : Nat} {s : State} (h : s.mem.wf = true) :
    (acquireBody d a space size s).state.mem.wf = true := by
  unfold acquireBody
  dsimp only
  split
  · exact memFault_wf h
  · split
    · exact memFault_wf (resolve_wf ‹_› h)
    · split <;> simpa using resolve_wf ‹_› h

theorem releaseBody_wf {d a : BitVec 5} {space : Space} {scope size : Nat} {s : State} (h : s.mem.wf = true) :
    (releaseBody d a space scope size s).state.mem.wf = true := by
  unfold releaseBody
  dsimp only
  split
  · split <;> exact h
  · split
    · exact memFault_wf h
    · split <;> simpa using resolve_wf ‹_› h

theorem atomicBody_wf {space : Space} {op : AmoOp} {d a b : BitVec 5} {s : State} (h : s.mem.wf = true) :
    (atomicBody space op d a b s).state.mem.wf = true := by
  unfold atomicBody
  split
  · dsimp only
    split
    · exact memFault_wf h
    · simpa using resolve_wf ‹_› h
  · dsimp only
    split
    · exact memFault_wf h
    · split
      · exact memFault_wf (resolve_wf ‹_› h)
      · split
        · simpa using resolve_wf ‹_› h
        · simpa using writeOver_wf _ _ _ _ _ _ (resolve_wf ‹_› h)

theorem writeAmo_wf {s : State} {tile gid : Nat} {o : Outstanding} {q : QueuedRead} {old : Word}
    (h : s.mem.wf = true) : (s.writeAmo tile gid o q old).mem.wf = true := by
  unfold State.writeAmo
  split
  · exact h
  · exact writeOver_wf _ _ _ _ _ _ h

theorem readNow_wf {s : State} {tile slot : Nat} {o : Outstanding} {q : QueuedRead} (h : s.mem.wf = true) :
    (s.readNow tile slot o q).mem.wf = true := by
  unfold State.readNow
  dsimp only
  split
  · exact takeTrap_wf h
  · split
    · rw [send_mem, modThread_mem, takeBank_mem]
      exact ite_wf (by simpa using writeAmo_wf h) (writeAmo_wf h)
    · rw [modThread_mem, takeBank_mem]
      exact ite_wf (by simpa using writeAmo_wf h) (writeAmo_wf h)

theorem performReads_wf {s : State} {tile slot : Nat} (h : s.mem.wf = true) :
    (s.performReads tile slot).mem.wf = true := by
  unfold State.performReads
  refine foldl_wf (fun _ _ ha => ?_) h
  split
  · split
    · exact ite_wf (readNow_wf ha) ha
    · exact ha
  · exact ha

theorem postParam_wf {s : State} {f : BitVec 8} {win : Nat} {off : Word} (h : s.mem.wf = true) :
    (s.postParam f win off).mem.wf = true := by
  unfold State.postParam
  extract_lets th s1
  have h1 : s1.mem.wf = true := h
  split
  · exact h1
  · exact ite_wf h1 (log_wf _ _ h1)

@[simp] theorem zeroLoad_mem (d : BitVec 5) (s : State) : (zeroLoad d s).mem = s.mem := by
  simp [zeroLoad]

theorem resolveEach_wf {addr : Word} :
    ∀ {n : Nat} {s t : State} {ps : List Nat}, s.resolveEach addr n = .ok (ps, t) → s.mem.wf = true → t.mem.wf = true
  | 0, _, _, _, e, h => by cases e; exact h
  | n + 1, s, t, _, e, h => by
    unfold State.resolveEach at e
    split at e
    · cases e
    · next hn =>
      obtain ⟨⟨place, u⟩, hu, hr⟩ := of_map_eq_ok e
      cases hr
      exact resolve_wf hu (resolveEach_wf hn h)

theorem unalignedBody_wf {d : BitVec 5} {o : Word × Word × Word} {addr : Word} {detail : BitVec 32} {s : State}
    (h : s.mem.wf = true) : (unalignedBody d o addr detail s).state.mem.wf = true := by
  unfold unalignedBody
  split
  · exact memFault_wf h
  · split
    all_goals
      dsimp only
      split
      · simpa using resolveEach_wf ‹_› h
      · split
        · exact memFault_wf (resolveEach_wf ‹_› h)
        · simpa using resolveEach_wf ‹_› h

theorem paramBody_wf {d a : BitVec 5} {off : BitVec 6} {win : BitVec 2} {s : State} (h : s.mem.wf = true) :
    (paramBody d a off win s).state.mem.wf = true := by
  unfold paramBody
  dsimp only
  split
  · simpa using postParam_wf h
  · split
    · exact h
    · split
      · simpa using postParam_wf h
      · split
        · exact loadBody_wf h
        · exact unalignedBody_wf h

/-! ## Branches (`Machine/Flow.lean`) -/

theorem branchTo_wf {target : Word} {gap : Nat} {f : Thread → Thread} {s : State} (h : s.mem.wf = true) :
    (branchTo target gap f s).state.mem.wf = true := by
  unfold branchTo
  split <;> exact h

theorem bselBody_wf {d a b : BitVec 5} {s : State} (h : s.mem.wf = true) :
    (bselBody d a b s).state.mem.wf = true := by
  unfold bselBody
  split
  · simpa using h
  · split
    all_goals
      dsimp only
      split
      · exact h
      · split
        · exact h
        · exact h
        · simpa using h
        · exact branchTo_wf (by simpa using h)

/-! ## System words (`Machine/System.lean`) -/

@[simp] theorem setSreg_mem (s : State) (n : BitVec 13) (v : Word) : (s.setSreg n v).mem = s.mem := by
  simp [State.setSreg, apply_ite State.mem]

@[simp] theorem sendArrival_mem (s : State) (g : Group) : (s.sendArrival g).mem = s.mem := by
  simp [State.sendArrival, apply_ite State.mem]

theorem twaitBody_wf {k level : Nat} {s : State} (h : s.mem.wf = true) :
    (twaitBody k level s).state.mem.wf = true := by
  unfold twaitBody
  split
  · exact h
  · split
    · exact h
    · dsimp only
      split <;> exact h

@[simp] theorem dividerResult_mem (s : State) (tile : Nat) : (s.dividerResult tile).mem = s.mem := by
  unfold State.dividerResult
  split
  · rfl
  · simp [apply_ite State.mem]

@[simp] theorem barrierArrival_mem (s : State) (gid : Nat) : (s.barrierArrival gid).mem = s.mem := by
  simp [State.barrierArrival]

/-! ## Engine commands and their buffer (`Machine/Commands.lean`) -/

@[simp] theorem newCmd_mem (s : State) (func : BitVec 7) (a b : Word) (reply : Option (BitVec 5)) :
    (s.newCmd func a b reply).2.mem = s.mem := by
  simp [State.newCmd]

@[simp] theorem hold_mem (s : State) (c : Cmd) : (s.hold c).mem = s.mem := by
  simp [State.hold]

theorem commandBody_wf {func : BitVec 7} {a b : BitVec 5} {s : State} (h : s.mem.wf = true) :
    (commandBody func a b s).state.mem.wf = true := by
  unfold commandBody
  split
  all_goals
    dsimp only
    split
    · exact h
    · simpa using h

theorem issueCommand_nextWf {i : Instr} {c : Ctl} {func : BitVec 7} {a b : BitVec 5} {s : State}
    (h : s.mem.wf = true) : NextWf (issueCommand i c func a b s) := by
  unfold issueCommand
  exact ite_nextWf h (issueWord_nextWf (fun _ hu => commandBody_wf hu) h)

@[simp] theorem depart_mem (s : State) (tile : Nat) (c0 : Cmd) : (s.depart tile c0).mem = s.mem := by
  unfold State.depart
  dsimp only
  split
  · simp
  · split <;> split <;> split <;> simp

@[simp] theorem departure_mem (s : State) (tile slot : Nat) : (s.departure tile slot).mem = s.mem := by
  unfold State.departure
  dsimp only
  split
  · rfl
  · simp [apply_ite State.mem]

theorem replyBody_wf {func : BitVec 7} {d a b : BitVec 5} {s : State} (h : s.mem.wf = true) :
    (replyBody func d a b s).state.mem.wf = true := by
  unfold replyBody
  split
  · split
    · exact h
    · split <;> simpa using h
  · split
    all_goals
      dsimp only
      split
      · exact h
      · simpa using h

/-! ## What every engine does (`Machine/Engine.lean`) -/

theorem engineLog_wf {s : State} {tile : Nat} {c : Cmd} {code addr : Nat} (h : s.mem.wf = true) :
    (s.engineLog tile c code addr).mem.wf = true := log_wf _ _ h

@[simp] theorem saveCmd_mem (s : State) (tile : Nat) (c : Cmd) : (s.saveCmd tile c).mem = s.mem := by
  unfold State.saveCmd
  dsimp only
  split <;> simp

@[simp] theorem sourceRead_mem (s : State) (tile : Nat) (c : Cmd) : (s.sourceRead tile c).mem = s.mem := by
  simp [State.sourceRead, apply_ite State.mem]

theorem freezeCmd_wf {s : State} {tile : Nat} {c : Cmd} {e : AccessErr} {addr : Word} (h : s.mem.wf = true) :
    (s.freezeCmd tile c e addr).mem.wf = true := by
  unfold State.freezeCmd
  dsimp only
  refine engineLog_wf ?_
  split
  · simpa using h
  · simpa using h

@[simp] theorem finishCmd_mem (s : State) (tile : Nat) (c : Cmd) (st : TokState) (cause : BitVec 6) :
    (s.finishCmd tile c st cause).mem = s.mem := by
  simp [State.finishCmd, apply_ite State.mem]

theorem dropLog_wf {s : State} {tile : Nat} {c : Cmd} {e : AccessErr} {addr : Word} (h : s.mem.wf = true) :
    (s.dropLog tile c e addr).mem.wf = true := ite_wf (gatewayRecord_wf h) (engineLog_wf h)

theorem elementFault_wf {s : State} {tile : Nat} {c : Cmd} {e : AccessErr} {addr : Word} (h : s.mem.wf = true) :
    (s.elementFault tile c e addr).mem.wf = true := by
  unfold State.elementFault
  split
  · simpa using engineLog_wf h
  · split
    · simpa using engineLog_wf h
    · split
      · simpa using dropLog_wf h
      · exact ite_wf (by simpa using engineLog_wf h) (freezeCmd_wf h)

theorem faultAfterRead_wf {s : State} {tile : Nat} {c : Cmd} {e : AccessErr} {addr : Word} (h : s.mem.wf = true) :
    (s.faultAfterRead tile c e addr).mem.wf = true :=
  ite_wf (elementFault_wf (by simpa using h)) (elementFault_wf h)

@[simp] theorem rejectCmd_mem (s : State) (tile : Nat) (c : Cmd) : (s.rejectCmd tile c).mem = s.mem := by
  simp [State.rejectCmd]

theorem element_wf {s t : State} {b : TlbId} {tile gid : Nat} {space : Space} {addr : Word} {size place : Nat}
    {need : Need} (e : s.element b tile gid space addr size need = .ok (place, t)) (h : s.mem.wf = true) :
    t.mem.wf = true := by
  unfold State.element at e
  split at e
  · cases e
  · next hr =>
    split at e
    · cases e
    · split at e
      · cases e
      · cases e
        exact resolve_wf hr h

@[simp] theorem bookAsk_mem (s : State) (gid : Nat) (a : Ask) : (s.bookAsk gid a).2.mem = s.mem := by
  simp [State.bookAsk]

theorem askTurn_wf {s : State} {tile gid : Nat} {who : EngineId} {a : Ask} {stage : AskStage} (h : s.mem.wf = true) :
    (s.askTurn tile gid who a stage).2.mem.wf = true :=
  wf_of_mem_eq (askTurn_mem s tile gid who a stage) h

theorem ask_wf {s : State} {tile : Nat} {c : Cmd} {a : Ask} {f : State → Cmd → State}
    (hf : ∀ u x, u.mem.wf = true → (f u x).mem.wf = true) (h : s.mem.wf = true) :
    (s.ask tile c a f).mem.wf = true := by
  have hr : (s.askTurn tile c.gid (.command c.id) a c.ask).2.mem.wf = true := askTurn_wf h
  exact ite_wf (hf _ _ hr) (ite_wf h hr)

theorem copyElement_wf {s t : State} {tile gid : Nat} {space : Space} {a : Word} {size place : Nat} {need : Need}
    (e : s.copyElement tile gid space a size need = .ok (place, t)) (h : s.mem.wf = true) : t.mem.wf = true := by
  unfold State.copyElement at e
  dsimp only at e
  split at e
  · cases e
  · split at e
    · cases e
    · exact element_wf e h

/-! ## The compute pool (`Machine/Pool.lean`) -/

@[simp] theorem modPool_mem (s : State) (tile : Nat) (f : Pool → Pool) : (s.modPool tile f).mem = s.mem := by
  simp [State.modPool]

theorem configRead_wf {s : State} {tile : Nat} {c : Cmd} (h : s.mem.wf = true) :
    (s.configRead tile c).mem.wf = true := by
  unfold State.configRead
  dsimp only
  split
  · exact elementFault_wf h
  · exact ite_wf (by simpa using h) (by simpa using h)

theorem configBegin_wf {s : State} {tile : Nat} {c : Cmd} (h : s.mem.wf = true) :
    (s.configBegin tile c).mem.wf = true := ask_wf (fun _ _ ha => configRead_wf ha) h

@[simp] theorem wavefront_mem (s : State) (tile : Nat) (c : Cmd) : (s.wavefront tile c).mem = s.mem := by
  simp [State.wavefront]

@[simp] theorem applyBeds_mem (s : State) (tile : Nat) (c : Cmd) (ws : List Word) :
    (s.applyBeds tile c ws).mem = s.mem := by
  simp [State.applyBeds, apply_ite State.mem]

@[simp] theorem applyMap_mem (s : State) (tile : Nat) (c : Cmd) : (s.applyMap tile c).mem = s.mem := by
  simp [State.applyMap, apply_ite State.mem]

@[simp] theorem joinPools_mem (s : State) (leader level target : Nat) :
    (s.joinPools leader level target).mem = s.mem := by
  simp [State.joinPools, foldl_mem]

@[simp] theorem leavePools_mem (s : State) (leader : Nat) : (s.leavePools leader).mem = s.mem := by
  simp [State.leavePools, foldl_mem]

@[simp] theorem applySpan_mem (s : State) (tile : Nat) (c : Cmd) : (s.applySpan tile c).mem = s.mem := by
  simp [State.applySpan, apply_ite State.mem]

@[simp] theorem switchNodes_mem (s : State) (tile : Nat) (c : Cmd) : (s.switchNodes tile c).mem = s.mem := by
  simp [State.switchNodes, apply_ite State.mem]

theorem configWavefront_wf {s : State} {tile : Nat} (h : s.mem.wf = true) :
    (s.configWavefront tile).mem.wf = true := by
  unfold State.configWavefront
  split
  · exact h
  · exact ite_wf h (ite_wf (elementFault_wf h) (by simpa using h))

@[simp] theorem flowBegin_mem (s : State) (tile : Nat) (c : Cmd) : (s.flowBegin tile c).mem = s.mem := by
  simp [State.flowBegin, apply_ite State.mem]

theorem holdEntry_wf {s : State} {tile : Nat} {c : Cmd} (h : s.mem.wf = true) :
    (s.holdEntry tile c).mem.wf = true :=
  ite_wf h (ite_wf (elementFault_wf h) (ite_wf (by simpa using h) (by simpa using h)))

theorem portElem_wf {s : State} {tile : Nat} {st : Stream} {e : Elem} (h : s.mem.wf = true) :
    (s.portElem tile st e).mem.wf = true := by
  unfold State.portElem
  extract_lets s1
  have h1 : s1.mem.wf = true := by simpa [s1] using h
  split
  · exact ite_wf (holdEntry_wf h1) h1
  · exact h1

@[simp] theorem flowEnd_mem (s : State) (tile : Nat) (c : Cmd) : (s.flowEnd tile c).mem = s.mem := by
  simp [State.flowEnd, apply_ite State.mem]

theorem poolPass_wf {s : State} {tile : Nat} (h : s.mem.wf = true) : (s.poolPass tile).mem.wf = true := by
  unfold State.poolPass
  split
  · exact h
  · dsimp only
    split
    · exact h
    · split
      · exact elementFault_wf h
      · split
        · exact elementFault_wf h
        · split
          · rw [flowEnd_mem, countBy_mem]
            simpa using h
          · rw [saveCmd_mem, countBy_mem]
            simpa using h

theorem drainBegin_wf {s : State} {tile : Nat} {c : Cmd} (h : s.mem.wf = true) :
    (s.drainBegin tile c).mem.wf = true := ite_wf (elementFault_wf h) (by simpa using h)

theorem writeDrain_wf {tile : Nat} : ∀ {n : Nat} {s : State} {c : Cmd}, s.mem.wf = true →
    (s.writeDrain tile n c).1.mem.wf = true
  | 0, _, _, h => h
  | n + 1, s, c, h => by
    unfold State.writeDrain
    split
    · exact h
    · dsimp only
      split
      · exact h
      · exact writeDrain_wf (storeBytes_wf _ _ _ _ _ _ h)

theorem drainRead_wf {s : State} {tile : Nat} {c : Cmd} (h : s.mem.wf = true) :
    (s.drainRead tile c).mem.wf = true := by
  unfold State.drainRead
  split
  split
  · exact elementFault_wf (writeDrain_wf h)
  · exact ite_wf (by simpa using h) (by simpa using h)

theorem drainWrite_wf {s : State} {tile : Nat} {c : Cmd} (h : s.mem.wf = true) :
    (s.drainWrite tile c).mem.wf = true := by
  have h1 : (s.writeDrain tile 64 c).1.mem.wf = true := writeDrain_wf h
  unfold State.drainWrite
  dsimp only
  split
  · exact elementFault_wf h1
  · split
    · rw [endCmd_mem]
      exact ite_wf h1 h1
    · simpa using h1

theorem drainStep_wf {s : State} {tile : Nat} {c : Cmd} (h : s.mem.wf = true) :
    (s.drainStep tile c).mem.wf = true := by
  unfold State.drainStep
  split
  · simpa using h
  · exact ite_wf (drainRead_wf h) (ask_wf (fun _ _ ha => drainWrite_wf ha) h)

@[simp] theorem pstat_mem (s : State) (tile : Nat) (c : Cmd) : (s.pstat tile c).mem = s.mem := by
  simp [State.pstat, apply_ite State.mem]

/-! ## The copy engine (`Machine/Copy.lean`) -/

theorem readElems_wf {tile : Nat} {c : Cmd} : ∀ {n e : Nat} {s : State}, s.mem.wf = true →
    (s.readElems tile c n e).2.2.mem.wf = true
  | 0, _, _, h => h
  | n + 1, e, s, h => by
    unfold State.readElems
    dsimp only
    split
    · exact h
    · exact readElems_wf (copyElement_wf ‹_› h)

theorem writeElem_wf {s : State} {tile : Nat} {c : Cmd} {a : Word} {place : Nat} {bs : List Byte}
    (h : s.mem.wf = true) : (s.writeElem tile c a place bs).mem.wf = true :=
  ite_wf (writeOver_wf _ _ _ _ _ _ h) (engineWrite_wf _ _ _ _ _ _ _ _ _ _ h)

theorem writeElems_wf {tile : Nat} : ∀ {vs : List (BitVec 32)} {s : State} {c : Cmd}, s.mem.wf = true →
    (s.writeElems tile c vs).2.2.mem.wf = true
  | [], _, _, h => h
  | v :: vs, s, c, h => by
    unfold State.writeElems
    dsimp only
    split
    · exact h
    · exact writeElems_wf (writeElem_wf (copyElement_wf ‹_› h))

theorem copyWrite_wf {s : State} {tile : Nat} {c : Cmd} (h : s.mem.wf = true) :
    (s.copyWrite tile c).mem.wf = true := by
  have h1 : (s.writeElems tile c c.chunk).2.2.mem.wf = true := writeElems_wf h
  unfold State.copyWrite
  dsimp only
  split
  · exact ite_wf (faultAfterRead_wf (by simpa using h1)) (elementFault_wf (by simpa using h1))
  · split
    · simpa using h1
    · exact ite_wf (by simpa using h1) (by simpa using h1)

theorem copyPut_wf {s : State} {tile : Nat} {c : Cmd} (h : s.mem.wf = true) : (s.copyPut tile c).mem.wf = true :=
  ask_wf (fun _ _ ha => copyWrite_wf ha) h

theorem copyRead_wf {s : State} {tile : Nat} {c : Cmd} (h : s.mem.wf = true) :
    (s.copyRead tile c).mem.wf = true := by
  have h1 : (s.readElems tile c c.chunkSize (c.pos / c.srcBytes)).2.2.mem.wf = true := readElems_wf h
  unfold State.copyRead
  dsimp only
  split
  · exact elementFault_wf h1
  · exact ite_wf (by simpa using h1) (by simpa using h1)

theorem copyStep_wf {s : State} {tile : Nat} {c : Cmd} (h : s.mem.wf = true) : (s.copyStep tile c).mem.wf = true := by
  unfold State.copyStep
  split
  · simpa using h
  · exact ite_wf (ask_wf (fun _ _ ha => copyRead_wf ha) h) (copyPut_wf h)

/-! ## Corrected errors (`Machine/Errors.lean`) -/

@[simp] theorem lastingCode_mem (s : State) (u : CounterId) : (s.lastingCode u).2.mem = s.mem := by
  unfold State.lastingCode
  split
  · rfl
  · simp

theorem retireUnit_wf {s : State} {u : CounterId} (h : s.mem.wf = true) : (s.retireUnit u).mem.wf = true := by
  unfold State.retireUnit
  dsimp only
  refine log_wf _ _ ?_
  rw [lastingCode_mem, modPkg_mem]
  exact foldl_wf (fun _ _ ha => by simpa using ha) h

theorem correctedEvent_wf {s : State} {u : CounterId} (h : s.mem.wf = true) : (s.correctedEvent u).mem.wf = true :=
  ite_wf (retireUnit_wf h) h

/-! ## Queues, tokens and discards of the fabric (`Machine/Fabric.lean`) -/

@[simp] theorem returnSlot_mem (s : State) (p : TeId) (ch : Nat) : (s.returnSlot p ch).mem = s.mem := by
  unfold State.returnSlot
  split
  · rfl
  · split
    · rfl
    · simp

@[simp] theorem returnSlots_mem (p : TeId) (ch : Nat) : ∀ (n : Nat) (s : State), (s.returnSlots p ch n).mem = s.mem
  | 0, _ => rfl
  | n + 1, s => by
    unfold State.returnSlots
    rw [returnSlots_mem p ch n, returnSlot_mem]

@[simp] theorem enqueue_mem (s : State) (p : TeId) (ch : Nat) (t : Token) : (s.enqueue p ch t).mem = s.mem := by
  simp [State.enqueue]

theorem push_wf {s : State} {p : TeId} {d : Nat} {t : Token} (h : s.mem.wf = true) :
    (s.push p d t).mem.wf = true := by
  unfold State.push
  split
  · exact h
  · exact ite_wf (by simpa using h) (correctedEvent_wf h)

@[simp] theorem resync_mem (s : State) (p : TeId) (d : Nat) : (s.resync p d).mem = s.mem := by
  simp [State.resync]

theorem resyncAround_wf {s : State} {p : TeId} (h : s.mem.wf = true) : (s.resyncAround p).mem.wf = true := by
  unfold State.resyncAround
  refine foldl_wf (fun a d ha => ?_) h
  rw [resync_mem]
  split
  · simpa using ha
  · exact ha

@[simp] theorem modHomeOf_mem (s : State) (m : Image) (f : Home → Home) : (s.modHomeOf m f).mem = s.mem := by
  simp [State.modHomeOf]

theorem logTe_wf {s : State} {p : TeId} {cause src slot addr aux : Nat} (h : s.mem.wf = true) :
    (s.logTe p cause src slot addr aux).mem.wf = true := log_wf _ _ h

theorem stopTes_wf {s : State} {m : Image} (h : s.mem.wf = true) : (s.stopTes m).mem.wf = true := by
  unfold State.stopTes
  simpa using foldl_wf (fun _ _ ha => by simpa using ha) h

@[simp] theorem dropTokens_mem (s : State) (p : TeId) (img : Nat) : (s.dropTokens p img).mem = s.mem := by
  simp [State.dropTokens]

@[simp] theorem mapReplies_mem (s : State) (img : Nat) (inst : Bool) (f : Payload → Payload) :
    (s.mapReplies img inst f).mem = s.mem := by
  simp [State.mapReplies]

@[simp] theorem restoreTe_mem (s : State) (m : Image) (p : TeId) : (s.restoreTe m p).mem = s.mem := by
  simp [State.restoreTe]

@[simp] theorem dropElsewhere_mem (s : State) (m : Image) : (s.dropElsewhere m).mem = s.mem := by
  simp [State.dropElsewhere, foldl_mem]

theorem dropControl_wf {s : State} {m : Image} (h : s.mem.wf = true) : (s.dropControl m).mem.wf = true :=
  foldl_wf (fun _ _ ha => by simpa using ha) h

@[simp] theorem discardCode_mem (s : State) (d : Discard) : (s.discardCode d).2.mem = s.mem := by
  unfold State.discardCode
  split
  · rfl
  · simp

theorem undo_wf {s : State} {m : Image} (h : s.mem.wf = true) : (s.undo m).mem.wf = true := by
  unfold State.undo
  extract_lets s1 s2
  have h1 : s1.mem.wf = true := foldl_wf (fun _ _ ha => by simpa using ha) h
  have h2 : s2.mem.wf = true := by simpa [s2] using dropControl_wf (by simpa using h1)
  simpa using h2

theorem combineDiscard_wf {s : State} {m : Image} {d : Discard} (h : s.mem.wf = true) :
    (s.combineDiscard m d).mem.wf = true := ite_wf (stopTes_wf h) h

theorem snapshotStop_wf {s : State} {m : Image} (h : s.mem.wf = true) : (s.snapshotStop m).mem.wf = true :=
  ite_wf h (by simpa using foldl_wf (fun _ _ ha => logTe_wf ha) (stopTes_wf h))

theorem stopOnly_wf {s : State} {m : Image} {d : Discard} (h : s.mem.wf = true) : (s.stopOnly m d).mem.wf = true :=
  ite_wf (ite_wf h h) (ite_wf (combineDiscard_wf h) (ite_wf (stopTes_wf h) h))

theorem discardInstance_wf {s : State} {img : Nat} {d : Discard} (h : s.mem.wf = true) :
    (s.discardInstance img d).mem.wf = true := by
  unfold State.discardInstance
  split
  · exact h
  · split
    · exact stopOnly_wf h
    · extract_lets s1 n limit stops s2 s3
      have h1 : s1.mem.wf = true := undo_wf h
      have h2 : s2.mem.wf = true := h1
      have h3 : s3.mem.wf = true := snapshotStop_wf (ite_wf (stopTes_wf h2) h2)
      split
      · dsimp only
        exact log_wf _ _ (by simpa using h3)
      · exact h3

theorem stopImage_wf {s : State} {m : Image} (h : s.mem.wf = true) : (s.stopImage m).mem.wf = true :=
  discardInstance_wf h

theorem fabricTrap_wf {s : State} {p : TeId} {slot cause detail : Nat} (h : s.mem.wf = true) :
    (s.fabricTrap p slot cause detail).mem.wf = true := by
  unfold State.fabricTrap
  split
  · exact h
  · split
    extract_lets s1
    have h1 : s1.mem.wf = true := discardInstance_wf h
    split
    · exact h1
    · exact log_wf _ _ h1

theorem poisonStop_wf {s : State} {p : TeId} {slot addr : Nat} (h : s.mem.wf = true) :
    (s.poisonStop p slot addr).mem.wf = true := by
  unfold State.poisonStop
  split
  · exact h
  · exact logTe_wf (discardInstance_wf h)

/-! ## Streams (`Machine/Streams.lean`) -/

@[simp] theorem modStream_mem (s : State) (tile i : Nat) (f : Stream → Stream) :
    (s.modStream tile i f).mem = s.mem := by
  simp [State.modStream]

@[simp] theorem startStream_mem (s : State) (tile i : Nat) (st : Stream) (c : Cmd) :
    (s.startStream tile i st c).mem = s.mem := by
  simp [State.startStream]

@[simp] theorem sgoCheck_mem (s : State) (tile id : Nat) : (s.sgoCheck tile id).mem = s.mem := by
  unfold State.sgoCheck
  split
  · rfl
  · simp [apply_ite State.mem]

@[simp] theorem endStream_mem (s : State) (tile i bad : Nat) : (s.endStream tile i bad).mem = s.mem := by
  simp [State.endStream]

@[simp] theorem haltStream_mem (s : State) (tile i bad : Nat) : (s.haltStream tile i bad).mem = s.mem := by
  unfold State.haltStream
  split
  · rfl
  · dsimp only
    split
    · simp
    · simp [apply_ite State.mem]

theorem streamFault_wf {s : State} {tile i : Nat} {x : Stop} (h : s.mem.wf = true) :
    (s.streamFault tile i x).mem.wf = true := by
  unfold State.streamFault
  dsimp only
  split
  · simpa using h
  · split
    · simpa using engineLog_wf h
    · split
      · simpa using engineLog_wf h
      · split
        · simpa using dropLog_wf h
        · exact ite_wf (by simpa using engineLog_wf h) (freezeCmd_wf (by simpa using h))

theorem fetchElem_wf {s t : State} {tile k : Nat} {st : Stream} {x : Elem} (e : s.fetchElem tile st k = .ok (x, t))
    (h : s.mem.wf = true) : t.mem.wf = true := by
  unfold State.fetchElem at e
  split at e
  · cases e
    exact h
  · dsimp only at e
    split at e
    · cases e
    · cases e
      exact element_wf ‹_› h

@[simp] theorem sgoRead_mem (s : State) (tile id : Nat) : (s.sgoRead tile id).mem = s.mem := by
  unfold State.sgoRead
  split
  · rfl
  · simp [apply_ite State.mem]

@[simp] theorem fetchCounted_mem (s : State) (tile : Nat) (st : Stream) : (s.fetchCounted tile st).mem = s.mem := by
  simp [State.fetchCounted]

@[simp] theorem requestNext_mem (s : State) (tile i : Nat) : (s.requestNext tile i).mem = s.mem := by
  unfold State.requestNext
  dsimp only
  split
  · rfl
  · split <;> simp

@[simp] theorem elementTurn_mem (s : State) (tile : Nat) (st : Stream) : (s.elementTurn tile st).2.mem = s.mem := by
  unfold State.elementTurn
  split
  · rfl
  · simp
  · rfl

theorem fetchNext_wf {s : State} {tile i : Nat} (h : s.mem.wf = true) : (s.fetchNext tile i).mem.wf = true := by
  unfold State.fetchNext
  extract_lets s1 st r
  have h1 : s1.mem.wf = true := by simpa [s1] using h
  have hr : r.2.mem.wf = true := by simpa [r] using h1
  refine ite_wf h1 (ite_wf (by simpa using hr) ?_)
  split
  · simpa using fetchElem_wf ‹_› hr
  · exact ite_wf (streamFault_wf (by simpa using hr)) h1

@[simp] theorem modSub_mem (s : State) (tile i sub : Nat) (f : Sub → Sub) : (s.modSub tile i sub f).mem = s.mem := by
  simp [State.modSub]

@[simp] theorem offerColumn_mem (s : State) (tile i : Nat) (st : Stream) (u : Sub) :
    (s.offerColumn tile i st u).mem = s.mem := by
  unfold State.offerColumn
  split
  · rfl
  · simp [apply_ite State.mem]

theorem copyPlaces_wf {tile gid : Nat} {space : Space} : ∀ {n : Nat} {s t : State} {a : Word} {ps : List Nat},
    s.copyPlaces tile gid space a n = .ok (ps, t) → s.mem.wf = true → t.mem.wf = true
  | 0, _, _, _, _, e, h => by cases e; exact h
  | n + 1, s, t, a, _, e, h => by
    unfold State.copyPlaces at e
    split at e
    · cases e
    · split at e
      · cases e
      · cases e
        exact copyPlaces_wf ‹_› (copyElement_wf ‹_› h)

theorem writePlaces_wf {tile gid : Nat} {maker : FarMaker} {space : Space} {scope pos : Nat} :
    ∀ {ps : List Nat} {bs : List Byte} {s : State} {a : Word}, s.mem.wf = true →
      (s.writePlaces tile gid maker space scope a pos ps bs).mem.wf = true
  | [], _, _, _, h => h
  | _ :: _, [], _, _, h => h
  | _ :: _, _ :: _, _, _, h => by
    unfold State.writePlaces
    exact writePlaces_wf (engineWrite_wf _ _ _ _ _ _ _ _ _ _ h)

theorem offerCopy_wf {s : State} {tile i : Nat} {st : Stream} {u : Sub} {e : Elem} (h : s.mem.wf = true) :
    (s.offerCopy tile i st u e).mem.wf = true := by
  unfold State.offerCopy
  dsimp only
  split
  · exact streamFault_wf (by simpa using h)
  · rw [modSub_mem]
    exact writePlaces_wf (by simpa using copyPlaces_wf ‹_› h)

theorem copyTurn_wf {s : State} {tile i : Nat} {st : Stream} {u : Sub} {e : Elem} (h : s.mem.wf = true) :
    (s.copyTurn tile i st u e).mem.wf = true :=
  ite_wf (offerCopy_wf (askTurn_wf h)) (ite_wf h (by simpa using askTurn_wf h))

theorem offer_wf {s : State} {tile i sub : Nat} (h : s.mem.wf = true) : (s.offer tile i sub).mem.wf = true := by
  unfold State.offer
  extract_lets st
  split
  · exact h
  · split
    · exact h
    · split
      · simpa using h
      · split
        · exact h
        · extract_lets took
          have htook : took.mem.wf = true := by simpa [took] using h
          exact ite_wf (ite_wf h (copyTurn_wf h)) (ite_wf htook (ite_wf (portElem_wf htook) h))

@[simp] theorem settleStream_mem (s : State) (tile i : Nat) : (s.settleStream tile i).mem = s.mem := by
  simp [State.settleStream, apply_ite State.mem]

theorem streamDeliver_wf {s : State} {tile i : Nat} (h : s.mem.wf = true) :
    (s.streamDeliver tile i).mem.wf = true :=
  ite_wf h (by simpa using foldl_wf (fun _ _ ha => offer_wf ha) (fetchNext_wf h))

@[simp] theorem sgoBegin_mem (s : State) (tile : Nat) (c : Cmd) : (s.sgoBegin tile c).mem = s.mem := by
  simp [State.sgoBegin, foldl_mem, apply_ite State.mem]

theorem sunfRead_wf {s : State} {tile : Nat} {c : Cmd} (h : s.mem.wf = true) : (s.sunfRead tile c).mem.wf = true := by
  unfold State.sunfRead
  dsimp only
  split
  · exact elementFault_wf h
  · split
    · rw [rejectCmd_mem, sourceRead_mem]
      exact h
    · rw [endCmd_mem, modStream_mem, sourceRead_mem]
      exact h

theorem sunf_wf {s : State} {tile : Nat} {c : Cmd} (h : s.mem.wf = true) : (s.sunf tile c).mem.wf = true :=
  ask_wf (fun _ _ ha => sunfRead_wf ha) h

@[simp] theorem shash_mem (s : State) (tile : Nat) (c : Cmd) : (s.shash tile c).mem = s.mem := by
  simp [State.shash]

theorem streamBegin_wf {s : State} {tile : Nat} {c : Cmd} (h : s.mem.wf = true) :
    (s.streamBegin tile c).mem.wf = true := by
  unfold State.streamBegin
  dsimp only
  split
  · simpa using h
  · simpa using h
  · simpa using h
  · simpa using h
  · exact sunf_wf h
  · simpa using h
  · simpa using h

@[simp] theorem sstop_mem (s : State) (tile : Nat) (c : Cmd) : (s.sstop tile c).mem = s.mem := by
  simp [State.sstop, foldl_mem]

/-! ## Armed rounds (`Machine/Armed.lean`) -/

@[simp] theorem mem_arm (s : State) (set : Word) (passes : Nat) (node : Option (Nat × Nat × Nat))
    (command : Option (Nat × Nat)) : (s.arm set passes node command).mem = s.mem := by
  simp [State.arm]

@[simp] theorem pushArmed_mem (s : State) (tile : Nat) (c : Cmd) : (s.pushArmed tile c).1.mem = s.mem := by
  simp [State.pushArmed]

@[simp] theorem stopOwnStream_mem (s : State) (tile i : Nat) : (s.stopOwnStream tile i).mem = s.mem := by
  unfold State.stopOwnStream
  dsimp only
  split
  · simp [apply_ite State.mem]
  · rfl

@[simp] theorem setPhase_mem (s : State) (tile phase : Nat) (failed : Bool) :
    (s.setPhase tile phase failed).mem = s.mem := by
  simp [State.setPhase]

@[simp] theorem roundBegin_mem (s : State) (tile : Nat) (f : Cmd) (left : Nat) :
    (s.roundBegin tile f left).mem = s.mem := by
  simp [State.roundBegin, apply_ite State.mem]

theorem roundDrain_wf {s : State} {tile : Nat} {d : Cmd} (h : s.mem.wf = true) :
    (s.roundDrain tile d).mem.wf = true := drainBegin_wf (by simpa using h)

@[simp] theorem clearArmed_mem (s : State) (tile : Nat) : (s.clearArmed tile).mem = s.mem := by
  simp [State.clearArmed, foldl_mem]

@[simp] theorem sectionDone_mem (s : State) (a : Armed) : (s.sectionDone a).mem = s.mem := by
  unfold State.sectionDone
  dsimp only
  split
  · split
    · rfl
    · simp
  · split
    · split
      · rfl
      · simp
    · split <;> split <;> simp

theorem armedRound_wf {s : State} {tile : Nat} (h : s.mem.wf = true) : (s.armedRound tile).mem.wf = true := by
  unfold State.armedRound
  dsimp only
  split
  · split
    · exact h
    · split
      · simpa using h
      · split
        · simpa using h
        · exact ite_wf (roundDrain_wf h) (ite_wf (ite_wf (by simpa using h) (by simpa using h)) h)
  · exact h

/-! ## A firing (`Machine/Firing.lean`) -/

@[simp] theorem writeW_mem (s : State) (p : TeId) (a : Nat) (v : W32) : (s.writeW p a v).mem = s.mem := by
  simp [State.writeW]

@[simp] theorem pickOne_mem (s : State) (l : List Nat) : (s.pickOne l).2.mem = s.mem := by
  simp [State.pickOne]

theorem slotStop_wf {s t : State} {p : TeId} {slot n : Nat} {f : Comp} {sh : Shape}
    (e : s.slotStop p slot f n sh = some t) (h : s.mem.wf = true) : t.mem.wf = true := by
  unfold State.slotStop at e
  dsimp only at e
  split at e
  · cases e
    exact poisonStop_wf h
  · split at e
    · cases e
      exact fabricTrap_wf (by simpa using h)
    · split at e
      · cases e
        exact fabricTrap_wf (by simpa using h)
      · split at e
        · cases e
          exact poisonStop_wf h
        · cases e

theorem send1_wf {s : State} {p : TeId} {e : TE} {f : Comp} {b : Nat} {region : Option Nat} {x : Sent}
    (h : s.mem.wf = true) : (s.send1 p e f b region x).mem.wf = true :=
  ite_wf (push_wf h) (ite_wf (by simpa using h) h)

@[simp] theorem request_mem (s : State) (p : TeId) (region : Option Nat) (q : BitVec 3 × W32 × BitVec 2) :
    (s.request p region q).mem = s.mem := by
  simp [State.request]

@[simp] theorem pushControl_mem (s : State) (p : TeId) (region : Option Nat) (n : BitVec 4) :
    (s.pushControl p region n).mem = s.mem := by
  unfold State.pushControl
  dsimp only
  split <;> simp

@[simp] theorem dequeue_mem (s : State) (p : TeId) (ch : Nat) : (s.dequeue p ch).mem = s.mem := by
  unfold State.dequeue
  split
  · rfl
  · dsimp only
    split
    · simp [apply_ite State.mem]
    · simp

theorem oneBeat_wf {s : State} {p : TeId} {e : TE} {f : Comp} {sh : Shape} {w : Work} {region : Option Nat} {b : Nat}
    {last : Bool} {r : Run} (h : s.mem.wf = true) : (s.oneBeat p e f sh w region b last r).1.mem.wf = true := by
  unfold State.oneBeat
  refine foldl_wf (fun _ _ ha => by simpa using ha) ?_
  split
  · rw [pushControl_mem]
    split
    · rw [request_mem]
      exact foldl_wf (fun _ _ ha => send1_wf ha) h
    · exact foldl_wf (fun _ _ ha => send1_wf ha) h
  · split
    · rw [request_mem]
      exact foldl_wf (fun _ _ ha => send1_wf ha) h
    · exact foldl_wf (fun _ _ ha => send1_wf ha) h

theorem beatsFrom_wf {p : TeId} {e : TE} {f : Comp} {sh : Shape} {w : Work} {region : Option Nat} :
    ∀ {n b : Nat} {s : State} {r : Run}, s.mem.wf = true → (s.beatsFrom p e f sh w region n b r).1.mem.wf = true
  | 0, _, _, _, h => h
  | n + 1, b, s, r, h => by
    have h1 : (s.oneBeat p e f sh w region b (n == 0) r).1.mem.wf = true := oneBeat_wf h
    unfold State.beatsFrom
    exact beatsFrom_wf h1

theorem fireAll_wf {s : State} {p : TeId} {t : Trig} {f : Comp} {sh : Shape} {w : Work} (h : s.mem.wf = true) :
    (s.fireAll p t f sh w).mem.wf = true := by
  unfold State.fireAll
  dsimp only
  rw [modTeAt_mem]
  exact beatsFrom_wf h

theorem fireCompute_nextWf {k : Form} {t : Trig} {f : Comp} {w : TE → Work} {s : State} (h : s.mem.wf = true) :
    NextWf (fireCompute k t f w s) := by
  unfold fireCompute
  dsimp only
  split
  · exact h
  · split
    · split
      · exact slotStop_wf ‹_› h
      · exact fireAll_wf h
    · exact h

theorem fireValue_nextWf {k : Form} {t : Trig} {f : Comp} {op : W32 → W32 → W32 → W32 × BitVec 8} {s : State}
    (h : s.mem.wf = true) : NextWf (fireValue k t f op s) := fireCompute_nextWf h

/-! ## Chain accesses and their commit (`Machine/Chain.lean`) -/

@[simp] theorem dequeueBeats_mem (p : TeId) (deq : List Nat) :
    ∀ (n : Nat) (s : State), (s.dequeueBeats p deq n).mem = s.mem
  | 0, _ => rfl
  | n + 1, s => by
    unfold State.dequeueBeats
    rw [dequeueBeats_mem p deq n, foldl_mem fun a ch => dequeue_mem a p ch]

@[simp] theorem fireChain_mem (s : State) (p : TeId) (t : Trig) (m : MemF) (k : ChainOp) (slot : Nat) :
    (s.fireChain p t m k slot).mem = s.mem := by
  simp [State.fireChain]

theorem chainStop_wf {s t : State} {p : TeId} {slot : Nat} {g : Trig} {sh : Shape}
    (e : s.chainStop p slot g sh = some t) (h : s.mem.wf = true) : t.mem.wf = true := by
  unfold State.chainStop at e
  dsimp only at e
  split at e
  · cases e
    exact poisonStop_wf h
  · split at e
    · cases e
      exact fabricTrap_wf (by simpa using h)
    · cases e

theorem fireMemory_nextWf {t : Trig} {m : MemF} {k : ChainOp} {s : State} (h : s.mem.wf = true) :
    NextWf (fireMemory t m k s) := by
  unfold fireMemory
  dsimp only
  split
  · split
    · exact chainStop_wf ‹_› h
    · exact wf_of_mem_eq (fireChain_mem _ _ _ _ _ _) h
  · exact h

theorem chainPlace_wf {s t : State} {m : Image} {p : TeId} {r : ChainReq} {place : Nat}
    (e : s.chainPlace m p r = .ok (place, t)) (h : s.mem.wf = true) : t.mem.wf = true := by
  unfold State.chainPlace at e
  dsimp only at e
  split at e
  · split at e
    · cases e
    · split at e
      · cases e
      · exact resolve_wf (of_mapError_eq_ok e) h
  · exact resolve_wf (of_mapError_eq_ok e) h

@[simp] theorem fillM_mem (s : State) (p : TeId) (t : Token) : (s.fillM p t).mem = s.mem := by
  simp [State.fillM]

@[simp] theorem answer_mem (s : State) (m : Image) (p : TeId) (v : W32) (tag : BitVec 2) (region : Option Nat) :
    (s.answer m p v tag region).mem = s.mem := by
  simp [State.answer, apply_ite State.mem]

theorem chainFault_wf {s : State} {m : Image} {p : TeId} {inRegion : Bool} {slot code addr : Nat}
    (h : s.mem.wf = true) : (s.chainFault m p inRegion slot code addr).mem.wf = true :=
  ite_wf (discardInstance_wf h) (logTe_wf (discardInstance_wf h))

theorem chainDropped_wf {s : State} {m : Image} {p : TeId} {addr : Nat} (h : s.mem.wf = true) :
    (s.chainDropped m p addr).mem.wf = true := log_wf _ _ (discardInstance_wf h)

theorem regionOverflow_wf {s : State} {m : Image} {p : TeId} {slot : Nat} (h : s.mem.wf = true) :
    (s.regionOverflow m p slot).mem.wf = true := logTe_wf (discardInstance_wf h)

theorem lateAccess_wf {s : State} {m : Image} {p : TeId} {slot : Nat} (h : s.mem.wf = true) :
    (s.lateAccess m p slot).mem.wf = true := logTe_wf (discardInstance_wf h)

@[simp] theorem recheckHome_mem (s : State) (level unit : Nat) : (s.recheckHome level unit).mem = s.mem := by
  simp [State.recheckHome]

@[simp] theorem enterHome_mem (s : State) (m : Image) (p : TeId) (r : ChainReq) (place : Nat) (k : ChainCtx) :
    (s.enterHome m p r place k).mem = s.mem := by
  unfold State.enterHome
  dsimp only
  split <;> split <;> simp

theorem sendChain_wf {s : State} {p : TeId} (h : s.mem.wf = true) : (s.sendChain p).mem.wf = true := by
  unfold State.sendChain
  split
  · exact h
  · exact ite_wf h (foldl_wf (fun _ _ ha => by simpa using ha) h)

theorem chainAccept_wf {s : State} {p : TeId} (h : s.mem.wf = true) : (s.chainAccept p).mem.wf = true := by
  unfold State.chainAccept
  split
  · extract_lets r hm drop ordered
    split
    · exact h
    · have hdrop {t : State} (ht : t.mem.wf = true) : (drop t).mem.wf = true := ite_wf ht (by simpa using ht)
      refine ite_wf h (ite_wf (by simpa using h) (ite_wf (lateAccess_wf h) (ite_wf (regionOverflow_wf h)
        (ite_wf (by simpa using h) ?_))))
      split
      · exact hdrop (ite_wf (chainDropped_wf h) (chainFault_wf h))
      · next place s1 hp =>
        have h1 : s1.mem.wf = true := chainPlace_wf hp h
        exact ite_wf (chainFault_wf h1) (ite_wf h (ite_wf (hdrop (chainFault_wf h1)) (by simpa using h1)))
  · exact h

@[simp] theorem chainBank_mem (s : State) (m : Image) (x : Entry) : (s.chainBank m x).2.mem = s.mem := by
  simp [State.chainBank]

@[simp] theorem chainTurn_mem (s : State) (m : Image) (x : Entry) : (s.chainTurn m x).2.mem = s.mem := by
  unfold State.chainTurn
  split
  · rfl
  · dsimp only
    split <;> simp

theorem amocNow_wf {s : State} {tile gid : Nat} {space : Space} {place : Nat} {a : FarAmo} (h : s.mem.wf = true) :
    (s.amocNow tile gid space place a).2.mem.wf = true := writeOver_wf _ _ _ _ _ _ h

@[simp] theorem unanswered_mem (s : State) (p : TeId) (a : FarAmo) : (s.unanswered p a).mem = s.mem := by
  simp [State.unanswered, apply_ite State.mem]

theorem chainLost_wf {s : State} {m : Image} {x : Entry} (h : s.mem.wf = true) : (s.chainLost m x).mem.wf = true := by
  unfold State.chainLost
  extract_lets w s1
  have h1 : s1.mem.wf = true := by simpa [s1] using farRecord_wf h
  exact ite_wf (stopImage_wf h1) h1

@[simp] theorem sendOld_mem (s : State) (m : Image) (p : TeId) (a : FarAmo) (v : W32) :
    (s.sendOld m p a v).mem = s.mem := by
  simp [State.sendOld, apply_ite State.mem]

theorem performStc_wf {s : State} {m : Image} {x : Entry} (h : s.mem.wf = true) :
    (s.performStc m x).mem.wf = true := by
  unfold State.performStc
  dsimp only
  split
  · exact logTe_wf h
  · split
    · exact chainLost_wf h
    · exact ite_wf (sendFar_wf _ _ _ _ _ _ _ _ _ _ h) (writeOver_wf _ _ _ _ _ _ h)

theorem performAmoc_wf {s : State} {m : Image} {x : Entry} (h : s.mem.wf = true) :
    (s.performAmoc m x).mem.wf = true := by
  unfold State.performAmoc
  dsimp only
  split
  · simpa using logTe_wf (stopImage_wf h)
  · exact ite_wf (chainLost_wf h) (ite_wf h (by simpa using amocNow_wf h))

theorem performChain_wf {s : State} {m : Image} {x : Entry} (h : s.mem.wf = true) :
    (s.performChain m x).mem.wf = true := ite_wf (performStc_wf h) (performAmoc_wf h)

theorem releaseLoad_wf {s : State} {m : Image} {k : ChainCtx} {x : Entry} (h : s.mem.wf = true) :
    (s.releaseLoad m k x).mem.wf = true := by
  unfold State.releaseLoad
  dsimp only
  split
  · exact ite_wf (by simpa using h) (by simpa using discardInstance_wf h)
  · refine ite_wf (ite_wf (chainFault_wf h) (by simpa using chainFault_wf h)) ?_
    rw [modHomeOf_mem]
    split
    · simpa using h
    · exact h

theorem releaseWrite_wf {s : State} {m : Image} {x : Entry} (h : s.mem.wf = true) :
    (s.releaseWrite m x).mem.wf = true := ite_wf (by simpa using h) (performChain_wf (by simpa using h))

theorem chainRelease_wf {s : State} {level unit ctx : Nat} (h : s.mem.wf = true) :
    (s.chainRelease level unit ctx).mem.wf = true := by
  unfold State.chainRelease
  extract_lets hm
  split
  · exact h
  · split
    · extract_lets w s0 closing s1 s2 s3
      have hw : w.2.mem.wf = true := by
        dsimp only [w]
        split
        · simpa using h
        · exact h
      have h1 : s1.mem.wf = true := by simpa [s1] using hw
      have h2 : s2.mem.wf = true := ite_wf (by simpa using h1) (ite_wf (releaseLoad_wf h1) (releaseWrite_wf h1))
      have h3 : s3.mem.wf = true := by
        refine ite_wf ?_ h2
        split
        · exact lateAccess_wf h2
        · exact h2
      exact ite_wf h (ite_wf hw (by simpa using h3))
    · exact h

@[simp] theorem chainLoadReply_mem (s : State) (level unit id : Nat) :
    (s.chainLoadReply level unit id).mem = s.mem := by
  unfold State.chainLoadReply
  dsimp only
  split
  · rfl
  · split
    · simp
    · rfl

theorem chainTimeout_wf {s : State} {p : TeId} {overdue : Nat → Nat → Bool} (h : s.mem.wf = true) :
    (s.chainTimeout p overdue).mem.wf = true := by
  unfold State.chainTimeout
  split
  · exact h
  · split
    · exact h
    · exact ite_wf (chainFault_wf h) (by simpa using chainFault_wf h)

theorem chainOverflow_wf {s : State} {level unit img : Nat} (h : s.mem.wf = true) :
    (s.chainOverflow level unit img).mem.wf = true := by
  unfold State.chainOverflow
  split
  · exact h
  · split
    · exact h
    · exact ite_wf (by simpa using discardInstance_wf h) h

theorem performHeld_wf {m : Image} : ∀ {n : Nat} {ls : List (List Entry)} {s : State}, s.mem.wf = true →
    (s.performHeld m n ls).mem.wf = true
  | 0, _, _, h => h
  | n + 1, ls, s, h => by
    unfold State.performHeld
    dsimp only
    split
    · split
      · exact performHeld_wf (performChain_wf (by simpa using h))
      · exact performHeld_wf (by simpa using h)
    · exact h

@[simp] theorem commitTe_mem (s : State) (p : TeId) : (s.commitTe p).mem = s.mem := by
  simp [State.commitTe]

theorem freeTokens_wf {s : State} {img : Nat} (h : s.mem.wf = true) : (s.freeTokens img).mem.wf = true :=
  foldl_wf (fun _ _ ha => by simpa using ha) h

theorem performCommit_wf {s : State} {m : Image} (h : s.mem.wf = true) : (s.performCommit m).mem.wf = true :=
  performHeld_wf h

theorem endCommit_wf {s : State} {m : Image} (h : s.mem.wf = true) : (s.endCommit m).mem.wf = true := by
  unfold State.endCommit
  extract_lets s1 s2 s3 s4
  have h1 : s1.mem.wf = true := foldl_wf (fun _ _ ha => by simpa using ha) h
  have h2 : s2.mem.wf = true := foldl_wf (fun _ _ ha => by simpa using ha) h1
  have h3 : s3.mem.wf = true := by simpa [s3] using freeTokens_wf h2
  have h4 : s4.mem.wf = true := foldl_wf (fun _ _ ha => by simpa using ha) h3
  exact ite_wf (stopTes_wf h4) h4

theorem commitInstance_wf {s : State} {img : Nat} (h : s.mem.wf = true) : (s.commitInstance img).mem.wf = true := by
  unfold State.commitInstance
  split
  · exact h
  · split
    · exact h
    · extract_lets s1
      have h1 : s1.mem.wf = true := performCommit_wf h
      split
      · exact ite_wf h1 (endCommit_wf h1)
      · exact h1

/-! ## The instructions of a tile element (`Machine/Elements.lean`) -/

theorem fireInt2_nextWf {t : Trig} {f : Comp} {op : W32 → W32 → W32} {s : State} (h : s.mem.wf = true) :
    NextWf (fireInt2 t f op s) := fireValue_nextWf h

theorem fireInt1_nextWf {t : Trig} {f : Comp} {op : W32 → W32} {s : State} (h : s.mem.wf = true) :
    NextWf (fireInt1 t f op s) := fireValue_nextWf h

theorem fireFp2_nextWf {t : Trig} {f : Comp} {op : Num → Num → Num × BitVec 8} {s : State} (h : s.mem.wf = true) :
    NextWf (fireFp2 t f op s) := fireValue_nextWf h

theorem fireFp3_nextWf {t : Trig} {f : Comp} {op : Num → Num → Num → Num × BitVec 8} {s : State}
    (h : s.mem.wf = true) : NextWf (fireFp3 t f op s) := fireValue_nextWf h

theorem fireLanes1_nextWf {k : Form} {t : Trig} {f : Comp} {op : Fmt → Nat → Nat × BitVec 8} {s : State}
    (h : s.mem.wf = true) : NextWf (fireLanes1 k t f op s) := fireValue_nextWf h

theorem fireLanes2_nextWf {k : Form} {t : Trig} {f : Comp} {op : Fmt → Nat → Nat → Nat × BitVec 8} {s : State}
    (h : s.mem.wf = true) : NextWf (fireLanes2 k t f op s) := fireValue_nextWf h

theorem fireColumn_nextWf {func : BitVec 3} {t : Trig} {f : Comp} {s : State} (h : s.mem.wf = true) :
    NextWf (fireColumn func t f s) := fireCompute_nextWf h

@[simp] theorem openInstance_mem (s : State) (m : Image) : (s.openInstance m).mem = s.mem := by
  simp [State.openInstance]

theorem fireSpecial_nextWf {k : Form} {t : Trig} {f : Comp} {run : TeId → Shape → State → State} {s : State}
    (hr : ∀ p sh u, u.mem.wf = true → (run p sh u).mem.wf = true) (h : s.mem.wf = true) :
    NextWf (fireSpecial k t f run s) := by
  unfold fireSpecial
  dsimp only
  split
  · exact h
  · split
    · split
      · exact slotStop_wf ‹_› h
      · exact hr _ _ _ h
    · exact h

theorem runRopen_wf {t : Trig} {f : Comp} {slot : Nat} {p : TeId} {sh : Shape} {s : State} (h : s.mem.wf = true) :
    (runRopen t f slot p sh s).mem.wf = true := by
  unfold runRopen
  split
  · exact fireAll_wf h
  · exact ite_wf (fireAll_wf h) (ite_wf h (fireAll_wf (by simpa using h)))

theorem runRclose_wf {t : Trig} {f : Comp} {p : TeId} {sh : Shape} {s : State} (h : s.mem.wf = true) :
    (runRclose t f p sh s).mem.wf = true := by
  unfold runRclose
  extract_lets s1
  have h1 : s1.mem.wf = true := fireAll_wf h
  split <;> exact h1

theorem runRabort_wf {t : Trig} {f : Comp} {p : TeId} {sh : Shape} {s : State} (h : s.mem.wf = true) :
    (runRabort t f p sh s).mem.wf = true := by
  unfold runRabort
  extract_lets s1
  have h1 : s1.mem.wf = true := fireAll_wf h
  split
  · exact h1
  · exact discardInstance_wf h1

/-! ## The sieve (`Machine/Sieve.lean`) -/

theorem sieveList_wf {s : State} {tile : Nat} {c : Cmd} (h : s.mem.wf = true) :
    (s.sieveList tile c).mem.wf = true := by
  unfold State.sieveList
  split
  · exact elementFault_wf h
  · exact ite_wf (elementFault_wf h) (ite_wf (by simpa using h) (by simpa using h))

theorem rowElems_wf {tile size : Nat} {c : Cmd} {need : Need} :
    ∀ {n : Nat} {s t : State} {a : Word} {ps vs : List Nat},
      s.rowElems tile c size need a n = .ok (ps, vs, t) → s.mem.wf = true → t.mem.wf = true
  | 0, _, _, _, _, _, e, h => by cases e; exact h
  | n + 1, s, t, a, _, _, e, h => by
    unfold State.rowElems at e
    split at e
    · cases e
    · split at e
      · cases e
      · cases e
        exact rowElems_wf ‹_› (element_wf ‹_› h)

theorem writeAreas_wf {tile gid : Nat} {bs : List Byte} : ∀ {os : List Nat} {s : State}, s.mem.wf = true →
    (s.writeAreas tile gid bs os).mem.wf = true
  | [], _, h => h
  | _ :: _, _, h => by
    unfold State.writeAreas
    exact writeAreas_wf (storeBytes_wf _ _ _ _ _ _ h)

@[simp] theorem sieveCount_mem (s : State) (tile : Nat) (c : Cmd) : (s.sieveCount tile c).mem = s.mem := by
  simp [State.sieveCount]

theorem gatherRead_wf {s : State} {tile : Nat} {c : Cmd} {u : Nat} (h : s.mem.wf = true) :
    (s.gatherRead tile c u).mem.wf = true := by
  unfold State.gatherRead
  split
  · exact elementFault_wf h
  · simpa using rowElems_wf ‹_› h

theorem gatherRow_wf {s : State} {tile : Nat} {c : Cmd} {u : Nat} (h : s.mem.wf = true) :
    (s.gatherRow tile c u).mem.wf = true := by
  unfold State.gatherRow
  split
  · exact elementFault_wf h
  · simpa using writeAreas_wf h

theorem gatherPad_wf {s : State} {tile : Nat} {c : Cmd} (h : s.mem.wf = true) :
    (s.gatherPad tile c).mem.wf = true := by
  unfold State.gatherPad
  split
  · exact elementFault_wf h
  · simpa using writeAreas_wf h

theorem scatterElems_wf {tile : Nat} {c : Cmd} {areas : List (List Nat)} :
    ∀ {ps : List Nat} {s : State} {e : Nat} {fl : BitVec 8}, s.mem.wf = true →
      (s.scatterElems tile c areas e ps fl).2.mem.wf = true
  | [], _, _, _, h => h
  | _ :: _, _, _, _, h => by
    unfold State.scatterElems
    exact scatterElems_wf (writeOver_wf _ _ _ _ _ _ h)

theorem scatterRead_wf {s : State} {tile : Nat} {c : Cmd} {u : Nat} {last : Bool} (h : s.mem.wf = true) :
    (s.scatterRead tile c u last).mem.wf = true := by
  unfold State.scatterRead
  dsimp only
  split
  · exact elementFault_wf h
  · exact ite_wf (by simpa using h) (by simpa using h)

theorem scatterRow_wf {s : State} {tile : Nat} {c : Cmd} {u : Nat} {last : Bool} (h : s.mem.wf = true) :
    (s.scatterRow tile c u last).mem.wf = true := by
  unfold State.scatterRow
  dsimp only
  split
  · exact ite_wf (faultAfterRead_wf h) (elementFault_wf h)
  · next ps vs s1 hr =>
    have h1 : (s1.sieveCount tile c).mem.wf = true := by simpa using rowElems_wf hr h
    exact ite_wf (by simpa using scatterElems_wf h1) (by simpa using scatterElems_wf h1)

/-- Every part of a sieve command keeps the canonical form. -/
theorem sieveNext_wf {c : Cmd} {tile : Nat} {a : Ask} {f : State → Cmd → State}
    (e : c.sieveNext tile = some (a, f)) {u : State} {x : Cmd} (hu : u.mem.wf = true) : (f u x).mem.wf = true := by
  unfold Cmd.sieveNext at e
  dsimp only at e
  split at e
  · cases e
    exact sieveList_wf hu
  · split at e
    · split at e
      · cases e
        exact gatherPad_wf hu
      · cases e
    · split at e
      · split at e
        · cases e
          exact gatherRead_wf hu
        · cases e
          exact gatherRow_wf hu
      · split at e
        · cases e
          exact scatterRead_wf hu
        · cases e
          exact scatterRow_wf hu

theorem sieveStep_wf {s : State} {tile : Nat} {c : Cmd} (h : s.mem.wf = true) :
    (s.sieveStep tile c).mem.wf = true := by
  unfold State.sieveStep
  split
  · exact ask_wf (fun _ _ hu => sieveNext_wf ‹_› hu) h
  · simpa using h

/-! ## Commands of the fabric (`Machine/FabricCmds.lean`) -/

@[simp] theorem rejectImage_mem (s : State) (tile : Nat) (c : Cmd) (r : Reject) :
    (s.rejectImage tile c r).mem = s.mem := by
  simp [State.rejectImage]

@[simp] theorem imageBanks_mem (s : State) (tile : Nat) (c : Cmd) (n : Nat) :
    (s.imageBanks tile c n).mem = s.mem := by
  simp [State.imageBanks, foldl_mem]

theorem floadBegin_wf {s : State} {tile : Nat} {c : Cmd} (h : s.mem.wf = true) :
    (s.floadBegin tile c).mem.wf = true := by
  unfold State.floadBegin
  extract_lets a size
  split
  · simpa using h
  · split
    · exact elementFault_wf h
    · split
      · simpa using h
      · split
        · exact elementFault_wf h
        · split <;> simpa using h

theorem endDomain_wf {s : State} {m : Image} (h : s.mem.wf = true) : (s.endDomain m).mem.wf = true := by
  unfold State.endDomain
  extract_lets opened s0 s1
  have h0 : s0.mem.wf = true := foldl_wf (fun _ _ ha => by simpa using ha) h
  have h1 : s1.mem.wf = true := foldl_wf (fun _ _ ha => by simpa using ha) (by simpa using h0)
  simpa using h1

theorem runAgain_wf {s : State} {m : Image} (h : s.mem.wf = true) : (s.runAgain m).mem.wf = true :=
  ite_wf (by simpa using foldl_wf (fun _ _ ha => by simpa using ha) h) h

theorem leaveImage_wf {s : State} {p : TeId} (h : s.mem.wf = true) : (s.leaveImage p).mem.wf = true := by
  unfold State.leaveImage
  split
  · exact h
  · extract_lets s1 s2 s3
    have h1 : s1.mem.wf = true := ite_wf (undo_wf h) (runAgain_wf h)
    have h2 : s2.mem.wf = true := endDomain_wf h1
    have h3 : s3.mem.wf = true := h2
    exact h3

@[simp] theorem loadWords_mem (p : TeId) : ∀ (ws : List W32) (s : State) (i : Nat), (s.loadWords p i ws).mem = s.mem
  | [], _, _ => rfl
  | w :: ws, s, i => by
    unfold State.loadWords
    rw [loadWords_mem p ws]
    split <;> simp

theorem takeOver_wf {s : State} {p : TeId} {r : TeRecord} {img : Nat} (h : s.mem.wf = true) :
    (s.takeOver p r img).mem.wf = true := resyncAround_wf (by simpa using leaveImage_wf h)

theorem floadTakeover_wf {s : State} {tile : Nat} {c : Cmd} (h : s.mem.wf = true) :
    (s.floadTakeover tile c).mem.wf = true := by
  unfold State.floadTakeover
  split
  · split
    · simpa using h
    · split
      · exact h
      · extract_lets id src s1 c' s2
        have h1 : s1.mem.wf = true := ite_wf h h
        have h2 : s2.mem.wf = true := by simpa [s2] using takeOver_wf h1
        exact ite_wf (by simpa using h2) h2
  · simpa using h

@[simp] theorem bindChains_mem (s : State) (m : Image) : (s.bindChains m).mem = s.mem := by
  simp [State.bindChains, apply_ite State.mem]

theorem startImage_wf {s : State} {tile : Nat} {c : Cmd} {m : Image} (h : s.mem.wf = true) :
    (s.startImage tile c m).mem.wf = true := by
  unfold State.startImage
  simpa using foldl_wf (fun _ _ ha => by simpa using ha) (by simpa using h)

theorem fgoBegin_wf {s : State} {tile : Nat} {c : Cmd} (h : s.mem.wf = true) : (s.fgoBegin tile c).mem.wf = true := by
  unfold State.fgoBegin
  extract_lets ms
  exact ite_wf (by simpa using h) (by simpa using foldl_wf (fun _ _ ha => startImage_wf ha) h)

theorem fstopBegin_wf {s : State} {tile : Nat} {c : Cmd} (h : s.mem.wf = true) :
    (s.fstopBegin tile c).mem.wf = true :=
  ite_wf h (by simpa using foldl_wf (fun _ _ ha => discardInstance_wf ha) h)

@[simp] theorem fputBegin_mem (s : State) (tile : Nat) (c : Cmd) : (s.fputBegin tile c).mem = s.mem := by
  unfold State.fputBegin
  split <;> simp

theorem fgetBegin_wf {s : State} {tile : Nat} {c : Cmd} (h : s.mem.wf = true) :
    (s.fgetBegin tile c).mem.wf = true := by
  unfold State.fgetBegin
  split
  · simpa using h
  · exact ite_wf (elementFault_wf h) (by simpa using h)

@[simp] theorem fstatBegin_mem (s : State) (tile : Nat) (c : Cmd) : (s.fstatBegin tile c).mem = s.mem := by
  simp [State.fstatBegin]

/-! ## The sequencer (`Machine/Sequencer.lean`) -/

theorem seqRecord_wf {s : State} {p : Partition} {e : AccessErr} {va : Word} (h : s.mem.wf = true) :
    (s.seqRecord p e va).mem.wf = true := log_wf _ _ h

theorem seqWrite_wf {s : State} {p : Partition} {va : Word} {bs : List Byte} (h : s.mem.wf = true) :
    (s.seqWrite p va bs).mem.wf = true := by
  unfold State.seqWrite
  split
  · exact wf_writeBytes _ _ _ h
  · exact seqRecord_wf h

theorem writeStatus_wf {s : State} {p : Partition} {window : Word} {node status : Nat} (h : s.mem.wf = true) :
    (s.writeStatus p window node status).mem.wf = true := seqWrite_wf h

theorem endStarters_wf {s : State} {p : Partition} {window : Word} {st : TokState} {cause : BitVec 6}
    (h : s.mem.wf = true) : (s.endStarters p window st cause).mem.wf = true := by
  unfold State.endStarters
  extract_lets s1
  have h1 : s1.mem.wf = true := foldl_wf (fun _ _ ha => by simpa using ha) h
  exact foldl_wf (fun _ _ ha => by simpa using ha) h1

theorem endLaunch_wf {s : State} {p : Partition} {window : Word} {node status : Nat} (h : s.mem.wf = true) :
    (s.endLaunch p window node status).mem.wf = true :=
  ite_wf (endStarters_wf (writeStatus_wf h)) (endStarters_wf (writeStatus_wf h))

theorem writeNode_wf {s : State} {p : Partition} {g : Graph} {i faults state : Nat} (h : s.mem.wf = true) :
    (s.writeNode p g i faults state).mem.wf = true := seqWrite_wf h

theorem beginLaunch_wf {s : State} {p : Partition} {l : Launch} (h : s.mem.wf = true) :
    (s.beginLaunch p l).mem.wf = true := by
  unfold State.beginLaunch
  extract_lets wait
  have hwait : wait.mem.wf = true := h
  split
  · exact hwait
  · split
    · exact endLaunch_wf (seqRecord_wf h)
    · split
      · exact endLaunch_wf h
      · exact ite_wf (foldl_wf (fun _ _ ha => writeNode_wf ha) h) hwait

theorem dropLaunch_wf {s : State} {p : Partition} {window : Word} {cause : BitVec 6} (h : s.mem.wf = true) :
    (s.dropLaunch p window cause).mem.wf = true := ite_wf h (endStarters_wf h)

theorem clearNodes_wf {s : State} {p : Partition} {window : Word} (h : s.mem.wf = true) :
    (s.clearNodes p window).mem.wf = true := by
  unfold State.clearNodes
  split
  · exact h
  · refine ite_wf h (foldl_wf (fun _ _ ha => ?_) h)
    split
    · exact wf_write _ _ _ ha
    · exact ha

theorem launch_wf {s : State} {p : Partition} {window : Word} {seq : BitVec 32} (h : s.mem.wf = true) :
    (s.launch p window seq).mem.wf = true := by
  unfold State.launch
  split
  · exact ite_wf (seqWrite_wf h) (beginLaunch_wf (clearNodes_wf (seqWrite_wf h)))
  · exact dropLaunch_wf (seqRecord_wf h)
  · exact dropLaunch_wf (seqRecord_wf h)

theorem promote_wf {plot : Nat} : ∀ {n : Nat} {s : State}, s.mem.wf = true → (s.promote plot n).mem.wf = true
  | 0, _, h => h
  | n + 1, s, h => by
    unfold State.promote
    split
    · exact h
    · dsimp only
      split
      · exact promote_wf (by simpa using h)
      · exact promote_wf (beginLaunch_wf (by simpa using h))

theorem launchRegister_wf {s : State} {plot reg : Nat} {v : Word} (h : s.mem.wf = true) :
    (s.launchRegister plot reg v).mem.wf = true := by
  unfold State.launchRegister
  split
  · exact h
  · exact ite_wf h (launch_wf h)

@[simp] theorem raiseMsix_mem (s : State) (vector : Nat) : (s.raiseMsix vector).mem = s.mem := by
  simp [State.raiseMsix, apply_ite State.mem]

theorem setNode_wf {s : State} {p : Partition} {g : Graph} {i faults state : Nat} (h : s.mem.wf = true) :
    (s.setNode p g i faults state).mem.wf = true := writeNode_wf h

theorem beginNode_wf {s : State} {p : Partition} {g : Graph} {i : Nat} {n : Node} (h : s.mem.wf = true) :
    (s.beginNode p g i n).mem.wf = true := by
  unfold State.beginNode
  extract_lets s1
  have h1 : s1.mem.wf = true := setNode_wf h
  split
  · exact h1
  · exact ite_wf h1 (by simpa using h1)
  · exact ite_wf (by simpa using seqWrite_wf h1) (seqWrite_wf h1)
  · exact h1

theorem nodeReady_wf {s : State} {plot graph node : Nat} (h : s.mem.wf = true) :
    (s.nodeReady plot graph node).mem.wf = true := by
  unfold State.nodeReady
  split
  · exact h
  · split
    · exact ite_wf h (beginNode_wf h)
    · exact h

theorem graphEnd_wf {s : State} {p : Partition} {id : Nat} (h : s.mem.wf = true) :
    (s.graphEnd p id).mem.wf = true := by
  unfold State.graphEnd
  split
  · exact h
  · refine ite_wf h ?_
    extract_lets s1 bad s3 s2
    clear_value bad
    have h1 : s1.mem.wf = true := by simpa [s1] using h
    have h3 : s3.mem.wf = true := by
      dsimp only [s3]
      split <;> exact endLaunch_wf h1
    have h2 : s2.mem.wf = true := by
      dsimp only [s2]
      split
      · exact h1
      · exact ite_wf (by simpa using h3) h3
    exact promote_wf h2

theorem nodeComplete_wf {s : State} {plot graph node : Nat} (h : s.mem.wf = true) :
    (s.nodeComplete plot graph node).mem.wf = true := by
  unfold State.nodeComplete
  split
  · exact h
  · split
    · exact ite_wf h (graphEnd_wf (setNode_wf h))
    · exact h

theorem abort_wf {s : State} {p : Partition} {g : Graph} {named : Nat} {unplaced : Option Nat} (h : s.mem.wf = true) :
    (s.abort p g named unplaced).mem.wf = true := by
  unfold State.abort
  extract_lets s1 s2
  have h1 : s1.mem.wf = true := h
  have h2 : s2.mem.wf = true := by
    refine foldl_wf (fun _ _ ha => ?_) h1
    split
    · exact ite_wf (setNode_wf ha) ha
    · exact ha
  exact graphEnd_wf (ite_wf h2 (endLaunch_wf h2))

theorem abortedEnds_wf {s : State} {plot : Nat} (h : s.mem.wf = true) : (s.abortedEnds plot).mem.wf = true := by
  unfold State.abortedEnds
  refine foldl_wf (fun _ _ ha => ?_) h
  split
  · exact ite_wf ha (graphEnd_wf ha)
  · exact ha

theorem gstartBegin_wf {s : State} {tile : Nat} {c : Cmd} (h : s.mem.wf = true) :
    (s.gstartBegin tile c).mem.wf = true := by
  unfold State.gstartBegin
  split
  · simpa using h
  · exact launch_wf (by simpa using h)

@[simp] theorem garmBegin_mem (s : State) (tile : Nat) (c : Cmd) : (s.garmBegin tile c).mem = s.mem := by
  unfold State.garmBegin
  split
  · simp
  · simp [apply_ite State.mem]

@[simp] theorem gdoneBegin_mem (s : State) (tile : Nat) (c : Cmd) : (s.gdoneBegin tile c).mem = s.mem := by
  unfold State.gdoneBegin
  split
  · dsimp only
    split
    · rfl
    · split
      · simp
      · simp [apply_ite State.mem]
  · simp

/-! ## Placing, starting and ending groups (`Machine/Placement.lean`) -/

@[simp] theorem place_mem (s : State) (p : Partition) (x : Candidate) (c : CodeImage) (unit earliest : Nat)
    (f : Fit) : (s.place p x c unit earliest f).mem = s.mem := by
  simp [State.place]

@[simp] theorem wake_mem (s : State) (blocks : List Nat) : (s.wake blocks).mem = s.mem := by
  simp [State.wake]

theorem placeNext_wf {s : State} {p : Partition} {x : Candidate} {c : CodeImage} {size : Nat × Nat}
    (h : s.mem.wf = true) : (s.placeNext p x c size).mem.wf = true := by
  unfold State.placeNext
  dsimp only
  split
  · simpa using h
  · split
    · exact abort_wf h
    · split
      · exact h
      · split
        · exact h
        · split <;> simpa using h

theorem groupPlacement_wf {s : State} {plot : Nat} (h : s.mem.wf = true) : (s.groupPlacement plot).mem.wf = true := by
  unfold State.groupPlacement
  split
  · exact h
  · split
    · exact h
    · split
      · split
        · exact placeNext_wf h
        · exact abort_wf h
      · exact abort_wf h

@[simp] theorem startThreads_mem (p : Partition) (x : Graph) (g : Group) (tile : Nat) :
    ∀ (ks : List Nat) (es : List (BitVec 2 × Nat)) (s : State), (s.startThreads p x g tile ks es).mem = s.mem
  | [], _, _ => rfl
  | _ :: _, [], _ => rfl
  | k :: ks, e :: es, s => by
    unfold State.startThreads
    rw [startThreads_mem p x g tile ks es, modThread_mem]

@[simp] theorem startPool_mem (s : State) (tile : Nat) : (s.startPool tile).mem = s.mem := by
  simp [State.startPool, apply_ite State.mem]

theorem prepareTile_wf {s : State} {g : Group} {text sp : List Byte} {tile : Nat} (h : s.mem.wf = true) :
    (s.prepareTile g text sp tile).mem.wf = true := by
  unfold State.prepareTile
  extract_lets base resident s1 s2 s3
  have h1 : s1.mem.wf = true := ite_wf h (wf_writeBytes _ _ _ h)
  have h2 : s2.mem.wf = true := storeBytes_wf _ _ _ _ _ _ h1
  simpa [s3] using h2

@[simp] theorem noteIdle_mem (s : State) (g : Group) : (s.noteIdle g).mem = s.mem := by
  simp [State.noteIdle]

theorem dropGroup_wf {s : State} {p : Partition} {x : Graph} {g : Group} (h : s.mem.wf = true) :
    (s.dropGroup p x g).mem.wf = true := by
  unfold State.dropGroup
  extract_lets s1
  have h1 : s1.mem.wf = true := by
    rw [modNode_mem]
    exact h
  exact abort_wf (by simpa using h1)

theorem groupStart_wf {s : State} {gid : Nat} (h : s.mem.wf = true) : (s.groupStart gid).mem.wf = true := by
  unfold State.groupStart
  split
  · split
    · exact h
    · split
      · exact h
      · split
        · split
          · extract_lets s1 s2
            have h1 : s1.mem.wf = true := foldl_wf (fun _ _ ha => prepareTile_wf ha) h
            have h2 : s2.mem.wf = true := foldl_wf (fun _ _ ha => by simpa using ha) h1
            exact h2
          · exact dropGroup_wf h
        · exact dropGroup_wf h
  · exact h

theorem endImage_wf {s : State} {m : Image} (h : s.mem.wf = true) : (s.endImage m).mem.wf = true := by
  unfold State.endImage
  extract_lets s1 s2
  have h1 : s1.mem.wf = true := endDomain_wf (ite_wf (undo_wf h) h)
  have h2 : s2.mem.wf = true := foldl_wf (fun _ _ ha => by simpa using ha) h1
  exact h2

theorem freeGroup_wf {s : State} {g : Group} (h : s.mem.wf = true) : (s.freeGroup g).mem.wf = true := by
  unfold State.freeGroup
  extract_lets s1 s2 s3
  have h1 : s1.mem.wf = true := foldl_wf (fun _ _ ha => endImage_wf ha) h
  have h2 : s2.mem.wf = true := foldl_wf (fun _ _ ha => by simpa using ha) h1
  have h3 : s3.mem.wf = true := foldl_wf (fun _ _ ha => by simpa using ha) h2
  simpa using h3

theorem countEnd_wf {s : State} {g : Group} {faulted : Bool} (h : s.mem.wf = true) :
    (s.countEnd g faulted).mem.wf = true := by
  unfold State.countEnd
  extract_lets s1
  have h1 : s1.mem.wf = true := h
  split
  · split
    · exact ite_wf (writeNode_wf h1) h1
    · exact h1
  · exact h1

theorem endTerminated_wf {s : State} {g : Group} (h : s.mem.wf = true) : (s.endTerminated g).mem.wf = true :=
  ite_wf (freeGroup_wf (countEnd_wf h)) h

theorem groupEnd_wf {s : State} {gid : Nat} (h : s.mem.wf = true) : (s.groupEnd gid).mem.wf = true := by
  unfold State.groupEnd
  split
  · exact ite_wf h (ite_wf (endTerminated_wf h) (ite_wf h (freeGroup_wf (countEnd_wf h))))
  · exact h

@[simp] theorem blockGate_mem (s : State) (block : Nat) : (s.blockGate block).mem = s.mem := by
  simp [State.blockGate, apply_ite State.mem]

@[simp] theorem blockWake_mem (s : State) (block : Nat) : (s.blockWake block).mem = s.mem := by
  simp [State.blockWake, apply_ite State.mem]

/-! ## The steps of a command (`Machine/Engines.lean`) -/

@[simp] theorem tokenReset_mem (s : State) (tile : Nat) (c : Cmd) : (s.tokenReset tile c).mem = s.mem := by
  simp [State.tokenReset, foldl_mem, apply_ite State.mem]

@[simp] theorem tokenQuery_mem (s : State) (tile : Nat) (c : Cmd) : (s.tokenQuery tile c).mem = s.mem := by
  simp [State.tokenQuery]

theorem commandStart_wf {s : State} {tile : Nat} {c : Cmd} (h : s.mem.wf = true) :
    (s.commandStart tile c).mem.wf = true := by
  unfold State.commandStart
  split
  · exact configBegin_wf h
  · exact configBegin_wf h
  · exact configBegin_wf h
  · exact configBegin_wf h
  · exact configBegin_wf h
  · simpa using h
  · simpa using h
  · exact drainBegin_wf h
  · exact drainBegin_wf h
  · simpa using h
  · simpa using h
  · exact streamBegin_wf h
  · exact streamBegin_wf h
  · exact streamBegin_wf h
  · exact streamBegin_wf h
  · exact streamBegin_wf h
  · exact streamBegin_wf h
  · exact streamBegin_wf h
  · exact floadBegin_wf h
  · exact fgoBegin_wf h
  · exact fstopBegin_wf h
  · simpa using h
  · exact fgetBegin_wf h
  · simpa using h
  · simpa using h
  · simpa using h
  · simpa using h
  · exact gstartBegin_wf h
  · simpa using h
  · simpa using h
  · simpa using h

theorem commandBegin_wf {s : State} {tile : Nat} {c : Cmd} (h : s.mem.wf = true) :
    (s.commandBegin tile c).mem.wf = true := ite_wf h (ite_wf (by simpa using h) (ite_wf h (commandStart_wf h)))

theorem performInHand_wf {s : State} {tile : Nat} {c : Cmd} (h : s.mem.wf = true) :
    (s.performInHand tile c).mem.wf = true := ite_wf (copyPut_wf h) (sieveStep_wf h)

theorem commandStep_wf {s : State} {tile : Nat} {c : Cmd} (h : s.mem.wf = true) :
    (s.commandStep tile c).mem.wf = true := by
  unfold State.commandStep
  split
  · exact ite_wf h (by simpa using h)
  · split
    · exact h
    · split
      · exact ite_wf (performInHand_wf h) h
      · split
        · exact copyStep_wf h
        · exact copyStep_wf h
        · exact copyStep_wf h
        · exact sieveStep_wf h
        · exact sieveStep_wf h
        · exact drainStep_wf h
        · exact drainStep_wf h
        · exact h
  · exact h

@[simp] theorem thawStreams_mem (s : State) (tile id : Nat) : (s.thawStreams tile id).mem = s.mem := by
  simp [State.thawStreams]

@[simp] theorem releaseCmd_mem (s : State) (tile : Nat) (c : Cmd) : (s.releaseCmd tile c).mem = s.mem := by
  unfold State.releaseCmd
  split
  · dsimp only
    split <;> split <;> simp
  · rfl

@[simp] theorem killCmd_mem (s : State) (tile : Nat) (c : Cmd) (cause : BitVec 6) :
    (s.killCmd tile c cause).mem = s.mem := by
  unfold State.killCmd
  split
  · dsimp only
    split <;> simp [foldl_mem]
  · simp

@[simp] theorem terminateCmd_mem (s : State) (tile : Nat) (c : Cmd) : (s.terminateCmd tile c).mem = s.mem := by
  unfold State.terminateCmd
  split
  · simp
  · rfl

theorem withCmd_nextWf {tile cmd : Nat} {f : Cmd → State} {s : State} (hf : ∀ c, (f c).mem.wf = true)
    (h : s.mem.wf = true) : NextWf (withCmd tile cmd f s) := by
  unfold withCmd
  split
  · trivial
  · split
    · exact hf _
    · exact h

/-! ## Control tokens and links (`Machine/Links.lean`) -/

@[simp] theorem columnReplied_mem (s : State) (tile col : Nat) : (s.columnReplied tile col).mem = s.mem := by
  unfold State.columnReplied
  dsimp only
  split
  · rfl
  · split
    · rfl
    · simp

theorem handToken_wf {s : State} {t : CtlToken} (h : s.mem.wf = true) : (s.handToken t).mem.wf = true :=
  ite_wf h (log_wf _ _ h)

@[simp] theorem forwardToken_mem (s : State) (tile : Nat) (t : CtlToken) : (s.forwardToken tile t).mem = s.mem := by
  simp [State.forwardToken]

theorem deliverControl_wf {s : State} {tile : Nat} (h : s.mem.wf = true) : (s.deliverControl tile).mem.wf = true := by
  unfold State.deliverControl
  dsimp only
  split
  · exact h
  · split
    · exact h
    · exact ite_wf (handToken_wf h) (by simpa using h)

theorem takeTokens_wf {s : State} {tile : Nat} (h : s.mem.wf = true) : (s.takeTokens tile).mem.wf = true :=
  foldl_wf (fun _ _ ha => handToken_wf ha) h

@[simp] theorem modOutput_mem (s : State) (p : TeId) (f : TE → TE) : (s.modOutput p f).mem = s.mem := by
  simp [State.modOutput]

@[simp] theorem beginAudit_mem (s : State) (l : LinkAt) : (s.beginAudit l).mem = s.mem := by
  simp [State.beginAudit]

@[simp] theorem linkAudit_mem (s : State) (l : LinkAt) : (s.linkAudit l).mem = s.mem := by
  simp [State.linkAudit, apply_ite State.mem]

theorem correctedEvents_wf {s : State} {u : CounterId} {n : Nat} (h : s.mem.wf = true) :
    (s.correctedEvents u n).mem.wf = true := foldl_wf (fun _ _ ha => correctedEvent_wf ha) h

theorem auditReport_wf {s : State} {l : LinkAt} (h : s.mem.wf = true) : (s.auditReport l).mem.wf = true := by
  unfold State.auditReport
  extract_lets d p s1 s2
  refine ite_wf h (correctedEvents_wf ?_)
  dsimp only [s2]
  split
  · simpa [s1] using h
  · simpa [s1] using h

theorem parityFailure_wf {s : State} {l : LinkAt} {f : LinkFault} (h : s.mem.wf = true) :
    (s.parityFailure l f).mem.wf = true := by
  unfold State.parityFailure
  dsimp only
  split
  · simpa using h
  · exact correctedEvent_wf (by simpa using h)
  · simpa using h

theorem queueOverflow_wf {s : State} {p : TeId} {d : Nat} (h : s.mem.wf = true) :
    (s.queueOverflow p d).mem.wf = true := by
  unfold State.queueOverflow
  split
  · exact h
  · extract_lets s1
    have h1 : s1.mem.wf = true := h
    split
    · exact h1
    · exact ite_wf (discardInstance_wf h1) (log_wf _ _ (stopImage_wf h1))

/-! ## Far writes (`Machine/Far.lean`) -/

theorem farUnanswered_wf {s : State} {w : FarWrite} {a : FarAmo} (h : s.mem.wf = true) :
    (s.farUnanswered w a).mem.wf = true := by
  unfold State.farUnanswered
  split
  · exact h
  · simpa using stopImage_wf h

theorem amocFar_wf {s : State} {place : Nat} {a : FarAmo} (h : s.mem.wf = true) :
    (s.amocFar place a).2.mem.wf = true := wf_writeLe _ _ _ _ h

@[simp] theorem dropLater_mem (s : State) (w : FarWrite) : (s.dropLater w).mem = s.mem := by
  simp [State.dropLater]

@[simp] theorem lateBad_mem (s : State) (tile : Nat) (c : Cmd) : (s.lateBad tile c).mem = s.mem := by
  simp [State.lateBad]

theorem refuseFar_wf {s : State} {w : FarWrite} (h : s.mem.wf = true) : (s.refuseFar w).mem.wf = true := by
  unfold State.refuseFar
  split
  · extract_lets s1
    have h1 : s1.mem.wf = true := by simpa [s1] using h
    exact ite_wf (streamFault_wf h1) (by simpa using engineLog_wf h1)
  · exact elementFault_wf (by simpa using h)
  · extract_lets s1
    have h1 : s1.mem.wf = true := farRecord_wf h
    split
    · exact h1
    · exact farUnanswered_wf h1

theorem landFar_wf {s : State} {w : FarWrite} (h : s.mem.wf = true) : (s.landFar w).mem.wf = true := by
  unfold State.landFar
  split
  · exact refuseFar_wf h
  · split
    · exact landBytes_wf _ _ h
    · extract_lets r
      have hr : r.2.mem.wf = true := amocFar_wf h
      split
      · exact hr
      · simpa using hr

theorem farFail_wf {s : State} {w : FarWrite} (h : s.mem.wf = true) : (s.farFail w).mem.wf = true := by
  have h1 : s.draw.2.mem.wf = true := h
  have landed : (match w.atomic with
      | none => s.draw.2.landBytes w
      | some a => (s.draw.2.amocFar w.place a).2).mem.wf = true := by
    split
    · exact landBytes_wf _ _ h1
    · exact amocFar_wf h1
  unfold State.farFail
  dsimp only
  split
  · exact farRecord_wf (ite_wf landed h1)
  · split
    · exact farRecord_wf (ite_wf landed h1)
    · rw [killCmd_mem, dropLater_mem]
      exact farRecord_wf (ite_wf landed h1)
  · split
    · exact farRecord_wf (ite_wf landed h1)
    · rw [killCmd_mem, dropLater_mem]
      exact farRecord_wf (ite_wf landed h1)
  · exact ite_wf (farUnanswered_wf (farRecord_wf (ite_wf landed h1))) (farRecord_wf (ite_wf landed h1))

theorem endEach_wf {test : FarWrite → Bool} {f : State → FarWrite → State}
    (hf : ∀ a w, a.mem.wf = true → (f a w).mem.wf = true) :
    ∀ {n : Nat} {s : State}, s.mem.wf = true → (s.endEach test f n).mem.wf = true
  | 0, _, h => h
  | n + 1, s, h => by
    unfold State.endEach
    split
    · exact h
    · exact endEach_wf hf (hf _ _ h)

theorem endFar_wf {s : State} {test : FarWrite → Bool} {f : State → FarWrite → State}
    (hf : ∀ a w, a.mem.wf = true → (f a w).mem.wf = true) (h : s.mem.wf = true) : (s.endFar test f).mem.wf = true :=
  endEach_wf hf h

theorem farTurn_wf {s : State} (h : s.mem.wf = true) : s.farTurn.mem.wf = true :=
  endFar_wf (fun _ _ ha => landFar_wf ha) (endFar_wf (fun _ _ ha => farFail_wf ha) h)

/-! ## Switches, timeouts and other packages (`Machine/Network.lean`) -/

@[simp] theorem engineArrived_mem (s : State) (tile : Nat) (who : EngineId) :
    (s.engineArrived tile who).mem = s.mem := by
  unfold State.engineArrived
  split <;> simp

@[simp] theorem engineReply_mem (s : State) (level egress : Nat) (p : Packet) (target : Nat) (space : Space)
    (place bytes : Nat) (write : Bool) : (s.engineReply level egress p target space place bytes write).mem = s.mem := by
  unfold State.engineReply
  dsimp only
  split
  · simp
  · rfl

@[simp] theorem arrive_mem (s : State) (level egress : Nat) (p : Packet) : (s.arrive level egress p).mem = s.mem := by
  unfold State.arrive
  split
  · split
    · rfl
    · simp
  · simp
  · simp
  · simp
  · simp [apply_ite State.mem]
  · simp
  · simp
  · simp
  · simp
  · rfl

theorem packetRecord_wf {s : State} {level unit egress : Nat} {p : Packet} (h : s.mem.wf = true) :
    (s.packetRecord level unit egress p).mem.wf = true := log_wf _ _ h

theorem dropPacket_wf {s : State} {level unit egress : Nat} {p : Packet} (h : s.mem.wf = true) :
    (s.dropPacket level unit egress p).mem.wf = true := by
  unfold State.dropPacket
  extract_lets s1 stopImage
  have h1 : s1.mem.wf = true := packetRecord_wf h
  have hstop (t : TeId) {a : State} (ha : a.mem.wf = true) : (stopImage t a).mem.wf = true := by
    dsimp only [stopImage]
    split
    · exact ha
    · exact discardInstance_wf ha
  split
  · split
    · exact h1
    · exact takeTrap_wf (by simpa using h1)
  · split
    · exact h1
    · exact takeTrap_wf (by simpa using h1)
  · simpa using h1
  · exact hstop _ (by simpa using h1)
  · exact hstop _ (by simpa using h1)
  · exact hstop _ h1
  · exact h1
  · simpa using h
  · exact h
  · exact h

theorem pass_wf {s : State} {level unit egress queue : Nat} {p : Packet} (h : s.mem.wf = true) :
    (s.pass level unit egress queue p).mem.wf = true := by
  unfold State.pass
  split
  · exact dropPacket_wf h
  · split
    · simpa using h
    · exact h

theorem arbitrate_wf {s : State} {level unit egress : Nat} (h : s.mem.wf = true) :
    (s.arbitrate level unit egress).mem.wf = true := by
  unfold State.arbitrate
  dsimp only
  split
  · exact h
  · split
    · exact h
    · exact pass_wf (ite_wf h h)

@[simp] theorem writeSettings_mem (s : State) (level unit egress : Nat) (v : Word) :
    (s.writeSettings level unit egress v).mem = s.mem := by
  simp [State.writeSettings]

@[simp] theorem linkTurn_mem (s : State) (tile : Nat) : (s.linkTurn tile).mem = s.mem := by
  unfold State.linkTurn
  dsimp only
  split
  · simp
  · split <;> simp

@[simp] theorem enterSwitch_mem (s : State) (level unit : Nat) : (s.enterSwitch level unit).mem = s.mem := by
  simp [State.enterSwitch, apply_ite State.mem]

theorem loadTimeout_wf {s : State} {tile slot k : Nat} {pairLost : Bool} (h : s.mem.wf = true) :
    (s.loadTimeout tile slot k pairLost).mem.wf = true := by
  unfold State.loadTimeout
  split
  · exact h
  · exact ite_wf (takeTrap_wf h) h

theorem storeTimeout_wf {s : State} {tile slot : Nat} {space : Space} {pairLost : Bool} (h : s.mem.wf = true) :
    (s.storeTimeout tile slot space pairLost).mem.wf = true := by
  unfold State.storeTimeout
  dsimp only
  split
  · exact h
  · split
    · exact endFar_wf (fun _ _ ha => farFail_wf ha) h
    · split
      · exact log_wf _ _ (ite_wf (perform_wf h) h)
      · exact h

theorem commandTimeout_wf {s : State} {tile : Nat} {c : Cmd} {pairLost : Bool} (h : s.mem.wf = true) :
    (s.commandTimeout tile c pairLost).mem.wf = true := by
  unfold State.commandTimeout
  extract_lets overdue late
  exact ite_wf (endFar_wf (fun _ _ ha => farFail_wf ha) h) (ite_wf (by simpa using engineLog_wf h) h)

theorem requestTimeout_wf {s : State} {t : TimeoutTarget} {pairLost : Bool} (h : s.mem.wf = true) :
    (s.requestTimeout t pairLost).mem.wf = true := by
  unfold State.requestTimeout
  split
  · exact loadTimeout_wf h
  · exact storeTimeout_wf h
  · split
    · exact h
    · exact commandTimeout_wf h
  · exact chainTimeout_wf (endFar_wf (fun _ _ ha => farFail_wf ha) h)

@[simp] theorem replyRemote_mem (s : State) (r : RemoteReq) (status : Nat) (bs : List Byte) :
    (s.replyRemote r status bs).mem = s.mem := by
  simp [State.replyRemote]

theorem logRemote_wf {s : State} {r : RemoteReq} {cause src : Nat} (h : s.mem.wf = true) :
    (s.logRemote r cause src).mem.wf = true := log_wf _ _ h

theorem serveRemote_wf {s : State} {r : RemoteReq} (h : s.mem.wf = true) : (s.serveRemote r).mem.wf = true := by
  unfold State.serveRemote
  dsimp only
  split
  · simpa using h
  all_goals
    rw [replyRemote_mem]
    exact wf_writeLe _ _ _ _ h

@[simp] theorem remoteLost_mem (s : State) (r : RemoteReq) : (s.remoteLost r).2.mem = s.mem := by
  unfold State.remoteLost
  dsimp only
  split
  · simp
  · rfl

theorem answerRemote_wf {s : State} {r : RemoteReq} (h : s.mem.wf = true) : (s.answerRemote r).mem.wf = true := by
  unfold State.answerRemote
  split
  · simpa using ite_wf h (logRemote_wf h)
  · exact ite_wf (by simpa using ite_wf h (logRemote_wf h)) (serveRemote_wf h)

theorem remoteArrival_wf {s : State} {r : RemoteReq} (h : s.mem.wf = true) : (s.remoteArrival r).mem.wf = true :=
  ite_wf (by simpa using h) (answerRemote_wf (by simpa using h))

@[simp] theorem loseModule_mem (s : State) (die md : Nat) : (s.loseModule die md).mem = s.mem := by
  simp [State.loseModule]

theorem logLost_wf {s : State} {die other : Nat} (h : s.mem.wf = true) : (s.logLost die other).mem.wf = true :=
  log_wf _ _ h

theorem retrainFailure_wf {s : State} {die md : Nat} (h : s.mem.wf = true) :
    (s.retrainFailure die md).mem.wf = true := by
  unfold State.retrainFailure
  split
  · exact ite_wf (logLost_wf h) h
  · split <;> exact ite_wf (logLost_wf (by simpa using h)) (by simpa using h)

theorem flitReplay_wf {s : State} {die md : Nat} (h : s.mem.wf = true) : (s.flitReplay die md).mem.wf = true :=
  correctedEvent_wf h

/-! ## Stop waves, termination and resets (`Machine/Preempt.lean`) -/

@[simp] theorem sendStop_mem (s : State) (p : Partition) (block : Nat) : (s.sendStop p block).mem = s.mem := by
  simp [State.sendStop]

@[simp] theorem stopWord_mem (s : State) (part : Nat) : (s.stopWord part).mem = s.mem := by
  unfold State.stopWord
  split
  · rfl
  · simp [foldl_mem]

theorem discardCounted_wf {s : State} {tile slot : Nat} {cause : BitVec 6} (h : s.mem.wf = true) :
    (s.discardCounted tile slot cause).mem.wf = true := ite_wf h (ite_wf (takeTrap_wf h) (by simpa using h))

theorem stopWaveThread_wf {s : State} {tile slot : Nat} (h : s.mem.wf = true) :
    (s.stopWaveThread tile slot).mem.wf = true := discardCounted_wf h

theorem stopWaveImage_wf {s : State} {m : Image} (h : s.mem.wf = true) : (s.stopWaveImage m).mem.wf = true :=
  ite_wf (commitInstance_wf h) (discardInstance_wf h)

@[simp] theorem dropTlbs_mem (s : State) (part tile : Nat) : (s.dropTlbs part tile).mem = s.mem := by
  simp [State.dropTlbs]

theorem stopTile_wf {s : State} {part tile : Nat} (h : s.mem.wf = true) : (s.stopTile part tile).mem.wf = true := by
  unfold State.stopTile
  extract_lets s1 s2
  have h1 : s1.mem.wf = true := foldl_wf (fun _ _ ha => stopWaveThread_wf ha) h
  have h2 : s2.mem.wf = true := foldl_wf (fun _ _ ha => stopWaveImage_wf ha) h1
  simpa using h2

theorem performAll_wf {tile slot gid : Nat} : ∀ {fs : List InFlight} {s : State}, s.mem.wf = true →
    (s.performAll tile slot gid fs).mem.wf = true
  | [], _, h => h
  | _ :: _, _, h => by
    unfold State.performAll
    exact performAll_wf (ite_wf h (perform_wf h))

theorem endThread_wf {s : State} {tile slot : Nat} (h : s.mem.wf = true) : (s.endThread tile slot).mem.wf = true := by
  unfold State.endThread
  extract_lets th s1 s2
  have h1 : s1.mem.wf = true := performAll_wf (by simpa using h)
  have h2 : s2.mem.wf = true := by
    refine foldl_wf (fun _ _ ha => ?_) h1
    split
    · exact ite_wf (readNow_wf ha) ha
    · exact ha
  exact h2

theorem preemptCmd_wf {s : State} {tile id : Nat} (h : s.mem.wf = true) : (s.preemptCmd tile id).mem.wf = true := by
  unfold State.preemptCmd
  split
  · exact h
  · extract_lets cause s1
    have h1 : s1.mem.wf = true := by simpa [s1] using engineLog_wf h
    split
    · exact h1
    · simpa using h1

theorem preemptCmds_wf {s : State} {gid tile : Nat} (h : s.mem.wf = true) :
    (s.preemptCmds gid tile).mem.wf = true := foldl_wf (fun _ _ ha => preemptCmd_wf ha) h

theorem terminateLive_wf {s : State} {g : Group} (h : s.mem.wf = true) : (s.terminateLive g).mem.wf = true := by
  unfold State.terminateLive
  extract_lets s1 s2 s3
  have h1 : s1.mem.wf = true := foldl_wf (fun _ _ ha => stopTes_wf ha) h
  have h2 : s2.mem.wf = true := foldl_wf (fun _ _ ha => ite_wf (endThread_wf ha) ha) h1
  have h3 : s3.mem.wf = true := foldl_wf (fun _ _ ha => preemptCmds_wf ha) h2
  exact endTerminated_wf h3

theorem terminateAway_wf {s : State} {g : Group} (h : s.mem.wf = true) : (s.terminateAway g).mem.wf = true := by
  unfold State.terminateAway
  extract_lets imgs s1 s2
  have h1 : s1.mem.wf = true := foldl_wf (fun _ _ ha => by simpa using foldl_wf (fun _ _ hb => engineLog_wf hb) ha) h
  have h2 : s2.mem.wf = true := by
    rw [modPkg_mem]
    exact h1
  simpa using countEnd_wf h2

theorem terminate_wf {s : State} {gid : Nat} (h : s.mem.wf = true) : (s.terminate gid).mem.wf = true := by
  unfold State.terminate
  split
  · exact h
  · split
    · exact h
    · exact ite_wf (terminateAway_wf h) (ite_wf (endTerminated_wf h) (terminateLive_wf h))

@[simp] theorem failArmed_mem (s : State) (tile : Nat) : (s.failArmed tile).mem = s.mem := by
  unfold State.failArmed
  split
  · rfl
  · simp

theorem resetPart_wf {s : State} {p : Partition} (h : s.mem.wf = true) : (s.resetPart p).mem.wf = true := by
  unfold State.resetPart
  extract_lets s1 s2
  have h1 : s1.mem.wf = true := foldl_wf (fun _ _ ha => terminate_wf ha) h
  have h2 : s2.mem.wf = true := foldl_wf (fun _ _ ha => by simpa using ha) h1
  simpa using foldl_wf (fun _ _ ha => by simpa using ha) h2

theorem partitionReset_wf {s : State} {part : Nat} (h : s.mem.wf = true) : (s.partitionReset part).mem.wf = true := by
  unfold State.partitionReset
  split
  · exact h
  · exact ite_wf h (resetPart_wf h)

theorem resetDie_wf {s : State} {die : Nat} (h : s.mem.wf = true) : (s.resetDie die).mem.wf = true :=
  wf_filter _ _ h

theorem dieReset_wf {s : State} {die : Nat} (h : s.mem.wf = true) : (s.dieReset die).mem.wf = true :=
  ite_wf h (ite_wf h (resetDie_wf h))

theorem partStopped_wf {s : State} {p : Partition} (h : s.mem.wf = true) : (s.partStopped p).mem.wf = true := by
  unfold State.partStopped
  extract_lets s1 s2
  have h1 : s1.mem.wf = true := log_wf _ _ (by simpa using foldl_wf (fun _ _ ha => by simpa using ha) h)
  have h2 : s2.mem.wf = true := ite_wf (resetPart_wf h1) h1
  exact foldl_wf (fun _ _ ha => resetDie_wf (foldl_wf (fun _ _ hb => terminate_wf hb) ha)) h2

theorem stopWave_wf {s : State} {part tile : Nat} (h : s.mem.wf = true) : (s.stopWave part tile).mem.wf = true := by
  unfold State.stopWave
  split
  · exact h
  · split
    · exact h
    · exact ite_wf (partStopped_wf (ite_wf h (stopTile_wf h))) (ite_wf h (stopTile_wf h))

theorem swapHomes_wf {s : State} {part : Nat} (h : s.mem.wf = true) : (s.swapHomes part).mem.wf = true := by
  unfold State.swapHomes
  refine foldl_wf (fun _ _ ha => ?_) h
  extract_lets h w
  clear_value h w
  rw [modPkg_mem]
  exact ha

theorem swap_wf {s : State} {part : Nat} (h : s.mem.wf = true) : (s.swap part).mem.wf = true := by
  unfold State.swap
  split
  · exact h
  · split
    · exact h
    · extract_lets s1
      have h1 : s1.mem.wf = true := foldl_wf (fun _ _ ha => by simpa using ha) (swapHomes_wf h)
      exact h1

theorem resume_wf {s : State} {part : Nat} (h : s.mem.wf = true) : (s.resume part).mem.wf = true := by
  unfold State.resume
  split
  · exact h
  · extract_lets plots s0 s1 s2
    have h0 : s0.mem.wf = true := by
      rw [modPkg_mem, foldl_mem (by simp)]
      exact h
    have h2 : s2.mem.wf = true := by
      rw [modPart_mem, foldl_mem (by simp)]
      exact h0
    exact ite_wf (foldl_wf (fun _ _ ha => promote_wf ha) h0) (foldl_wf (fun _ _ ha => promote_wf ha) h2)

@[simp] theorem boundarySave_mem (s : State) (plot : Nat) : (s.boundarySave plot).mem = s.mem := by
  simp [State.boundarySave, foldl_mem, apply_ite State.mem]

@[simp] theorem nodeBoundary_mem (s : State) (plot part : Nat) : (s.nodeBoundary plot part).mem = s.mem := by
  simp [State.nodeBoundary]

/-! ## Management, host and boot (`Machine/Package.lean`) -/

@[simp] theorem dropLeaves_mem (s : State) (r : InvalScope) : (s.dropLeaves r).mem = s.mem := by
  simp [State.dropLeaves]

@[simp] theorem completeInvalidations_mem (s : State) : s.completeInvalidations.mem = s.mem := by
  simp [State.completeInvalidations]

theorem invalidate_wf {s : State} {r : InvalScope} (h : s.mem.wf = true) : (s.invalidate r).mem.wf = true := by
  unfold State.invalidate
  dsimp only
  simpa using foldl_wf (fun _ _ ha => ite_wf (commitInstance_wf ha) (correctedEvent_wf (discardInstance_wf ha)))
      (foldl_wf (fun _ _ ha => ite_wf (discardCounted_wf ha) ha) (by simpa using h))

theorem scrub_wf {s : State} {loc : Nat} {v : List Byte} (h : s.mem.wf = true) : (s.scrub loc v).mem.wf = true :=
  ite_wf h (wf_writeBytes _ _ _ h)

@[simp] theorem createPartition_mem (s : State) (part owner : Nat) (blocks : List Nat) :
    (s.createPartition part owner blocks).mem = s.mem := by
  simp [State.createPartition, apply_ite State.mem]

theorem moveByte_wf {s : State} {l : Nat} {b : Option Byte} (h : s.mem.wf = true) :
    (s.moveByte l b).mem.wf = true := by
  unfold State.moveByte
  split
  · exact h
  · split
    · exact wf_write _ _ _ h
    · exact h

theorem moveRecord_wf {s : State} {tile pa : Nat} {met : Bool} (h : s.mem.wf = true) :
    (s.moveRecord tile pa met).mem.wf = true := ite_wf (log_wf _ _ h) h

theorem spillWindow_wf {s : State} {tile ctx pa : Nat} (h : s.mem.wf = true) :
    (s.spillWindow tile ctx pa).mem.wf = true :=
  ite_wf h (moveRecord_wf (foldl_wf (fun _ _ ha => moveByte_wf ha) h))

theorem fillWindow_wf {s : State} {tile ctx pa : Nat} (h : s.mem.wf = true) :
    (s.fillWindow tile ctx pa).mem.wf = true := by
  unfold State.fillWindow
  extract_lets w
  exact ite_wf h (moveRecord_wf (by simpa using foldl_wf (fun _ _ ha => moveByte_wf ha) h))

theorem resumeImage_wf {s : State} {img : Nat} (h : s.mem.wf = true) : (s.resumeImage img).mem.wf = true := by
  unfold State.resumeImage
  split
  · exact h
  · exact ite_wf h (by simpa using foldl_wf (fun _ _ ha => by simpa using ha) h)

theorem abortGraph_wf {s : State} {plot graph : Nat} (h : s.mem.wf = true) :
    (s.abortGraph plot graph).mem.wf = true := by
  unfold State.abortGraph
  split
  · exact h
  · split
    · exact h
    · exact ite_wf h (abort_wf h)

theorem manage_wf {s : State} {w : MgmtWrite} (h : s.mem.wf = true) : (s.manage w).mem.wf = true := by
  cases w with
  | handlerPage tile offset v => exact ite_wf (wf_writeBytes _ _ _ h) h
  | abortGraph plot graph => exact abortGraph_wf h
  | resumeImage img => exact resumeImage_wf h
  | spillWindow tile ctx pa => exact ite_wf (spillWindow_wf h) h
  | fillWindow tile ctx pa => exact ite_wf (fillWindow_wf h) h
  | createPartition part owner blocks => exact wf_of_mem_eq (createPartition_mem s part owner blocks) h
  | blockOwner b o => exact ite_wf h h
  | partRoot part host pa => exact ite_wf h h
  | grant part level unit lo hi => exact ite_wf h h
  | contextWindow tile ctx wbase wlim spbase splim => exact ite_wf h h
  | selectContext tile ctx => exact ite_wf h h
  | packageNumber n => exact ite_wf h h
  | msixEntry vector addr data => exact ite_wf h h
  | hdmDecoder index base size => exact ite_wf h h
  | partWindow part va => exact h
  | partHandler part tvec => exact h
  | partReentryMax part v => exact h
  | partRing part base size tail => exact h
  | remoteGrant pkg owner region allow => exact h
  | packageRing base size tail => exact h
  | raiseSvn v => exact h

@[simp] theorem readCounter_mem (s : State) (c : CounterId) : (s.readCounter c).mem = s.mem := by
  simp [State.readCounter]

@[simp] theorem replyHost_mem (s : State) (ok : Bool) (bs : List Byte) : (s.replyHost ok bs).mem = s.mem := by
  simp [State.replyHost]

theorem hostWrite_wf {s : State} {pa : Nat} {v : List Byte} (h : s.mem.wf = true) :
    (s.hostWrite pa v).mem.wf = true := by
  unfold State.hostWrite
  split
  · rw [replyHost_mem]
    exact wf_writeBytes _ _ _ h
  · simpa using h

@[simp] theorem hostRead_mem (s : State) (pa n : Nat) : (s.hostRead pa n).mem = s.mem := by
  simp [State.hostRead, apply_ite State.mem]

@[simp] theorem hostConfig_mem (s : State) : s.hostConfig.mem = s.mem := by
  simp [State.hostConfig]

@[simp] theorem bootTo_mem (s : State) (code : Nat) : (s.bootTo code).mem = s.mem := by
  simp [State.bootTo]

@[simp] theorem bootFail_mem (s : State) (err : Nat) : (s.bootFail err).mem = s.mem := by
  simp [State.bootFail]

@[simp] theorem runFirmware_mem (s : State) (img : List Byte) : (s.runFirmware img).mem = s.mem := by
  simp [State.runFirmware]

theorem clearArrays_wf {s : State} (h : s.mem.wf = true) : s.clearArrays.mem.wf = true := wf_filter _ _ h

theorem bootStep_wf {s : State} {b : BootInput} (h : s.mem.wf = true) : (s.bootStep b).mem.wf = true := by
  unfold State.bootStep
  split
  · exact ite_wf (by simpa using h) (ite_wf (by simpa using h) (by simpa using h))
  · simpa using h
  · extract_lets s1
    have h1 : s1.mem.wf = true := foldl_wf (fun _ _ ha => ite_wf (retrainFailure_wf ha) ha) h
    exact ite_wf (by simpa using h1) (by simpa using h1)
  · exact ite_wf (by simpa using h) (ite_wf h (by simpa using clearArrays_wf h))
  · exact ite_wf (by simpa using h) (by simpa using h)
  · simpa using h
  · simpa using h
  · exact h

theorem coldReset_wf {s : State} (h : s.mem.wf = true) : s.coldReset.mem.wf = true := wf_filter _ _ h

@[simp] theorem attest_mem (s : State) (nonce : BitVec 256) : (s.attest nonce).mem = s.mem := by
  simp [State.attest, apply_ite State.mem]

theorem powerSample_wf {s : State} {p : PowerReading} (h : s.mem.wf = true) : (s.powerSample p).mem.wf = true :=
  ite_wf h (log_wf _ _ (foldl_wf (fun _ _ ha => by simpa using ha) h))

theorem badReg_wf {s : State} {tile slot : Nat} {r : BitVec 5} (h : s.mem.wf = true) :
    (s.badReg tile slot r).mem.wf = true := ite_wf h (ite_wf (discardCounted_wf h) h)

theorem badPred_wf {s : State} {tile slot : Nat} {p : BitVec 4} (h : s.mem.wf = true) :
    (s.badPred tile slot p).mem.wf = true := ite_wf h (ite_wf (discardCounted_wf h) h)

theorem badInstance_wf {s : State} {img : Nat} {u : CounterId} (h : s.mem.wf = true) :
    (s.badInstance img u).mem.wf = true := by
  unfold State.badInstance
  split
  · exact h
  · exact ite_wf (correctedEvent_wf (discardInstance_wf h)) h

theorem badWord_wf {s : State} {tile col row index : Nat} (h : s.mem.wf = true) :
    (s.badWord tile col row index).mem.wf = true := by
  unfold State.badWord
  dsimp only
  split
  · exact ite_wf (badInstance_wf h) h
  · exact h

theorem uncorrectable_wf : ∀ {l : ErrLoc} {s : State}, s.mem.wf = true → (s.uncorrectable l).mem.wf = true
  | .granule _, _, h => ite_wf h h
  | .wWord _ _ _ _, _, h => badWord_wf h
  | .slotHalf _ _ _ _, _, h => h
  | .sReg _ _ _, _, h => badReg_wf h
  | .pReg _ _ _, _, h => badPred_wf h
  | .held _ _ _, _, h => h
  | .accum _ _, _, h => h
  | .mapEntry _ _, _, h => h
  | .bedWord _ _, _, h => h
  | .tokenSlot _ _, _, h => h
  | .threadRegion _ _, _, h => discardCounted_wf h
  | .fabricRun img, s, h => by
    unfold State.uncorrectable
    split
    · exact h
    · exact badInstance_wf h
  | .trapRegs _ _, _, h => h
  | .snapshot _ _ _ _, _, h => h
  | .inShadow x, s, h => by
    unfold State.uncorrectable
    rw [modTile_mem]
    exact uncorrectable_wf (by simpa using h)

/-! ## The units of a cycle (`Machine/Schedule.lean`) -/

@[simp] theorem aged_mem (s : State) (tile w : Nat) : (s.aged tile w).mem = s.mem := by
  simp [State.aged, foldl_mem, apply_ite State.mem]

theorem threadUnits_wf {s : State} {t : Nat} (h : s.mem.wf = true) : (s.threadUnits t).mem.wf = true := by
  unfold State.threadUnits
  extract_lets s1 s2 s3
  have h1 : s1.mem.wf = true := by simpa [s1] using h
  have h2 : s2.mem.wf = true := forAll_wf (fun _ _ ha => forAll_wf (fun _ _ hb => by simpa using loadTimeout_wf hb)
      (performReads_wf ha)) h1
  have h3 : s3.mem.wf = true := forAll_wf (fun _ _ ha => forAll_wf (fun _ _ hb => storeAck_wf
      (storeTimeout_wf hb)) ha) h2
  exact forAll_wf (fun _ _ ha => by simpa using ha) h3

theorem engineUnits_wf {s : State} {t : Nat} (h : s.mem.wf = true) : (s.engineUnits t).mem.wf = true := by
  unfold State.engineUnits
  refine forAll_wf (fun _ _ ha => ?_) h
  split
  · exact ha
  · exact ite_wf (commandBegin_wf ha) (commandStep_wf ha)

theorem takeovers_wf {s : State} {t : Nat} (h : s.mem.wf = true) : (s.takeovers t).mem.wf = true := by
  unfold State.takeovers
  refine forAll_wf (fun _ _ ha => ?_) h
  split
  · exact ha
  · exact ite_wf (floadTakeover_wf ha) ha

theorem poolUnits_wf {s : State} {t : Nat} (h : s.mem.wf = true) : (s.poolUnits t).mem.wf = true := by
  unfold State.poolUnits
  extract_lets s1
  have h1 : s1.mem.wf = true := armedRound_wf (poolPass_wf (configWavefront_wf h))
  exact forAll_wf (fun _ _ ha => streamDeliver_wf ha) h1

@[simp] theorem frozenCycles_mem (s : State) (t : Nat) : (s.frozenCycles t).mem = s.mem := by
  simp [State.frozenCycles, apply_ite State.mem]

theorem chainCut_wf {s : State} {p : TeId} (h : s.mem.wf = true) : (s.chainCut p).mem.wf = true := chainTimeout_wf h

theorem fabricUnits_wf {s : State} {t : Nat} (h : s.mem.wf = true) : (s.fabricUnits t).mem.wf = true := by
  unfold State.fabricUnits
  extract_lets s1
  have h1 : s1.mem.wf = true := forAll_wf (fun _ _ ha => by simpa using ha) h
  exact forAll_wf (fun _ _ ha => forAll_wf (fun _ _ hb => queueOverflow_wf hb) (chainAccept_wf (sendChain_wf
      (chainCut_wf ha)))) (deliverControl_wf (takeTokens_wf h1))

theorem interfaceUnits_wf {s : State} {t : Nat} (h : s.mem.wf = true) : (s.interfaceUnits t).mem.wf = true := by
  unfold State.interfaceUnits
  simpa using forAll_wf (fun _ _ ha => presentStores_wf ha) h

@[simp] theorem gapStall_mem (s : State) (level unit : Nat) : (s.gapStall level unit).mem = s.mem := by
  simp [State.gapStall, apply_ite State.mem]

theorem homeUnits_wf {s0 : State} {level unit : Nat} (h : s0.mem.wf = true) :
    (s0.homeUnits level unit).mem.wf = true := by
  unfold State.homeUnits
  extract_lets s s1
  have hs : s.mem.wf = true := by simpa [s] using h
  have h1 : s1.mem.wf = true := forAll_wf (fun _ _ ha => chainRelease_wf ha) hs
  exact forAll_wf (fun _ _ ha => by simpa using ha) h1

theorem results_wf {s : State} {t : Nat} (h : s.mem.wf = true) : (s.results t).mem.wf = true := by
  unfold State.results
  exact threadUnits_wf h

theorem upkeep_wf {s : State} {t : Nat} (h : s.mem.wf = true) : (s.upkeep t).mem.wf = true := by
  unfold State.upkeep
  extract_lets s1
  have h1 : s1.mem.wf = true := fabricUnits_wf (by simpa using poolUnits_wf (engineUnits_wf h))
  exact interfaceUnits_wf (homeUnits_wf h1)

theorem imageUnits_wf {s : State} (h : s.mem.wf = true) : s.imageUnits.mem.wf = true :=
  forAll_wf (fun _ _ ha => chainOverflow_wf (commitInstance_wf ha)) h

theorem switchUnits_wf {s : State} (h : s.mem.wf = true) : s.switchUnits.mem.wf = true :=
  forAll_wf (fun _ _ ha => forAll_wf (fun _ _ hb => arbitrate_wf hb) (by simpa using ha)) h

theorem sequencerUnits_wf {s : State} {plot : Nat} (h : s.mem.wf = true) : (s.sequencerUnits plot).mem.wf = true := by
  unfold State.sequencerUnits
  extract_lets nodes s1
  have h1 : s1.mem.wf = true := forAll_wf (fun _ _ ha => nodeReady_wf ha) h
  simpa using abortedEnds_wf (forAll_wf (fun _ _ ha => nodeComplete_wf ha) (groupPlacement_wf h1))

theorem barrierTurn_wf {s : State} {gid : Nat} (h : s.mem.wf = true) : (s.barrierTurn gid).mem.wf = true := by
  unfold State.barrierTurn
  simpa using forAll_wf (fun _ _ ha => by simpa using ha) h

theorem groupUnits_wf {s : State} (h : s.mem.wf = true) : s.groupUnits.mem.wf = true :=
  forAll_wf (fun _ _ ha => groupEnd_wf (barrierTurn_wf (groupStart_wf ha))) h

theorem blockUnits_wf {s : State} (h : s.mem.wf = true) : s.blockUnits.mem.wf = true :=
  forAll_wf (fun _ _ ha => by simpa using ha) h

theorem auditUnits_wf {s : State} (h : s.mem.wf = true) : s.auditUnits.mem.wf = true := by
  unfold State.auditUnits
  refine forAll_wf (fun _ _ ha => ?_) h
  refine forAll_wf (fun _ _ ha => ?_) ha
  dsimp only
  split
  · exact ite_wf (auditReport_wf ha) ha
  · exact ite_wf (by simpa using ha) ha

theorem stopUnits_wf {s : State} (h : s.mem.wf = true) : s.stopUnits.mem.wf = true :=
  forAll_wf (fun _ _ ha => forAll_wf (fun _ _ hb => stopWave_wf hb) ha) h

theorem throttledCycles_wf {s : State} (h : s.mem.wf = true) : s.throttledCycles.mem.wf = true :=
  forAll_wf (fun _ _ ha => ite_wf ha ha) h

theorem packageTurn_wf {s : State} (h : s.mem.wf = true) : s.packageTurn.mem.wf = true := by
  unfold State.packageTurn
  extract_lets s1 s2 s3
  have h1 : s1.mem.wf = true := forAll_wf (fun _ _ ha => homeUnits_wf ha) (farTurn_wf h)
  have h2 : s2.mem.wf = true := forAll_wf (fun _ _ ha => sequencerUnits_wf ha) (switchUnits_wf (imageUnits_wf h1))
  have h3 : s3.mem.wf = true := bankTurn_wf (by simpa using throttledCycles_wf (stopUnits_wf (auditUnits_wf
      (blockUnits_wf (groupUnits_wf h2)))))
  clear_value s1 s2 s3
  exact h3

end Sys2Proof.Machine
end

section
/-! SUPPORT. Every instruction and every event keeps the canonical form of memory, and so does every step (R6). -/

namespace Sys2Proof.Machine

theorem ite_state_wf {c : Prop} [Decidable c] {a b : Body} (ha : a.state.mem.wf = true) (hb : b.state.mem.wf = true) :
    (if c then a else b).state.mem.wf = true := by
  split
  · exact ha
  · exact hb

/-! ## Words and events whose effect is written out in their own `exec` -/

theorem execLdlit_nextWf {c : Ctl} {d : BitVec 5} {imm : BitVec 13} {s : State} (h : s.mem.wf = true) :
    NextWf (execLdlit c d imm s) := by
  refine issueWord_nextWf (fun u hu => ?_) h
  dsimp only
  split
  · exact hu
  · simpa using hu

theorem execLoop_nextWf {c : Ctl} {d : BitVec 5} {imm : BitVec 13} {s : State} (h : s.mem.wf = true) :
    NextWf (execLoop c d imm s) :=
  issueWord_nextWf (fun _ hu => ite_state_wf hu (ite_state_wf hu (branchTo_wf hu))) h

theorem execTfence_nextWf {c : Ctl} {s : State} (h : s.mem.wf = true) : NextWf (execTfence c s) :=
  issueWord_nextWf (fun _ hu => ite_state_wf hu (ite_state_wf hu hu)) h

theorem execHalt_nextWf {c : Ctl} {s : State} (h : s.mem.wf = true) : NextWf (execHalt c s) :=
  issueWord_nextWf (fun _ hu => ite_state_wf hu hu) h

theorem execRmark_nextWf {c : Ctl} {s : State} (h : s.mem.wf = true) : NextWf (execRmark c s) :=
  issueWord_nextWf (fun _ hu => ite_state_wf hu (wf_of_mem_eq (marker_mem _ _ _ _) hu)) h

theorem execMfs_nextWf {c : Ctl} {d : BitVec 5} {imm : BitVec 13} {s : State} (h : s.mem.wf = true) :
    NextWf (execMfs c d imm s) := issueWord_nextWf (fun _ hu => ite_state_wf hu hu) h

theorem execMts_nextWf {c : Ctl} {d : BitVec 5} {imm : BitVec 13} {s : State} (h : s.mem.wf = true) :
    NextWf (execMts c d imm s) :=
  issueWord_nextWf (fun _ hu => ite_state_wf hu (wf_of_mem_eq (setSreg_mem _ _ _) hu)) h

theorem execDrain_nextWf {c : Ctl} {space : BitVec 2} {s : State} (h : s.mem.wf = true) :
    NextWf (execDrain c space s) := issueWord_nextWf (fun _ hu => ite_state_wf hu hu) h

theorem execSbar_nextWf {c : Ctl} {a : BitVec 5} {s : State} (h : s.mem.wf = true) : NextWf (execSbar c a s) :=
  issueWord_nextWf (fun _ hu => ite_state_wf hu hu) h

theorem execDbar_nextWf {c : Ctl} {s : State} (h : s.mem.wf = true) : NextWf (execDbar c s) := by
  refine issueWord_nextWf (fun u hu => ?_) h
  dsimp only
  split
  · exact hu
  · exact ite_state_wf (ite_state_wf hu hu) (ite_state_wf (wf_of_mem_eq (sendArrival_mem _ _) hu) hu)

theorem execFence_nextWf {c : Ctl} {scope : BitVec 3} {s : State} (h : s.mem.wf = true) :
    NextWf (execFence c scope s) := issueWord_nextWf (fun _ hu => ite_state_wf hu hu) h

theorem execWfe_nextWf {c : Ctl} {a : BitVec 5} {s : State} (h : s.mem.wf = true) : NextWf (execWfe c a s) :=
  issueWord_nextWf (fun _ hu => ite_state_wf hu hu) h

theorem execAccrd_nextWf {c : Ctl} {d a : BitVec 5} {imm : BitVec 8} {s : State} (h : s.mem.wf = true) :
    NextWf (execAccrd c d a imm s) := by
  refine issueWord_nextWf (fun u hu => ?_) h
  dsimp only
  split
  · exact hu
  · exact ite_state_wf hu (ite_state_wf hu hu)

theorem execFloadTakeover_nextWf {tile cmd : Nat} {s : State} (h : s.mem.wf = true) :
    NextWf (execFloadTakeover tile cmd s) := by
  unfold execFloadTakeover
  refine ite_nextWf trivial ?_
  split
  · exact ite_nextWf (floadTakeover_wf h) h
  · exact h

/-! ## Every instruction -/

/-- Every instruction and event of the machine keeps the canonical form. -/
theorem exec_nextWf {i : Instr} {s : State} (h : s.mem.wf = true) : NextWf (exec i s) := by
  cases i with
  | add | sub | and | or | xor | andn | shl | shr | sra | min | max | minu | maxu | clz | popc | sext | mul
  | mulh | mulhu | bfx | bfxu | bfi | rotl | bswap | addi | andi | ori | xori | shli | shri | srai | setlo
  | setsh => exact issueWord_nextWf (fun _ hu => resultBody_wf hu) h
  | div | divu | rem | remu => exact ite_nextWf h (issueWord_nextWf (fun _ hu => divideBody_wf hu) h)
  | ldlit => exact execLdlit_nextWf h
  | cmp | cmpi | pand | por | pxor | pandn | porn | pnand | pnor =>
    exact issueWord_nextWf (fun _ hu => predBody_wf hu) h
  | ldprm => exact issueWord_nextWf (fun _ hu => paramBody_wf hu) h
  | br | call | jr | jalr | ret =>
    dsimp only [exec]
    exact issueWord_nextWf (fun _ hu => branchTo_wf hu) h
  | loop => exact execLoop_nextWf h
  | bsel => exact issueWord_nextWf (fun _ hu => bselBody_wf hu) h
  | tfence => exact execTfence_nextWf h
  | trap | eret | yield | mfsFtrap =>
    dsimp only [exec]
    exact issueWord_nextWf (fun _ hu => hu) h
  | halt => exact execHalt_nextWf h
  | rmark => exact execRmark_nextWf h
  | mfs => exact execMfs_nextWf h
  | mts => exact execMts_nextWf h
  | ldsp | ldspu | ldsh | ldshu | ldg | ldgu | ldh => exact issueWord_nextWf (fun _ hu => plainLoad_wf hu) h
  | stsp | stsh | stg | sth => exact issueWord_nextWf (fun _ hu => plainStore_wf hu) h
  | ldspi =>
    dsimp only [exec]
    exact issueWord_nextWf (fun _ hu => loadBody_wf hu) h
  | stspi =>
    dsimp only [exec]
    exact issueWord_nextWf (fun _ hu => storeBody_wf hu) h
  | ldacq => exact issueWord_nextWf (fun _ hu => acquireBody_wf hu) h
  | strel => exact issueWord_nextWf (fun _ hu => releaseBody_wf hu) h
  | amospAdd | amospAnd | amospOr | amospXor | amospMin | amospMax | amospSwap | amospCas | amoshAdd | amoshAnd
  | amoshOr | amoshXor | amoshMin | amoshMax | amoshSwap | amoshCas | amogAdd | amogAnd | amogOr | amogXor
  | amogMin | amogMax | amogSwap | amogCas | amohAdd | amohAnd | amohOr | amohXor | amohMin | amohMax
  | amohSwap | amohCas => exact issueWord_nextWf (fun _ hu => atomicBody_wf hu) h
  | drain => exact execDrain_nextWf h
  | sbar => exact execSbar_nextWf h
  | dbar => exact execDbar_nextWf h
  | fence => exact execFence_nextWf h
  | wfe => exact execWfe_nextWf h
  | twait => exact issueWord_nextWf (fun _ hu => twaitBody_wf hu) h
  | accrd => exact execAccrd_nextWf h
  | pmode | pbed | pbeds | pmap | phold | pflow | pdrain | pzero | pspan | sdef | scnt | ssub | sgo | sstop
  | sunf | srgp | shash | cpshape | cpy | cpyr | cpyf | gidx | gath | scata | fload | fgo | fstop | fput
  | tjoin | treset | gstart | garm | gdone => exact issueCommand_nextWf h
  | pstat | fget | fstat | tquery => exact issueWord_nextWf (fun _ hu => replyBody_wf hu) h
  | teMov | teClz | tePopc =>
    dsimp only [exec]
    exact fireInt1_nextWf h
  | teAdd | teSub | teMul | teMulh | teMulhu | teAnd | teOr | teXor | teAndn | teShl | teShr | teSra | teMin
  | teMax | teMinu | teMaxu | teBfx | hash =>
    dsimp only [exec]
    exact fireInt2_nextWf h
  | teCmp | sel | dot4 | fclass | fhadd | pack | unpk =>
    dsimp only [exec]
    exact fireValue_nextWf h
  | fadd | fsub | fmul =>
    dsimp only [exec]
    exact fireFp2_nextWf h
  | fma | fms | fnma =>
    dsimp only [exec]
    exact fireFp3_nextWf h
  | fmin | fmax | fcmp | fscale =>
    dsimp only [exec]
    exact fireLanes2_nextWf h
  | fabs | fneg | frnd | fexpo =>
    dsimp only [exec]
    exact fireLanes1_nextWf h
  | xexpf | xlog2 | xrcp | xrsq | xsqrt | xsin | xcos | xtanh =>
    dsimp only [exec]
    exact fireColumn_nextWf h
  | steer | merge | join | dup | gate | drop | tag | carry | done | teNop | lapset | cvt | pset | tePlog | xset
  | xadd | xcmp =>
    dsimp only [exec]
    exact fireCompute_nextWf h
  | ldcSp | stcSp | ldcSh | stcSh | ldcG | stcG | amocSp | amocSh | amocG | cskip =>
    dsimp only [exec]
    exact fireMemory_nextWf h
  | ropen =>
    dsimp only [exec]
    exact fireSpecial_nextWf (fun _ _ _ hu => runRopen_wf hu) h
  | rclose =>
    dsimp only [exec]
    exact fireSpecial_nextWf (fun _ _ _ hu => runRclose_wf hu) h
  | rabort =>
    dsimp only [exec]
    exact fireSpecial_nextWf (fun _ _ _ hu => runRabort_wf hu) h
  | teTrap =>
    dsimp only [exec]
    exact fireSpecial_nextWf (fun _ _ _ hu => fabricTrap_wf hu) h
  | dividerResult => exact ite_nextWf trivial (wf_of_mem_eq (dividerResult_mem _ _) h)
  | loadReply => exact ite_nextWf trivial (wf_of_mem_eq (loadReply_mem _ _ _ _) h)
  | commandBufferDeparture => exact ite_nextWf trivial (wf_of_mem_eq (departure_mem _ _ _) h)
  | engineCommandBegin => exact withCmd_nextWf (fun _ => commandBegin_wf h) h
  | engineCommandComplete => exact withCmd_nextWf (fun _ => commandStep_wf h) h
  | controlTokenDelivery => exact ite_nextWf trivial (deliverControl_wf h)
  | illegal => exact trapNow_wf h
  | storeAcknowledgement => exact ite_nextWf trivial (storeAck_wf h)
  | poolPass => exact ite_nextWf trivial (poolPass_wf h)
  | configWavefront => exact ite_nextWf trivial (configWavefront_wf h)
  | streamElementDelivery => exact ite_nextWf trivial (streamDeliver_wf h)
  | floadTakeover => exact execFloadTakeover_nextWf h
  | releaseFrozenCommand => exact withCmd_nextWf (fun _ => wf_of_mem_eq (releaseCmd_mem _ _ _) h) h
  | columnUnitReply => exact ite_nextWf trivial (wf_of_mem_eq (columnReplied_mem _ _ _) h)
  | chainAccessAccept => exact ite_nextWf trivial (chainAccept_wf h)
  | chainRelease => exact chainRelease_wf h
  | chainOverflow => exact chainOverflow_wf h
  | instanceCommit => exact commitInstance_wf h
  | linkAudit => exact ite_nextWf (wf_of_mem_eq (linkAudit_mem _ _) h) trivial
  | auditReport => exact ite_nextWf (auditReport_wf h) trivial
  | linkParityFailure => exact ite_nextWf (parityFailure_wf h) trivial
  | queueOverflow => exact ite_nextWf trivial (queueOverflow_wf h)
  | egressArbitration => exact ite_nextWf (arbitrate_wf h) trivial
  | barrierArrival => exact wf_of_mem_eq (barrierArrival_mem _ _) h
  | requestTimeout => exact ite_nextWf (requestTimeout_wf h) trivial
  | remoteRequestArrival => exact remoteArrival_wf h
  | ucieRetrainFailure => exact ite_nextWf (retrainFailure_wf h) trivial
  | ucieFlitReplay => exact ite_nextWf (flitReplay_wf h) trivial
  | launchRegisterWrite => exact ite_nextWf trivial (launchRegister_wf h)
  | nodeReady => exact ite_nextWf trivial (nodeReady_wf h)
  | nodeComplete => exact ite_nextWf trivial (nodeComplete_wf h)
  | groupPlacement => exact ite_nextWf trivial (groupPlacement_wf h)
  | groupStart => exact groupStart_wf h
  | groupEnd => exact groupEnd_wf h
  | blockGate => exact ite_nextWf trivial (wf_of_mem_eq (blockGate_mem _ _) h)
  | blockWakeComplete => exact ite_nextWf trivial (wf_of_mem_eq (blockWake_mem _ _) h)
  | armedRound => exact ite_nextWf trivial (armedRound_wf h)
  | stopWordWrite => exact wf_of_mem_eq (stopWord_mem _ _) h
  | stopWaveArrival => exact ite_nextWf trivial (stopWave_wf h)
  | swap => exact swap_wf h
  | resume => exact resume_wf h
  | terminate => exact terminate_wf h
  | nodeBoundaryPreemption => exact ite_nextWf trivial (wf_of_mem_eq (nodeBoundary_mem _ _ _) h)
  | translationInvalidation => exact invalidate_wf h
  | switchSettingsWrite => exact ite_nextWf (wf_of_mem_eq (writeSettings_mem _ _ _ _ _) h) trivial
  | granuleScrub => exact scrub_wf h
  | managementRegisterWrite => exact manage_wf h
  | counterRead => exact wf_of_mem_eq (readCounter_mem _ _) h
  | hostCxlMemWrite => exact hostWrite_wf h
  | hostCxlMemRead => exact wf_of_mem_eq (hostRead_mem _ _ _) h
  | hostConfigRequest => exact wf_of_mem_eq (hostConfig_mem _) h
  | hostAtomicop => exact wf_of_mem_eq (replyHost_mem _ _ _) h
  | attestationNonceWrite => exact wf_of_mem_eq (attest_mem _ _) h
  | coldReset => exact coldReset_wf h
  | dieReset => exact ite_nextWf trivial (dieReset_wf h)
  | partitionReset => exact partitionReset_wf h
  | bootStep => exact bootStep_wf h
  | powerSample => exact ite_nextWf trivial (powerSample_wf h)
  | sramScrub => exact ite_wf (correctedEvent_wf h) h
  | uncorrectableError => exact ite_nextWf (uncorrectable_wf h) trivial
  | terminateFrozenCommand => exact withCmd_nextWf (fun _ => wf_of_mem_eq (terminateCmd_mem _ _ _) h) h
  | chainLoadReply => exact wf_of_mem_eq (chainLoadReply_mem _ _ _ _) h

/-! ## Every action of a step -/

theorem runFetched_nextWf {s : State} {f : Fetched} (h : s.mem.wf = true) : NextWf (s.runFetched f) := by
  cases f with
  | instr i => exact exec_nextWf h
  | illegal w => exact trapNow_wf h
  | outside => exact trapNow_wf h

theorem poll_nextWf {s : State} {tile slot : Nat} (h : s.mem.wf = true) : NextWf (s.poll tile slot) := by
  unfold State.poll
  exact ite_nextWf (runFetched_nextWf h) h

theorem issue_nextWf {s : State} {tile : Nat} (h : s.mem.wf = true) : NextWf (s.issue tile) := by
  unfold State.issue
  split
  · exact h
  · exact runFetched_nextWf (by simpa using h)

theorem encoder_nextWf {s : State} {p : TeId} (h : s.mem.wf = true) : NextWf (s.encoder p) := by
  unfold State.encoder
  split
  · exact ite_wf (by simpa using h) h
  · exact exec_nextWf h

theorem act_nextWf {s : State} {a : Action} (h : s.mem.wf = true) : NextWf (s.act a) := by
  cases a with
  | takeovers => exact forAll_wf (fun _ _ ha => takeovers_wf ha) h
  | results t => exact results_wf h
  | units t => exact upkeep_wf h
  | poll t k => exact poll_nextWf h
  | issue t => exact issue_nextWf h
  | te t c r => exact encoder_nextWf h
  | package => exact packageTurn_wf h
  | event i => exact exec_nextWf h

theorem step_nextWf {s : State} (h : s.mem.wf = true) : NextWf (step s) := by
  unfold step
  split
  · exact h
  · exact act_nextWf h

/-- Settles O59: a step plans or acts, and everything that an action runs writes memory only through operations that
keep its canonical form. -/
theorem stepsKeepMemoryCanonical : Obligations.StepsKeepMemoryCanonical := by
  unfold Obligations.StepsKeepMemoryCanonical
  intro s t h e
  exact (nextWf_iff _).1 (step_nextWf h) t e

end Sys2Proof.Machine
end

section
/-! SUPPORT. The state after a cold reset: what every part of it reads (R413), and O56. -/

namespace Sys2Proof.Machine

/-- An element of a vector that repeats the value read outside it is that value. -/
theorem vget_replicate {α : Type} (n i : Nat) (d : α) : vget (Vector.replicate n d) i d = d := by
  unfold vget
  by_cases h : i < n <;> simp [h]

@[simp] theorem reset_ctx (n : Nat) : State.reset.ctx n = {} := rfl
@[simp] theorem reset_te (n c r : Nat) : State.reset.te n c r = {} := rfl
@[simp] theorem reset_switch (level unit : Nat) : State.reset.switch level unit = {} := rfl
@[simp] theorem reset_thread (n k : Nat) : State.reset.thread n k = {} := vget_replicate 4 k ({} : Thread)
@[simp] theorem reset_token (n k : Nat) : State.reset.token n k = {} := vget_replicate 64 k ({} : TokenSlot)

/-- Every egress of a switch stands as R254 gives it. -/
theorem reset_egress (level unit e : Nat) : vget (State.reset.switch level unit).egress e {} = {} :=
  vget_replicate 6 e ({} : Egress)

/-- In the settings of the reset AGE_MAX is 32 and each of the six weights 1 (R254). -/
theorem egress_default_settings :
    bits ({} : Egress).settings 7 0 = 32 ∧ ∀ p, p < 6 → bits ({} : Egress).settings (11 + 4 * p) (8 + 4 * p) = 1 := by
  decide

/-- Settles O56: at the reset nothing is listed, and what is not listed reads as its default. -/
theorem resetLeavesNothingRunning : Obligations.ResetLeavesNothingRunning := by
  refine ⟨rfl, rfl, rfl, rfl, rfl, rfl, rfl, fun _ => rfl, fun tile => ⟨?_, ?_, ?_, rfl, rfl, fun level unit e => ?_⟩⟩
  · simp
  · simp
  · simp
  · rw [reset_egress]
    exact egress_default_settings

end Sys2Proof.Machine
end

section
/-! SUPPORT. Words that change their thread and nothing else (R39, R40, R52, R55, R342): how the state that such a word
leaves relates to the one it found. -/

namespace Sys2Proof.Machine

open Sys2Proof.Claims

/-! ## What the start of a cycle and the entry of a word leave of the thread -/

/-- The thread without its registers, its predicates and the results on their way to them: what the results that are due
leave alone. -/
def Thread.sansValues (th : Thread) : Thread :=
  { th with regs := Vector.replicate 32 0#64, preds := 0#16, poisonR := 0#32, poisonP := 0#16, pend := [] }

theorem land_sansValues (th : Thread) (p : Pending) : (th.land p).sansValues = th.sansValues := by
  unfold Thread.land Thread.setReg Thread.setPred
  split <;> split <;> rfl

theorem landAll_sansValues : ∀ (l : List Pending) (th : Thread), (landAll l th).sansValues = th.sansValues
  | [], _ => rfl
  | p :: ps, th => (landAll_sansValues ps (th.land p)).trans (land_sansValues th p)

/-- What depends on neither registers nor predicates stands at the start of the cycle as before it. -/
theorem begin_keeps {α : Type} (f : Thread → α) (hf : ∀ th, f th = f th.sansValues) {s : State} (h : s.focus.slot < 4) :
    f s.begin.cur = f s.cur := by
  rw [begin_cur s h, hf, hf s.cur]
  exact congrArg f (landAll_sansValues _ s.cur)

/-- What depends on neither the thread's region nor its next issue is at the issue of a word as at the start of the
cycle. -/
theorem atIssue_keeps {α : Type} (f : Thread → α) (hf : ∀ th, f th = f th.lasting) {s : State} (i : Instr) (c : Ctl)
    (h : s.focus.slot < 4) : f (s.atIssue i c).cur = f s.begin.cur := by
  rw [hf, hf s.begin.cur, atIssue_lasting s i c h]

/-- Nothing stands in front of a word in its region where R218 and R219 put no marker there. -/
theorem enter_of_no_marker {s : State} {i : Instr} {c : Ctl} (h : (s.cur.markerBefore i || s.cur.ownRegion i c) = false) :
    s.enter i c = if s.cur.sup then s else s.modCur fun x => x.note (uses i) c.g := by
  unfold State.enter
  simp [h]

theorem accesses_modCur {s : State} (f : Thread → Thread) (h : s.focus.slot < 4)
    (hi : (f s.cur).inflight = s.cur.inflight) (hb : (f s.cur).buffered = s.cur.buffered) :
    accesses (s.modCur f) = accesses s := by
  unfold accesses
  rw [cur_modCur s f h, hi, hb]

/-- A marker commits accesses and changes the order of none (R217, R221). -/
theorem accesses_marker (s : State) (pc : Word) (h : s.focus.slot < 4) :
    accesses (s.marker s.focus.tile s.focus.slot pc) = accesses s := by
  unfold accesses
  rw [marker_cur s pc h]
  simp [Thread.openRegion, toInFlight_buf]

theorem accesses_enter (s : State) (i : Instr) (c : Ctl) (h : s.focus.slot < 4) :
    accesses (s.enter i c) = accesses s := by
  unfold State.enter
  simp only
  split
  · rfl
  · split
    · rw [accesses_modCur _ (by simpa using h) rfl rfl, accesses_modCur _ (by simpa using h) rfl rfl, accesses_marker s _ h]
    · exact accesses_modCur _ h rfl rfl

theorem accesses_begin (s : State) (h : s.focus.slot < 4) : accesses s.begin = accesses s :=
  begin_keeps (fun th => th.inflight.map (·.buf) ++ th.buffered) (fun _ => rfl) h

theorem accesses_atIssue (s : State) (i : Instr) (c : Ctl) (h : s.focus.slot < 4) :
    accesses (s.atIssue i c) = accesses s := by
  unfold State.atIssue
  rw [accesses_enter _ i c (by simpa using h)]
  exact accesses_begin s h

/-! ## States that differ only beside the values of the thread in focus -/

/-- The thread in focus holds the registers, predicates and pending results of the start of the cycle of `s`, and
nothing but that thread differs from `s`. -/
structure Beside (s u : State) : Prop where
  focus : u.focus = s.focus
  mem : u.mem = s.mem
  poison : u.poison = s.poison
  units : SameUnits s u
  regs : u.cur.regs = s.begin.cur.regs
  preds : u.cur.preds = s.begin.cur.preds
  pend : u.cur.pend = s.begin.cur.pend

namespace Beside

variable {s u : State}

theorem slot (b : Beside s u) (h : s.focus.slot < 4) : u.focus.slot < 4 := by rw [b.focus]; exact h

theorem begin (s : State) : Beside s s.begin :=
  ⟨rfl, rfl, rfl, sameUnits_modCur s _, rfl, rfl, rfl⟩

theorem atIssue (i : Instr) (c : Ctl) (h : s.focus.slot < 4) : Beside s (s.atIssue i c) :=
  ⟨by simp, by simp, by simp, sameUnits_atIssue s i c, regs_of_lasting (atIssue_lasting s i c h),
    preds_of_lasting (atIssue_lasting s i c h), pend_of_lasting (atIssue_lasting s i c h)⟩

/-- A thread with the same values in the place of the thread in focus keeps the relation. -/
theorem setCur (b : Beside s u) (h : s.focus.slot < 4) {x : Thread} (hr : x.regs = s.begin.cur.regs)
    (hp : x.preds = s.begin.cur.preds) (hq : x.pend = s.begin.cur.pend) : Beside s (u.setCur x) := by
  have e : (u.setCur x).cur = x := cur_modCur u (fun _ => x) (b.slot h)
  exact ⟨b.focus, b.mem, b.poison, sameUnits_trans b.units b.focus (sameUnits_setThread u _ _ x rfl rfl),
    by rw [e, hr], by rw [e, hp], by rw [e, hq]⟩

theorem modCur (b : Beside s u) (h : s.focus.slot < 4) (f : Thread → Thread) (hr : (f u.cur).regs = u.cur.regs)
    (hp : (f u.cur).preds = u.cur.preds) (hq : (f u.cur).pend = u.cur.pend) : Beside s (u.modCur f) :=
  b.setCur h (hr.trans b.regs) (hp.trans b.preds) (hq.trans b.pend)

theorem marker (b : Beside s u) (h : s.focus.slot < 4) (pc : Word) :
    Beside s (u.marker u.focus.tile u.focus.slot pc) :=
  b.setCur h b.regs b.preds b.pend

theorem moveOn (b : Beside s u) (h : s.focus.slot < 4) (r : Option (BitVec 5)) (c : Ctl) (own : Bool) (g : Nat)
    (pc : Word) : Beside s (u.moveOn r c own g pc) := by
  have e := moveOn_lasting u r c own g pc (b.slot h)
  exact ⟨by rw [moveOn_focus]; exact b.focus, by rw [moveOn_mem]; exact b.mem, by rw [moveOn_poison]; exact b.poison,
    sameUnits_trans b.units b.focus (sameUnits_moveOn u r c own g pc), (regs_of_lasting e).trans b.regs,
    (preds_of_lasting e).trans b.preds, (pend_of_lasting e).trans b.pend⟩

theorem sameMemory (b : Beside s u) : SameMemory s u := ⟨fun a => by rw [b.mem], b.poison⟩

theorem regAt (b : Beside s u) (n : Nat) (r : BitVec 5) : u.cur.regAt n r = s.begin.cur.regAt n r :=
  regAt_congr b.regs b.pend n r

theorem samePreds (b : Beside s u) : SamePreds s u := fun n p => predAt_congr b.preds b.pend n p

theorem onlyRegister (b : Beside s u) (hpc : u.cur.pc = s.cur.pc + 4#64) (hsp : SameSpecials s u) :
    OnlyRegister s u 0#5 :=
  ⟨hpc, fun n r _ => b.regAt n r, b.samePreds, hsp, b.units, b.sameMemory⟩

/-- A word that holds its thread leaves it waiting at the word. -/
theorem waits (b : Beside s u) (h : s.focus.slot < 4) (hpc : u.cur.pc = s.cur.pc) (hsp : SameSpecials s u) (own : Bool) :
    Waits s (u.modCur fun th => { th with waiting := true, waitOwn := own }) := by
  have e := cur_modCur u (fun th => { th with waiting := true, waitOwn := own }) (b.slot h)
  have b' := b.modCur h (fun th => { th with waiting := true, waitOwn := own }) rfl rfl rfl
  exact ⟨by rw [e]; exact hpc, by rw [e], b'.regAt, b'.samePreds, by unfold SameSpecials; rw [e]; exact hsp, b'.units,
    b'.sameMemory⟩

end Beside

/-! ## How a word ends -/

/-- A word that held its thread has its effect looked at in the state of the start of the cycle (R55). -/
theorem issueWord_of_waiting {i : Instr} {c : Ctl} {s : State} (body : State → Body) (h : s.begin.cur.waiting = true) :
    issueWord i c body s = .next ((body s.begin).finish i c s.begin.cur.waitOwn) := by
  unfold issueWord
  simp [h]

theorem atIssue_pc (s : State) (i : Instr) (c : Ctl) (h : s.focus.slot < 4) : (s.atIssue i c).cur.pc = s.cur.pc :=
  (atIssue_cur_pc s i c h).trans (begin_cur_pc s h)

/-- The thread after a word that has no region of its own (R40). -/
theorem moveOn_cur_of_shared (s : State) (r : Option (BitVec 5)) (c : Ctl) (g : Nat) (pc : Word) (h : s.focus.slot < 4) :
    (s.moveOn r c false g pc).cur = s.cur.advance s.now (c.sc.toNat + g) (c.sc.toNat + Nat.min g 2) pc r := by
  unfold State.moveOn
  simp only [Bool.false_and, Bool.false_eq_true, if_false]
  exact cur_modCur s _ h

/-! ## HALT, YIELD and RMARK (R78 to R80) -/

/-- A word of no region of its own whose effect is a change `f` of its thread that keeps its values, its accesses and its
place, and what it then leaves. -/
theorem threadWord_spec {i : Instr} {c : Ctl} {s : State} {body : State → Body} (f : Thread → Thread)
    (h : issues i c s = true) (hb : body (s.atIssue i c) = .done ((s.atIssue i c).modCur f))
    (hf : ∀ th, (f th).regs = th.regs ∧ (f th).preds = th.preds ∧ (f th).pend = th.pend ∧ (f th).pc = th.pc ∧
      (f th).inflight = th.inflight ∧ (f th).buffered = th.buffered) :
    ∃ t, issueWord i c body s = .next t ∧ Beside s t ∧ t.cur.lasting = (f (s.atIssue i c).cur).lasting ∧
      t.cur.pc = s.cur.pc + 4#64 ∧ accesses t = accesses s := by
  have hs := slot_of_issues h
  obtain ⟨hr, hp, hq, hpc, hi, hbf⟩ := hf (s.atIssue i c).cur
  have b := (Beside.atIssue i c hs).modCur hs f hr hp hq
  have e := cur_modCur (s.atIssue i c) f (by simpa using hs)
  refine ⟨_, issueWord_of_issues body h, ?_⟩
  rw [hb]
  refine ⟨b.moveOn hs _ _ _ _ _, ?_, ?_, ?_⟩
  · exact (moveOn_lasting _ _ _ _ _ _ (b.slot hs)).trans (by rw [e])
  · refine (moveOn_pc _ _ _ _ _ _ (b.slot hs)).trans ?_
    rw [e, hpc, atIssue_pc s i c hs]
  · exact (accesses_moveOn _ _ _ _ _ _ (b.slot hs)).trans
      ((accesses_modCur f (by simpa using hs) hi hbf).trans (accesses_atIssue s i c hs))

/-- A word that holds its thread at its issue with its effect's state `(s.atIssue i c).modCur f` leaves it waiting. -/
theorem heldWord_waits {i : Instr} {c : Ctl} {s v : State} {body : State → Body} (h : issues i c s = true)
    (hb : body (s.atIssue i c) = .hold v) (b : Beside s v) (hpc : v.cur.pc = s.cur.pc) (hsp : SameSpecials s v) :
    ∃ t, issueWord i c body s = .next t ∧ Waits s t ∧
      ∀ {α : Type} (g : Thread → α), (∀ th own, g { th with waiting := true, waitOwn := own } = g th) →
        g t.cur = g v.cur := by
  have hs := slot_of_issues h
  refine ⟨_, issueWord_of_issues body h, ?_⟩
  rw [hb]
  refine ⟨b.waits hs hpc hsp _, fun g hg => ?_⟩
  simp only [Body.finish]
  rw [cur_modCur v _ (b.slot hs)]
  exact hg _ _

/-- The effect of HALT. -/
def haltBody (s : State) : Body :=
  if !s.cur.departing.isEmpty then .hold s else .done (s.modCur fun th => { th with status := .halted })

theorem exec_halt_eq (c : Ctl) (s : State) : exec (.halt c) s = issueWord (.halt c) c haltBody s := exec_halt c s

theorem haltEndsTheThread : HaltEndsTheThread := by
  intro c s h
  have hs := slot_of_issues h
  have hsp := atIssue_specials s (.halt c) c hs
  rw [exec_halt_eq]
  refine ⟨fun hd => ?_, fun hd => ?_⟩
  · have hb : haltBody (s.atIssue (.halt c) c) =
        .done ((s.atIssue (.halt c) c).modCur fun th => { th with status := .halted }) := by simp [haltBody, hd]
    obtain ⟨t, ht, b, hl, -, ha⟩ := threadWord_spec _ h hb fun _ => ⟨rfl, rfl, rfl, rfl, rfl, rfl⟩
    have hst := specials_of_lasting hl
    refine ⟨t, ht, congrArg Specials.status hst, ha, b.regAt, b.samePreds, ?_, b.units, b.sameMemory⟩
    rw [hst]
    change ({ (s.atIssue (.halt c) c).cur.specials with status := s.cur.specials.status } : Specials) = _
    rw [hsp]
  · have hb : haltBody (s.atIssue (.halt c) c) = .hold (s.atIssue (.halt c) c) := by simp [haltBody, hd]
    obtain ⟨t, ht, hw, -⟩ := heldWord_waits h hb (Beside.atIssue _ c hs) (atIssue_pc s _ c hs) hsp
    exact ⟨t, ht, hw⟩

/-- The effect of YIELD. -/
def yieldBody (s : State) : Body := .done (s.modCur fun th => { th with age := 0, yielded := some s.now })

theorem exec_yield_eq (c : Ctl) (s : State) : exec (.yield c) s = issueWord (.yield c) c yieldBody s := exec_yield c s

theorem yield_resets_age (c : Ctl) (s : State) (h : issues (.yield c) c s = true) :
    ∃ t, exec (.yield c) s = .next t ∧ OnlyRegister s t 0#5 ∧ t.cur.age = 0 ∧ accesses t = accesses s := by
  have hs := slot_of_issues h
  have hb : yieldBody (s.atIssue (.yield c) c) = .done ((s.atIssue (.yield c) c).modCur fun th =>
      { th with age := 0, yielded := some (s.atIssue (.yield c) c).now }) := rfl
  obtain ⟨t, ht, b, hl, hpc, ha⟩ := threadWord_spec _ h hb fun _ => ⟨rfl, rfl, rfl, rfl, rfl, rfl⟩
  rw [exec_yield_eq]
  exact ⟨t, ht, b.onlyRegister hpc ((specials_of_lasting hl).trans (atIssue_specials s _ c hs)),
    congrArg Thread.age hl, ha⟩

/-- The state after the effect of RMARK (R80). -/
def State.rmarked (s : State) : State :=
  if s.cur.sup then s else s.marker s.focus.tile s.focus.slot (s.cur.pc + 4#64)

theorem exec_rmark_eq (c : Ctl) (s : State) :
    exec (.rmark c) s = issueWord (.rmark c) c (fun s => .done s.rmarked) s := by
  have h : (fun s : State => Body.done s.rmarked) = fun s =>
      if s.cur.sup then .done s else .done (s.marker s.focus.tile s.focus.slot (s.cur.pc + 4#64)) := by
    funext s
    exact apply_ite Body.done _ _ _
  rw [exec_rmark, execRmark, h]

/-- RMARK has no implicit marker in front of it and none behind it (R218, R219). -/
theorem rmark_shares_region (th : Thread) (c : Ctl) :
    th.markerBefore (.rmark c) = false ∧ th.ownRegion (.rmark c) c = false := by
  have hu : uses (.rmark c) = {} := rfl
  have hb : buffersAccess (.rmark c) = false := rfl
  have he : engineWord (.rmark c) = none := rfl
  have hm : th.markerBefore (.rmark c) = false := by
    simp only [Thread.markerBefore, Thread.writesRead, hu, hb, he]
    rfl
  refine ⟨hm, ?_⟩
  simp only [Thread.ownRegion, selfUpdate, hu, hm]
  rfl

/-- At the issue of RMARK the commands of its thread are where they were before the word. -/
theorem rmark_atIssue_cmds (s : State) (c : Ctl) (h : s.focus.slot < 4) :
    (s.atIssue (.rmark c) c).cur.departing ++ (s.atIssue (.rmark c) c).cur.held = s.cur.departing ++ s.cur.held := by
  have hn : ((s.begin.count 0 (4 * s.focus.tile + s.focus.slot) 0).cur.markerBefore (.rmark c) ||
      (s.begin.count 0 (4 * s.focus.tile + s.focus.slot) 0).cur.ownRegion (.rmark c) c) = false := by
    simp [rmark_shares_region]
  have hb : s.begin.cur.departing ++ s.begin.cur.held = s.cur.departing ++ s.cur.held :=
    begin_keeps (fun th => th.departing ++ th.held) (fun _ => rfl) h
  unfold State.atIssue
  rw [enter_of_no_marker hn]
  split
  · exact hb
  · rw [cur_modCur _ _ (by simpa using h)]
    exact hb

/-- What RMARK's effect leaves of the thread in focus (R217, R221). -/
theorem rmarked_cur (u : State) (h : u.focus.slot < 4) :
    u.rmarked.cur.lasting = u.cur.lasting ∧ u.rmarked.cur.pc = u.cur.pc ∧ accesses u.rmarked = accesses u ∧
      u.rmarked.cur.departing ++ u.rmarked.cur.held = u.cur.departing ++ u.cur.held ∧
      (u.cur.sup = false → u.rmarked.cur.buffered = [] ∧ u.rmarked.cur.held = [] ∧
        u.rmarked.cur.resume = u.cur.pc + 4#64 ∧ u.rmarked.cur.reentry = 0#8) := by
  by_cases hg : u.cur.sup = true
  · have e : u.rmarked = u := by simp [State.rmarked, hg]
    rw [e]
    exact ⟨rfl, rfl, rfl, rfl, by simp [hg]⟩
  · have e : u.rmarked = u.marker u.focus.tile u.focus.slot (u.cur.pc + 4#64) := by simp [State.rmarked, hg]
    rw [e, accesses_marker u _ h, marker_cur u _ h]
    exact ⟨rfl, rfl, rfl, List.append_nil _, fun _ => ⟨rfl, rfl, rfl, rfl⟩⟩

theorem Beside.rmarked {s u : State} (b : Beside s u) (h : s.focus.slot < 4) : Beside s u.rmarked := by
  unfold State.rmarked
  split
  · exact b
  · exact b.marker h _

theorem rmark_commits_region (c : Ctl) (s : State) (h : issues (.rmark c) c s = true) :
    ∃ t, exec (.rmark c) s = .next t ∧ OnlyRegister s t 0#5 ∧ accesses t = accesses s ∧
      t.cur.departing ++ t.cur.held = s.cur.departing ++ s.cur.held ∧
      (s.cur.sup = false → t.cur.buffered = [] ∧ t.cur.held = [] ∧ t.cur.resume = s.cur.pc + 4#64 ∧
        t.cur.reentry = 0#8) := by
  have hs := slot_of_issues h
  have hsp := atIssue_specials s (.rmark c) c hs
  have hpc := atIssue_pc s (.rmark c) c hs
  have b := (Beside.atIssue (.rmark c) c hs).rmarked hs
  obtain ⟨hl, hpc', ha, hc, hg⟩ := rmarked_cur (s.atIssue (.rmark c) c) (by simpa using hs)
  have hsup : (s.atIssue (.rmark c) c).cur.sup = s.cur.sup := congrArg Specials.sup hsp
  rw [hsup, hpc] at hg
  rw [exec_rmark_eq, issueWord_of_issues _ h, (rmark_shares_region _ c).2]
  simp only [Body.finish]
  have e := moveOn_cur_of_shared (s.atIssue (.rmark c) c).rmarked (setTarget (.rmark c)) c 1
    ((s.atIssue (.rmark c) c).rmarked.cur.pc + 4#64) (b.slot hs)
  refine ⟨_, rfl, (b.moveOn hs _ _ _ _ _).onlyRegister ?_ ?_, ?_, ?_, ?_⟩
  · rw [moveOn_pc _ _ _ _ _ _ (b.slot hs), hpc', hpc]
  · exact (specials_of_lasting ((moveOn_lasting _ _ _ _ _ _ (b.slot hs)).trans hl)).trans hsp
  · exact (accesses_moveOn _ _ _ _ _ _ (b.slot hs)).trans (ha.trans (accesses_atIssue s _ c hs))
  · rw [e]
    exact hc.trans (rmark_atIssue_cmds s c hs)
  · rw [e]
    exact hg

/-- Settles O22: HALT and YIELD change a field of their thread that is no value, and RMARK is a marker behind its word. -/
theorem haltYieldAndMark : Obligations.HaltYieldAndMark :=
  ⟨haltEndsTheThread, fun c s => ⟨yield_resets_age c s, rmark_commits_region c s⟩⟩

end Sys2Proof.Machine
end

section
/-! SUPPORT. The waits of a thread on its event bits and on a token (R81, R82, R109), and the trap that a failed token
raises (R342). -/

namespace Sys2Proof.Machine

open Sys2Proof.Claims

/-! ## WFE -/

/-- The effect of WFE. -/
def wfeBody (a : BitVec 5) (s : State) : Body :=
  let o := s.cur.operands a 0#5 0#5
  let m := s.cur.evt &&& o.1.setWidth 16
  if m = 0#16 || (s.cur.waiting && !s.cur.departing.isEmpty) then .hold (s.latch o)
  else .done (s.modCur fun th => { th with evt := th.evt &&& ~~~m })

theorem exec_wfe_eq (c : Ctl) (a : BitVec 5) (s : State) :
    exec (.wfe c a) s = issueWord (.wfe c a) c (wfeBody a) s := exec_wfe c a s

/-- Clearing the selected bits that are set clears the selected bits. -/
theorem clear_set_bits (x m : BitVec 16) : x &&& ~~~(x &&& m) = x &&& ~~~m := by
  ext i h
  simp
  cases x[i] <;> simp

/-- A WFE that finds a selected bit clears the selected bits and goes on (R109): `u` is the state of its issue, or of the
start of a cycle in which it is looked at again. -/
theorem wfe_goes_on {s u : State} {a : BitVec 5} {m : BitVec 16} (b : Beside s u) (hs : s.focus.slot < 4)
    (hpc : u.cur.pc = s.cur.pc) (hsp : u.cur.specials = s.cur.specials)
    (hm : (u.cur.operands a 0#5 0#5).1.setWidth 16 = m) (hne : s.cur.evt &&& m ≠ 0#16)
    (hd : u.cur.waiting = true → u.cur.departing = []) (i : Instr) (c : Ctl) (own : Bool) :
    let t := (wfeBody a u).finish i c own
    t.cur.evt = s.cur.evt &&& ~~~m ∧ t.cur.pc = s.cur.pc + 4#64 ∧
      (∀ n r, t.cur.regAt n r = s.begin.cur.regAt n r) ∧ SamePreds s t ∧
      { t.cur.specials with evt := s.cur.evt } = s.cur.specials ∧ SameUnits s t ∧ SameMemory s t := by
  have hevt : u.cur.evt = s.cur.evt := congrArg Specials.evt hsp
  have hw : (u.cur.waiting && !u.cur.departing.isEmpty) = false := by
    cases hx : u.cur.waiting
    · rfl
    · simp [hd hx]
  have hb : wfeBody a u = .done (u.modCur fun th => { th with evt := th.evt &&& ~~~(s.cur.evt &&& m) }) := by
    simp [wfeBody, hm, hevt, hne, hw]
  have e := cur_modCur u (fun th => { th with evt := th.evt &&& ~~~(s.cur.evt &&& m) }) (b.slot hs)
  have b' := b.modCur hs (fun th => { th with evt := th.evt &&& ~~~(s.cur.evt &&& m) }) rfl rfl rfl
  rw [hb]
  generalize hv : u.modCur (fun th => { th with evt := th.evt &&& ~~~(s.cur.evt &&& m) }) = v at *
  have b2 := b'.moveOn hs (setTarget i) c own 1 (v.cur.pc + 4#64)
  have hst : (v.moveOn (setTarget i) c own 1 (v.cur.pc + 4#64)).cur.specials = v.cur.specials :=
    specials_of_lasting (moveOn_lasting v _ c own 1 _ (b'.slot hs))
  refine ⟨?_, ?_, b2.regAt, b2.samePreds, ?_, b2.units, b2.sameMemory⟩
  · refine (congrArg Specials.evt hst).trans ?_
    rw [e]
    change u.cur.evt &&& _ = _
    rw [hevt, clear_set_bits]
  · refine (moveOn_pc v _ c own 1 _ (b'.slot hs)).trans ?_
    rw [e]
    exact congrArg (· + 4#64) hpc
  · simp only [Body.finish]
    rw [hst, e]
    change ({ u.cur.specials with evt := s.cur.evt } : Specials) = _
    rw [hsp]
    rfl

theorem cur_setCur (s : State) (x : Thread) (h : s.focus.slot < 4) : (s.setCur x).cur = x := cur_modCur s (fun _ => x) h

theorem latch_cur (u : State) (o : Word × Word × Word) (h : u.focus.slot < 4) :
    (u.latch o).cur = { u.cur with latchA := o.1, latchB := o.2.1, latchD := o.2.2 } := cur_modCur u _ h

/-- A WFE that finds no selected bit, or whose thread's commands have not left their buffer, waits (R109). -/
theorem wfe_waits {s u : State} {a : BitVec 5} {m : BitVec 16} (b : Beside s u) (hs : s.focus.slot < 4)
    (hpc : u.cur.pc = s.cur.pc) (hsp : u.cur.specials = s.cur.specials)
    (hm : (u.cur.operands a 0#5 0#5).1.setWidth 16 = m)
    (hh : s.cur.evt &&& m = 0#16 ∨ (u.cur.waiting = true ∧ u.cur.departing ≠ [])) (i : Instr) (c : Ctl) (own : Bool) :
    Waits s ((wfeBody a u).finish i c own) := by
  have hevt : u.cur.evt = s.cur.evt := congrArg Specials.evt hsp
  have hb : wfeBody a u = .hold (u.latch (u.cur.operands a 0#5 0#5)) := by
    rcases hh with h | ⟨h, h'⟩
    · simp [wfeBody, hm, hevt, h]
    · simp [wfeBody, h, h']
  have e := latch_cur u (u.cur.operands a 0#5 0#5) (b.slot hs)
  have b' : Beside s (u.latch (u.cur.operands a 0#5 0#5)) := b.modCur hs _ rfl rfl rfl
  rw [hb]
  refine b'.waits hs ?_ ?_ own
  · exact (congrArg Thread.pc e).trans hpc
  · exact (congrArg Thread.specials e).trans hsp

theorem not_waiting_of_issues {i : Instr} {c : Ctl} {s : State} (h : issues i c s = true) :
    s.begin.cur.waiting = false := by
  simp only [issues, Bool.and_eq_true, Bool.not_eq_true'] at h
  exact h.1.1.1.2

theorem waitForEventClearsTheBitsItFinds : WaitForEventClearsTheBitsItFinds := by
  intro c a s
  rw [exec_wfe_eq]
  refine ⟨fun h => ?_, fun hs hw => ?_⟩
  · have hs := slot_of_issues h
    have b := Beside.atIssue (.wfe c a) c hs
    have hpc := atIssue_pc s (.wfe c a) c hs
    have hsp := atIssue_specials s (.wfe c a) c hs
    have hwait : (s.atIssue (.wfe c a) c).cur.waiting = false :=
      (atIssue_cur_waiting s _ c hs).trans (not_waiting_of_issues h)
    have hm : ((s.atIssue (.wfe c a) c).cur.operands a 0#5 0#5).1.setWidth 16 = (s.begin.cur.reg a).setWidth 16 := by
      simp [Thread.operands, hwait, atIssue_reg s _ c hs]
    rw [issueWord_of_issues _ h]
    exact ⟨fun hne => ⟨_, rfl, wfe_goes_on b hs hpc hsp hm hne (by simp [hwait]) _ _ _⟩,
      fun h0 => ⟨_, rfl, wfe_waits b hs hpc hsp hm (.inl h0) _ _ _⟩⟩
  · have hpc := begin_cur_pc s hs
    have hsp := begin_cur_specials s hs
    have hlatch : s.begin.cur.latchA = s.cur.latchA := begin_keeps (·.latchA) (fun _ => rfl) hs
    have hdep : s.begin.cur.departing = s.cur.departing := begin_keeps (·.departing) (fun _ => rfl) hs
    have hm : (s.begin.cur.operands a 0#5 0#5).1.setWidth 16 = s.cur.latchA.setWidth 16 := by
      simp [Thread.operands, hw, hlatch]
    rw [issueWord_of_waiting _ hw]
    exact ⟨fun hne hd => ⟨_, rfl, wfe_goes_on (Beside.begin s) hs hpc hsp hm hne (fun _ => hdep.trans hd) _ _ _⟩,
      fun h0 => ⟨_, rfl, wfe_waits (Beside.begin s) hs hpc hsp hm (h0.imp_right fun h => ⟨hw, hdep ▸ h⟩) _ _ _⟩⟩

/-! ## Taking a trap -/

/-- The thread behind the marker of a precise trap, its trap registers written (R223, R342). -/
def State.savedTrap (u : State) (t : Trap) (v : Word) : Thread :=
  { (u.marker u.focus.tile u.focus.slot u.cur.pc).cur.saveTrap t v u.cur.pc 0#8 with
    trapReentry := u.cur.frontReentry.getD u.cur.reentry }

/-- The marker leaves the values of the thread and its special registers but for the trap registers. -/
theorem savedTrap_eq (u : State) (t : Trap) (v : Word) (h : u.focus.slot < 4) :
    (u.savedTrap t v).regs = u.cur.regs ∧ (u.savedTrap t v).preds = u.cur.preds ∧
      (u.savedTrap t v).pend = u.cur.pend ∧ (u.savedTrap t v).trapsPoisoned = u.cur.trapsPoisoned ∧
      (u.savedTrap t v).specials =
        { u.cur.specials with
          tcause := t.causeWord, tepc := u.cur.pc, tval := v, taux := t.taux, tstate := Word.ofN (b2n u.cur.sup) } := by
  unfold State.savedTrap
  rw [marker_cur u _ h]
  refine ⟨rfl, rfl, rfl, rfl, ?_⟩
  simp only [Thread.specials, Thread.saveTrap, Thread.openRegion, BitVec.toNat_ofNat, Nat.zero_mod, Nat.mul_zero,
    Nat.zero_add]

/-- A precise trap of a thread in group state whose handler stands is taken there (R342). -/
theorem trapNow_precise {u : State} {t : Trap} {v : Word} (h : u.focus.slot < 4) (hh : hasHandler u)
    (hst : t.style = .precise) (hv : t.tval = some v) :
    u.trapNow t =
      (((u.marker u.focus.tile u.focus.slot u.cur.pc).setCur (u.savedTrap t v)).setCur
        (u.savedTrap t v).enterHandler).modCur fun th => { th with earliest := u.now + 1, waiting := false } := by
  obtain ⟨hsup, htvec, hbad⟩ := hh
  obtain ⟨-, -, -, hb, hsp⟩ := savedTrap_eq u t v h
  have hm : (u.savedTrap t v).tvec = u.cur.tvec := congrArg Specials.tvec hsp
  have hth : (((u.marker u.focus.tile u.focus.slot u.cur.pc).setThread u.focus.tile u.focus.slot (u.savedTrap t v)).thread
      u.focus.tile u.focus.slot) = u.savedTrap t v := thread_setThread_same _ _ _ h
  have ht : u.takeTrap u.focus.tile u.focus.slot t =
      ((u.marker u.focus.tile u.focus.slot u.cur.pc).setThread u.focus.tile u.focus.slot (u.savedTrap t v)).enterOrStop
        u.focus.tile u.focus.slot t := by
    have hsup' : (u.thread u.focus.tile u.focus.slot).sup = false := hsup
    simp only [State.takeTrap, State.trapValue, hsup', hst, hv, Bool.false_eq_true, if_false, reduceCtorEq]
    rfl
  simp only [State.trapNow, ht, State.enterOrStop, hth, hm, hb, htvec, hbad, decide_false, Bool.or_self,
    Bool.false_eq_true, if_false]
  rfl

theorem Beside.trapNow {s u : State} {t : Trap} {v : Word} (b : Beside s u) (hs : s.focus.slot < 4) (hh : hasHandler u)
    (hst : t.style = .precise) (hv : t.tval = some v) : Beside s (u.trapNow t) := by
  obtain ⟨hr, hp, hq, -, -⟩ := savedTrap_eq u t v (b.slot hs)
  have hr' := hr.trans b.regs
  have hp' := hp.trans b.preds
  have hq' := hq.trans b.pend
  rw [trapNow_precise (b.slot hs) hh hst hv]
  have b2 := ((b.marker hs u.cur.pc).setCur hs hr' hp' hq').setCur (x := (u.savedTrap t v).enterHandler) hs hr' hp' hq'
  exact b2.modCur hs (fun th => { th with earliest := u.now + 1, waiting := false }) rfl rfl rfl

/-- The thread in its handler after a precise trap of group state. -/
theorem trapNow_cur {u : State} {t : Trap} {v : Word} (h : u.focus.slot < 4) (hh : hasHandler u)
    (hst : t.style = .precise) (hv : t.tval = some v) :
    (u.trapNow t).cur = { (u.savedTrap t v).enterHandler with earliest := u.now + 1, waiting := false } := by
  have hw : ((u.marker u.focus.tile u.focus.slot u.cur.pc).setCur (u.savedTrap t v)).focus.slot < 4 := by simpa using h
  rw [trapNow_precise h hh hst hv]
  generalize (u.marker u.focus.tile u.focus.slot u.cur.pc).setCur (u.savedTrap t v) = w at hw ⊢
  rw [cur_modCur _ _ (by simpa using hw), cur_setCur w _ hw]

/-- A precise trap of group state with a handler enters it (R342). -/
theorem entersHandler_of_trapNow {s u : State} {t : Trap} {v : Word} {code : Nat} (b : Beside s u)
    (hs : s.focus.slot < 4) (hpc : u.cur.pc = s.cur.pc) (hsp : u.cur.specials = s.cur.specials) (hh : hasHandler u)
    (hst : t.style = .precise) (hv : t.tval = some v) (hc : t.causeWord = BitVec.ofNat 64 code) :
    EntersHandler s (u.trapNow t) code s.cur.pc v t.taux := by
  obtain ⟨-, -, -, -, hx⟩ := savedTrap_eq u t v (b.slot hs)
  have b' := b.trapNow hs hh hst hv
  have hsup : u.cur.sup = false := hh.1
  have e : (u.trapNow t).cur.pc = (u.savedTrap t v).specials.tvec ∧
      (u.trapNow t).cur.specials = { (u.savedTrap t v).specials with sup := true } := by
    rw [trapNow_cur (b.slot hs) hh hst hv]
    exact ⟨rfl, rfl⟩
  rw [hx, hsp, hpc, hsup, hc] at e
  obtain ⟨hpc', hsp'⟩ := e
  exact ⟨hpc', congrArg Specials.sup hsp', congrArg Specials.tepc hsp', congrArg Specials.tval hsp',
    congrArg Specials.taux hsp', congrArg Specials.tcause hsp', congrArg Specials.tstate hsp',
    congrArg Specials.tvec hsp', congrArg Specials.flags hsp', congrArg Specials.evt hsp',
    congrArg Specials.status hsp', b'.regAt, b'.samePreds, b'.units, b'.sameMemory⟩

/-! ## TWAIT -/

theorem exec_twait_eq (c : Ctl) (tok : BitVec 6) (level : BitVec 2) (s : State) :
    exec (.twait c tok level) s = issueWord (.twait c tok level) c (twaitBody tok.toNat level.toNat) s :=
  exec_twait c tok level s

/-- A TWAIT that issues names a level (R48, R57). -/
theorem twait_level_ne_zero {c : Ctl} {tok : BitVec 6} {level : BitVec 2} {s : State}
    (h : issues (.twait c tok level) c s = true) : level ≠ 0#2 := by
  rintro rfl
  simp only [issues, Bool.and_eq_true, Option.isNone_iff_eq_none] at h
  have hg := h.1.1.2
  have hi : s.begin.cur.illegal (.twait c tok 0#2) = true := rfl
  simp [Thread.guardTrap, hi] at hg

/-- At a level that a word may name, the states that R48 lists are those that satisfy it. -/
theorem levelMet_eq_satisfies {level : BitVec 2} (h : level ≠ 0#2) (st : TokState) :
    levelMet level st = st.satisfies level.toNat := by
  have hl : level = 1#2 ∨ level = 2#2 ∨ level = 3#2 := by revert level; decide
  rcases hl with rfl | rfl | rfl
  · rfl
  · rfl
  · cases st <;> rfl

/-- The state of a token slot as every reader sees it (R350). -/
theorem seen_eq (k : TokenSlot) : k.seen = if k.poisoned then .poison else k.state := rfl

theorem failed_iff (st : TokState) : st.failed = true ↔ st = .faulted ∨ st = .poison := by
  cases st <;> simp [TokState.failed]

/-- What TWAIT does once its thread's commands have left their buffer, by the state of its token (R81, R82). -/
theorem twaitBody_cases {u : State} {k level : Nat} (hm : u.outsideMask k = false) (hd : u.cur.departing = [])
    (hw : u.cur.twait = none) :
    let x := u.token u.focus.tile k
    let clear := u.modCur fun th => { th with twait := none }
    (x.seen.satisfies level = true → twaitBody k level u = .done clear) ∧
    (x.seen.satisfies level = false → x.seen.failed = true → twaitBody k level u =
      .trap clear { code := 0x09#6, tval := some (x.causeSeen.setWidth 64), taux := Word.ofN (256 * k) }) ∧
    (x.seen.satisfies level = false → x.seen.failed = false → twaitBody k level u =
      .hold (u.modCur fun th => { th with twait := some ⟨k, level, none⟩ })) := by
  refine ⟨fun h => ?_, fun h hf => ?_, fun h hf => ?_⟩
  · simp [twaitBody, hm, hd, hw, TokenWait.judge, h]
  · simp [twaitBody, hm, hd, hw, TokenWait.judge, h, hf]
  · simp [twaitBody, hm, hd, hw, TokenWait.judge, h, hf]

/-- TCAUSE of a trap on a token has the code TOKFAULT and nothing beside it (R337, R341). -/
theorem tokFault_causeWord (v : Option Word) (taux : Word) :
    ({ code := 0x09#6, tval := v, taux := taux } : Trap).causeWord = BitVec.ofNat 64 0x09 := by
  simp only [Trap.causeWord]
  decide

theorem tokenWaitFollowsTheTokenState : TokenWaitFollowsTheTokenState := by
  intro c tok level s i h hmask hd hw k st
  have hs := slot_of_issues h
  have b := Beside.atIssue i c hs
  have hpc := atIssue_pc s i c hs
  have hsp := atIssue_specials s i c hs
  have hl := levelMet_eq_satisfies (twait_level_ne_zero h)
  have hk : (s.atIssue i c).token (s.atIssue i c).focus.tile tok.toNat = k := by
    rw [b.focus]
    exact b.units.2.2.1 _ _
  have hst : k.seen = st := seen_eq k
  have hm' : (s.atIssue i c).outsideMask tok.toNat = false := by
    unfold State.outsideMask State.group? at hmask ⊢
    rw [atIssue_groups, atIssue_gid s i c hs]
    exact hmask
  have hw' : (s.atIssue i c).cur.twait = none :=
    (atIssue_keeps (·.twait) (fun _ => rfl) i c hs).trans ((begin_keeps (·.twait) (fun _ => rfl) hs).trans hw)
  obtain ⟨hgo, htrap, hhold⟩ := twaitBody_cases (level := level.toNat) hm' hd hw'
  rw [hk, hst, ← hl] at hgo htrap hhold
  have hi : exec i s = issueWord i c (twaitBody tok.toNat level.toNat) s := exec_twait_eq c tok level s
  rw [hi]
  refine ⟨fun hmet => ?_, fun hmet hf hh => ?_, fun hmet hn1 hn2 => ?_⟩
  · obtain ⟨t, ht, b', hlast, hpc', -⟩ := threadWord_spec _ h (hgo hmet) fun _ => ⟨rfl, rfl, rfl, rfl, rfl, rfl⟩
    exact ⟨t, ht, b'.onlyRegister hpc' ((specials_of_lasting hlast).trans hsp)⟩
  · have hh' : hasHandler (s.atIssue i c) := by
      refine ⟨(congrArg Specials.sup hsp).trans hh.1, ?_, ?_⟩
      · exact fun h0 => hh.2.1 ((congrArg Specials.tvec hsp).symm.trans h0)
      · exact (atIssue_keeps (·.trapsPoisoned) (fun _ => rfl) i c hs).trans
          ((begin_keeps (·.trapsPoisoned) (fun _ => rfl) hs).trans hh.2.2)
    have e := cur_modCur (s.atIssue i c) (fun th => { th with twait := none }) (b.slot hs)
    have hv : (k.causeSeen.setWidth 64 : Word) = if k.poisoned then 5#64 else k.cause.setWidth 64 := by
      unfold TokenSlot.causeSeen
      split <;> rfl
    rw [issueWord_of_issues _ h, htrap hmet ((failed_iff st).2 hf), ← hv]
    refine ⟨_, rfl, entersHandler_of_trapNow (b.modCur hs _ rfl rfl rfl) hs ?_ ?_ ?_ rfl rfl
      (tokFault_causeWord _ _)⟩
    · rw [e]
      exact hpc
    · rw [e]
      exact hsp
    · unfold hasHandler
      rw [e]
      exact hh'
  · have hf : st.failed = false := by
      rw [Bool.eq_false_iff, ne_eq, failed_iff]
      exact not_or.2 ⟨hn1, hn2⟩
    have e := cur_modCur (s.atIssue i c) (fun th => { th with twait := some ⟨tok.toNat, level.toNat, none⟩ }) (b.slot hs)
    obtain ⟨t, ht, hwt, hg⟩ := heldWord_waits h (hhold hmet hf) (b.modCur hs _ rfl rfl rfl) (by rw [e]; exact hpc)
      (by unfold SameSpecials; rw [e]; exact hsp)
    exact ⟨t, ht, hwt, (hg (·.twait) fun _ _ => rfl).trans (by rw [e])⟩

/-- Settles O24: a wait that goes on changes one field of its thread, one that stands holds the word, and a failed token
takes a precise trap. -/
theorem eventAndTokenWaits : Obligations.EventAndTokenWaits :=
  ⟨waitForEventClearsTheBitsItFinds, tokenWaitFollowsTheTokenState⟩

end Sys2Proof.Machine
end

section
/-! SUPPORT. Operations that concern the fabric alone: what such an operation leaves of threads, tokens, commands, W words
and memory, and what one TE reads after another was changed. -/

namespace Sys2Proof.Machine

open Sys2Proof.Claims

/-! ## States that differ in one part of their tiles alone -/

/-- The tiles agree in what `keep` keeps of them, and neither memory, nor its poison, nor the cycle differs. -/
structure AgreeIn (keep : Tile → Tile) (s t : State) : Prop where
  now : t.now = s.now
  mem : t.mem = s.mem
  poison : t.poison = s.poison
  tiles : ∀ n, keep (t.tile n) = keep (s.tile n)

namespace AgreeIn

variable {keep : Tile → Tile} {s t u : State}

theorem refl (s : State) : AgreeIn keep s s := ⟨rfl, rfl, rfl, fun _ => rfl⟩

theorem trans (h : AgreeIn keep s t) (k : AgreeIn keep t u) : AgreeIn keep s u :=
  ⟨k.now.trans h.now, k.mem.trans h.mem, k.poison.trans h.poison, fun n => (k.tiles n).trans (h.tiles n)⟩

/-- A state with the same tiles, memory and cycle. -/
theorem of_tiles (hn : t.now = s.now) (hm : t.mem = s.mem) (hp : t.poison = s.poison) (h : t.tiles = s.tiles) :
    AgreeIn keep s t :=
  ⟨hn, hm, hp, fun n => by rw [tile_congr h]⟩

theorem modImage (s : State) (i : Nat) (f : Image → Image) : AgreeIn keep s (s.modImage i f) := of_tiles rfl rfl rfl rfl

theorem modTile (s : State) (n : Nat) (f : Tile → Tile) (hf : keep (f (s.tile n)) = keep (s.tile n)) :
    AgreeIn keep s (s.modTile n f) := by
  refine ⟨rfl, rfl, rfl, fun k => ?_⟩
  by_cases h : k = n
  · subst h; rw [tile_modTile_same, hf]
  · rw [tile_modTile_ne s _ h]

/-- Steps over a list that each keep it. -/
theorem foldl {α : Type} (f : State → α → State) (hf : ∀ s a, AgreeIn keep s (f s a)) :
    ∀ (l : List α) (s : State), AgreeIn keep s (l.foldl f s)
  | [], s => refl s
  | a :: l, s => (hf s a).trans (foldl f hf l (f s a))

/-- What depends on the kept part alone is the same in every tile. -/
theorem tileKeeps (h : AgreeIn keep s t) {α : Type} (f : Tile → α) (hf : ∀ x, f x = f (keep x)) (n : Nat) :
    f (t.tile n) = f (s.tile n) := by
  rw [hf, hf (s.tile n), h.tiles n]

theorem sameMemory (h : AgreeIn keep s t) : SameMemory s t := ⟨fun a => by rw [h.mem], h.poison⟩

end AgreeIn

/-! ### States that differ in their fabric alone -/

/-- The context without its TEs and the units that serve them. -/
def Context.sansFabric (c : Context) : Context :=
  { c with tes := ⟨[]⟩, collector := [], lastServed := 0, colReqs := Vector.replicate 20 [],
           lastRow := Vector.replicate 20 0, home := {} }

/-- The tile without the TEs of its running context and the units that serve them. -/
def Tile.sansFabric (x : Tile) : Tile := { x with ctx := x.ctx.sansFabric }

/-- The tiles differ in their TEs and the units that serve them alone. -/
abbrev FabricOnly (s t : State) : Prop := AgreeIn Tile.sansFabric s t

namespace FabricOnly

variable {s t : State}

theorem modCtx (s : State) (n : Nat) (f : Context → Context) (hf : (f (s.ctx n)).sansFabric = (s.ctx n).sansFabric) :
    FabricOnly s (s.modCtx n f) :=
  AgreeIn.modTile s n _ (congrArg (fun c : Context => { s.tile n with ctx := c }) hf)

theorem modTe (s : State) (n c r : Nat) (f : TE → TE) : FabricOnly s (s.modTe n c r f) := by
  unfold State.modTe State.setTe
  exact modCtx s n _ rfl

theorem modTeAt (s : State) (p : TeId) (f : TE → TE) : FabricOnly s (s.modTeAt p f) := modTe s _ _ _ f

theorem enqueue (s : State) (p : TeId) (ch : Nat) (x : Token) : FabricOnly s (s.enqueue p ch x) := modTeAt s p _

theorem thread (h : FabricOnly s t) (n k : Nat) : t.thread n k = s.thread n k :=
  h.tileKeeps (fun x => vget x.ctx.threads k {}) (fun _ => rfl) n

theorem token (h : FabricOnly s t) (n k : Nat) : t.token n k = s.token n k :=
  h.tileKeeps (fun x => vget x.ctx.tokens k {}) (fun _ => rfl) n

end FabricOnly

/-! ## TEs read after a write -/

/-- A TE is read where it was changed, and every other as before. -/
theorem teAt_modTeAt (s : State) (p q : TeId) (f : TE → TE) :
    (OtherTe p q ∧ (s.modTeAt p f).teAt q = s.teAt q) ∨ (¬OtherTe p q ∧ (s.modTeAt p f).teAt q = f (s.teAt q)) := by
  obtain ⟨a, b, c⟩ := p
  obtain ⟨a', b', c'⟩ := q
  by_cases h : a' = a
  · subst h
    by_cases hk : teKey b' c' = teKey b c
    · exact .inr ⟨by simp [OtherTe, hk], by simp [State.modTeAt, State.teAt, State.modTe, State.setTe, State.te, hk]⟩
    · exact .inl ⟨.inr hk, by
        simp [State.modTeAt, State.teAt, State.modTe, State.setTe, State.te, get_set_ne _ _ _ hk]⟩
  · exact .inl ⟨.inl h, by
      simp [State.modTeAt, State.teAt, State.modTe, State.setTe, State.te, ctx_modCtx_ne s _ h]⟩

theorem teAt_modTeAt_other (s : State) {p q : TeId} (f : TE → TE) (h : OtherTe p q) :
    (s.modTeAt p f).teAt q = s.teAt q :=
  (teAt_modTeAt s p q f).elim (·.2) fun k => absurd h k.1

/-- What a change of a TE leaves of it, it leaves of every TE. -/
theorem teAt_modTeAt_keeps {α : Type} (g : TE → α) (s : State) (p q : TeId) (f : TE → TE) (hf : ∀ e, g (f e) = g e) :
    g ((s.modTeAt p f).teAt q) = g (s.teAt q) := by
  rcases teAt_modTeAt s p q f with ⟨-, e⟩ | ⟨-, e⟩ <;> rw [e]
  exact hf _

/-- TEs depend on the tables of the contexts alone. -/
theorem teAt_congr {s t : State} (h : ∀ n, (t.ctx n).tes = (s.ctx n).tes) (p : TeId) : t.teAt p = s.teAt p := by
  unfold State.teAt State.te
  rw [h]

theorem teAt_modCtx (s : State) (n : Nat) (f : Context → Context) (hf : (f (s.ctx n)).tes = (s.ctx n).tes) (p : TeId) :
    (s.modCtx n f).teAt p = s.teAt p := by
  refine teAt_congr (fun k => ?_) p
  by_cases h : k = n
  · subst h; rw [ctx_modCtx_same, hf]
  · rw [ctx_modCtx_ne s _ h]

@[simp] theorem teAt_modImage (s : State) (i : Nat) (f : Image → Image) (p : TeId) :
    (s.modImage i f).teAt p = s.teAt p := rfl

@[simp] theorem ctx_modImage (s : State) (i : Nat) (f : Image → Image) (n : Nat) : (s.modImage i f).ctx n = s.ctx n := rfl

/-- A change of a TE leaves all of a context but its TEs. -/
theorem ctx_modTeAt_keeps {α : Type} (g : Context → α) (hg : ∀ (c : Context) (l : Sparse TE), g { c with tes := l } = g c)
    (s : State) (p : TeId) (f : TE → TE) (n : Nat) : g ((s.modTeAt p f).ctx n) = g (s.ctx n) := by
  unfold State.modTeAt State.modTe State.setTe
  by_cases h : n = p.1
  · subst h; rw [ctx_modCtx_same]; exact hg _ _
  · rw [ctx_modCtx_ne s _ h]

theorem queue_setQueue_same (e : TE) {ch : Nat} (q : List Token) (h : ch < 6) : (e.setQueue ch q).queue ch = q :=
  vget_vset_same e.queues q [] h

theorem queue_setQueue_ne (e : TE) {ch k : Nat} (q : List Token) (h : k ≠ ch) : (e.setQueue ch q).queue k = e.queue k :=
  vget_vset_ne e.queues q [] h

theorem teAt_enqueue_same (s : State) (p : TeId) (ch : Nat) (x : Token) :
    (s.enqueue p ch x).teAt p = (s.teAt p).setQueue ch ((s.teAt p).queue ch ++ [x]) := teAt_modTeAt_same s p _

theorem teAt_enqueue_other (s : State) {p q : TeId} (ch : Nat) (x : Token) (h : OtherTe p q) :
    (s.enqueue p ch x).teAt q = s.teAt q := teAt_modTeAt_other s _ h

/-! ## The units that serve the TEs -/

/-- The state in which a column unit has accepted a request of a row (R149). -/
def State.columnAccepted (s : State) (tile col row : Nat) (q : ColReq) : State :=
  (s.modCtx tile fun x =>
    { x with colReqs := vset x.colReqs col (dropFirst row (vget (s.ctx tile).colReqs col []))
             lastRow := vset x.lastRow col row }).modImage q.img fun m =>
    if q.inRegion then { m with columnOut := m.columnOut - 1 } else m

/-- The reply to an accepted request enters in.f of its TE (R149, R161). -/
theorem columnReplied_eq {s : State} {tile col row : Nat} {q : ColReq}
    (hrow : nextRow (vget (s.ctx tile).colReqs col []) (vget (s.ctx tile).lastRow col 9) = some row)
    (hq : ((vget (s.ctx tile).colReqs col []).find? fun x => x.row == row) = some q) :
    ∃ region, s.columnReplied tile col =
      ((s.columnAccepted tile col row q).modTeAt (tile, col, row) fun e =>
        { e with reservedF := e.reservedF - 1 }).enqueue (tile, col, row) 5
          { data := (columnReply q.func (s.tileFtz tile) q.operand).1, fmt := 0#3, utag := q.utag
            flags := (columnReply q.func (s.tileFtz tile) q.operand).2, region := region } := by
  unfold State.columnReplied
  simp only [hrow, hq]
  exact ⟨_, rfl⟩

theorem FabricOnly.columnAccepted (s : State) (tile col row : Nat) (q : ColReq) :
    FabricOnly s (s.columnAccepted tile col row q) := by
  unfold State.columnAccepted
  exact (FabricOnly.modCtx s tile _ rfl).trans (AgreeIn.modImage _ _ _)

theorem teAt_columnAccepted (s : State) (tile col row : Nat) (q : ColReq) (p : TeId) :
    (s.columnAccepted tile col row q).teAt p = s.teAt p := by
  unfold State.columnAccepted
  rw [teAt_modImage]
  exact teAt_modCtx s tile _ rfl p

theorem ctx_columnAccepted (s : State) {tile col : Nat} (row : Nat) (q : ColReq) (hc : col < 20) :
    vget ((s.columnAccepted tile col row q).ctx tile).colReqs col [] =
        dropFirst row (vget (s.ctx tile).colReqs col []) ∧
      vget ((s.columnAccepted tile col row q).ctx tile).lastRow col 9 = row := by
  have e : (s.columnAccepted tile col row q).ctx tile =
      { s.ctx tile with
        colReqs := vset (s.ctx tile).colReqs col (dropFirst row (vget (s.ctx tile).colReqs col []))
        lastRow := vset (s.ctx tile).lastRow col row } := by
    unfold State.columnAccepted
    rw [ctx_modImage, ctx_modCtx_same]
  rw [e]
  exact ⟨vget_vset_same _ _ _ hc, vget_vset_same _ _ _ hc⟩

theorem columnUnitsReply : ColumnUnitsReply := by
  intro tile col row q s ht hc hr reqs hrow hq p
  obtain ⟨region, hx⟩ := columnReplied_eq hrow hq
  have he : exec (.columnUnitReply tile col) s = .next (s.columnReplied tile col) := by
    rw [exec_columnUnitReply, execColumnUnitReply, if_neg (by simp; omega)]
  rw [he, hx]
  generalize hu : s.columnAccepted tile col row q = u
  have hte : ∀ k, u.teAt k = s.teAt k := hu ▸ teAt_columnAccepted s tile col row q
  obtain ⟨hreqs, hlast⟩ := hu ▸ ctx_columnAccepted s row q hc
  generalize hr : ({ data := _, fmt := _, utag := _, flags := _, region := region } : Token) = x
  have hqueue := teAt_enqueue_same (u.modTeAt p fun e => { e with reservedF := e.reservedF - 1 }) p 5 x
  rw [teAt_modTeAt_same, hte] at hqueue
  have hf : FabricOnly s ((u.modTeAt p fun e => { e with reservedF := e.reservedF - 1 }).enqueue p 5 x) :=
    ((hu ▸ FabricOnly.columnAccepted s tile col row q).trans (FabricOnly.modTeAt _ _ _)).trans (FabricOnly.enqueue _ _ _ _)
  refine ⟨_, x, rfl, ?_, hr ▸ rfl, hr ▸ rfl, hr ▸ rfl, hr ▸ rfl, ?_, fun k hk => ?_, ?_, ?_, fun k hk => ?_, hf.thread,
    hf.token, hf.sameMemory⟩
  · rw [hqueue]
    exact queue_setQueue_same _ _ (by decide)
  · rw [hqueue]
    rfl
  · rw [hqueue]
    exact queue_setQueue_ne _ _ (by omega)
  · refine (ctx_modTeAt_keeps (fun c => vget c.colReqs col []) (fun _ _ => rfl) _ _ _ _).trans ?_
    exact (ctx_modTeAt_keeps (fun c => vget c.colReqs col []) (fun _ _ => rfl) _ _ _ _).trans hreqs
  · refine (ctx_modTeAt_keeps (fun c => vget c.lastRow col 9) (fun _ _ => rfl) _ _ _ _).trans ?_
    exact (ctx_modTeAt_keeps (fun c => vget c.lastRow col 9) (fun _ _ => rfl) _ _ _ _).trans hlast
  · rw [teAt_enqueue_other _ _ _ hk, teAt_modTeAt_other _ _ hk, hte]

/-! ### The collector of control tokens -/

theorem log_tiles (s : State) (e : Event) : (s.log e).tiles = s.tiles := by
  unfold State.log
  simp only
  split <;> rfl

/-- The tiles after a packet is presented, but for the packets presented and their count. -/
theorem tile_present (s : State) (n : Nat) (p : Packet) (k : Nat) :
    (s.present n p).tile k = if k = n then { s.tile n with
        presented := (s.tile n).presented ++ [{ p with tile := n, at_ := s.now + 1, stamp := (s.tile n).nextPacket }]
        nextPacket := (s.tile n).nextPacket + 1 } else s.tile k := by
  unfold State.present
  split
  · next h => subst h; rw [tile_modTile_same]
  · next h => exact tile_modTile_ne s _ h

theorem ctx_present (s : State) (n : Nat) (p : Packet) (k : Nat) : (s.present n p).ctx k = s.ctx k := by
  unfold State.ctx
  rw [tile_present]
  split
  · next h => rw [h]
  · rfl

theorem thread_present (s : State) (n : Nat) (p : Packet) (k j : Nat) : (s.present n p).thread k j = s.thread k j := by
  unfold State.thread
  rw [ctx_present]

/-- The state in which the collector of a tile has taken a token of one of its TEs (R177). -/
def State.tokenTaken (s : State) (tile k : Nat) (x : CtlToken) : State :=
  (s.modCtx tile fun c => { c with collector := dropToken k c.collector, lastServed := k }).modTe tile x.col x.row
    fun e => { e with ctlTokens := e.ctlTokens - 1 }

/-- The token that is due and whose turn it is goes to its thread or sets out for its tile (R177). -/
theorem deliverControl_eq {s : State} {tile k : Nat} {x : CtlToken} (hst : (s.tile tile).stopped = false)
    (hk : nextServed ((s.ctx tile).collector.filter fun y => decide (y.due ≤ s.now)) (s.ctx tile).lastServed = some k)
    (hx : (((s.ctx tile).collector.filter fun y => decide (y.due ≤ s.now)).find? fun y => teKey y.col y.row == k) =
      some x) :
    s.deliverControl tile =
      if x.tile = tile then (s.tokenTaken tile k x).handToken { x with source := tile }
      else (s.tokenTaken tile k x).forwardToken tile { x with source := tile } := by
  unfold State.deliverControl
  simp only [hst, Bool.not_false, Bool.and_true, hk, hx]
  rfl

theorem FabricOnly.tokenTaken (s : State) (tile k : Nat) (x : CtlToken) : FabricOnly s (s.tokenTaken tile k x) := by
  unfold State.tokenTaken
  exact (FabricOnly.modCtx s tile _ rfl).trans (FabricOnly.modTe _ _ _ _ _)

theorem tokenTaken_collector (s : State) (tile k : Nat) (x : CtlToken) :
    ((s.tokenTaken tile k x).ctx tile).collector = dropToken k (s.ctx tile).collector ∧
      ((s.tokenTaken tile k x).te tile x.col x.row).ctlTokens = (s.te tile x.col x.row).ctlTokens - 1 := by
  have hte : ((s.modCtx tile fun c => { c with collector := dropToken k c.collector, lastServed := k }).teAt
      (tile, x.col, x.row)) = s.teAt (tile, x.col, x.row) := teAt_modCtx s tile _ rfl _
  unfold State.tokenTaken
  refine ⟨?_, ?_⟩
  · refine (ctx_modTeAt_keeps Context.collector (fun _ _ => rfl) _ (tile, x.col, x.row) _ tile).trans ?_
    rw [ctx_modCtx_same]
  · refine (congrArg TE.ctlTokens (teAt_modTeAt_same _ (tile, x.col, x.row) _)).trans ?_
    rw [hte]
    rfl

theorem threadLives_iff (s : State) (n k gid : Nat) :
    s.threadLives n k gid = true ↔
      ((s.thread n k).status = .running ∨ (s.thread n k).status = .stopped) ∧ (s.thread n k).gid = gid := by
  simp [State.threadLives, and_comm]

/-- Handing a token on changes at most EVT and FLAGS of its thread, where that lives (R15, R51, R177). -/
theorem handToken_spec (u : State) (y : CtlToken) :
    (u.threadLives y.tile y.slot y.gid = true →
      u.handToken y = u.modThread y.tile y.slot fun th =>
        { th with evt := th.evt ||| (1#16 <<< y.bit.toNat), flags := th.flags ||| y.flags }) ∧
    (u.threadLives y.tile y.slot y.gid = false → (u.handToken y).tiles = u.tiles) := by
  refine ⟨fun h => ?_, fun h => ?_⟩
  · simp [State.handToken, h]
  · simp only [State.handToken, h, Bool.false_eq_true, if_false]
    exact log_tiles _ _

/-- What the delivery of a token leaves of the collector and of the TE that pushed it, once it has been taken. -/
def KeepsCollector (u t : State) (tile : Nat) : Prop :=
  (t.ctx tile).collector = (u.ctx tile).collector ∧ (t.ctx tile).tes = (u.ctx tile).tes

theorem keepsCollector_of_tiles {u t : State} (h : t.tiles = u.tiles) (tile : Nat) : KeepsCollector u t tile := by
  unfold KeepsCollector
  rw [ctx_congr h]
  exact ⟨rfl, rfl⟩

theorem keepsCollector_modThread (u : State) (n k tile : Nat) (f : Thread → Thread) :
    KeepsCollector u (u.modThread n k f) tile := by
  unfold KeepsCollector State.modThread
  rw [ctx_setThread]
  split
  · next h => subst h; exact ⟨rfl, rfl⟩
  · exact ⟨rfl, rfl⟩

theorem keepsCollector_present (u : State) (n : Nat) (p : Packet) (tile : Nat) :
    KeepsCollector u (u.present n p) tile := by
  unfold KeepsCollector
  rw [ctx_present]
  exact ⟨rfl, rfl⟩

/-- A token for a thread of its own tile (R15, R51): a living thread takes it, and no other thread changes. -/
theorem handToken_delivers {u : State} {y : CtlToken} (tile : Nat) (hslot : y.slot < 4) :
    KeepsCollector u (u.handToken y) tile ∧
      (u.threadLives y.tile y.slot y.gid = true →
        ((u.handToken y).thread y.tile y.slot).evt = (u.thread y.tile y.slot).evt ||| (1#16 <<< y.bit.toNat) ∧
          ((u.handToken y).thread y.tile y.slot).flags = (u.thread y.tile y.slot).flags ||| y.flags ∧
          (∀ r, ((u.handToken y).thread y.tile y.slot).reg r = (u.thread y.tile y.slot).reg r) ∧
          SameMemory u (u.handToken y)) ∧
      (u.threadLives y.tile y.slot y.gid = false → (u.handToken y).thread y.tile y.slot = u.thread y.tile y.slot) ∧
      ∀ p q, ¬(p = y.tile ∧ q = y.slot) → (u.handToken y).thread p q = u.thread p q := by
  obtain ⟨hlive, hdead⟩ := handToken_spec u y
  cases h : u.threadLives y.tile y.slot y.gid
  · have ht := hdead h
    exact ⟨keepsCollector_of_tiles ht tile, by simp, fun _ => thread_congr ht _ _, fun p q _ => thread_congr ht p q⟩
  · rw [hlive h]
    have e := thread_setThread_same u y.tile { u.thread y.tile y.slot with
      evt := (u.thread y.tile y.slot).evt ||| (1#16 <<< y.bit.toNat)
      flags := (u.thread y.tile y.slot).flags ||| y.flags } hslot
    exact ⟨keepsCollector_modThread u _ _ tile _, fun _ => ⟨congrArg Thread.evt e, congrArg Thread.flags e,
      fun r => reg_congr (congrArg Thread.regs e) r, fun _ => rfl, rfl⟩, by simp, fun p q hn => thread_setThread_ne _ _ hn⟩

theorem controlTokensReachTheirThread : ControlTokensReachTheirThread := by
  intro tile k x s ht hst due hk hx hslot th
  have he : exec (.controlTokenDelivery tile) s = .next (s.deliverControl tile) := by
    rw [exec_controlTokenDelivery, execControlTokenDelivery, if_neg (by omega)]
  rw [he, deliverControl_eq hst hk hx]
  have hf := FabricOnly.tokenTaken s tile k x
  obtain ⟨hcol, hctl⟩ := tokenTaken_collector s tile k x
  generalize s.tokenTaken tile k x = u at hf hcol hctl ⊢
  have hlives := threadLives_iff u x.tile x.slot x.gid
  rw [hf.thread] at hlives
  have hkeeps : ∀ t, KeepsCollector u t tile → (t.ctx tile).collector = dropToken k (s.ctx tile).collector ∧
      (t.te tile x.col x.row).ctlTokens = (s.te tile x.col x.row).ctlTokens - 1 := by
    rintro t ⟨hc, hte⟩
    refine ⟨hc.trans hcol, ?_⟩
    rw [← hctl]
    unfold State.te
    rw [hte]
  have hth : u.thread x.tile x.slot = th := hf.thread _ _
  by_cases hown : x.tile = tile
  · rw [if_pos hown]
    obtain ⟨hkeep, hlive, hdead, hother⟩ := handToken_delivers (u := u) (y := { x with source := tile }) tile hslot
    refine ⟨_, rfl, fun _ hs hg => ?_, fun hn => absurd hown hn, fun hn => ?_, fun p q hn => ?_, hkeeps _ hkeep⟩
    · obtain ⟨hevt, hflags, hreg, hmem⟩ := hlive (hlives.2 ⟨hs, hg⟩)
      exact ⟨hth ▸ hevt, hth ▸ hflags, fun r => hth ▸ hreg r, fun a => (hmem.1 a).trans (hf.sameMemory.1 a),
        hmem.2.trans hf.poison⟩
    · exact (hdead (Bool.eq_false_iff.2 fun h => hn (hlives.1 h))).trans hth
    · exact (hother p q hn).trans (hf.thread p q)
  · rw [if_neg hown]
    have hpres : u.forwardToken tile { x with source := tile } = u.present tile
        { vc := 4, owner := (u.ownerOf x.gid).getD 0, path := pathBetween tile x.tile
          payload := .token { x with source := tile } } := rfl
    rw [hpres]
    have hthr : ∀ (p : Packet) (n j : Nat), (u.present tile p).thread n j = s.thread n j := fun p n j =>
      (thread_present u tile p n j).trans (hf.thread n j)
    refine ⟨_, rfl, fun h => absurd h hown, fun _ => ⟨hthr _ _ _, hf.sameMemory, ?_⟩, fun _ => hthr _ _ _,
      fun p q _ => hthr _ p q, hkeeps _ (keepsCollector_present u tile _ tile)⟩
    rw [tile_present, if_pos rfl]
    have hp : (u.tile tile).presented = (s.tile tile).presented := hf.tileKeeps (·.presented) (fun _ => rfl) tile
    exact ⟨_, congrArg (· ++ [_]) hp, rfl, rfl⟩

/-- Settles O44: a column unit and the collector change the fabric alone, but for the thread or the interface that a
control token reaches. -/
theorem fabricUnitsServeTheTes : Obligations.FabricUnitsServeTheTes :=
  ⟨columnUnitsReply, controlTokensReachTheirThread⟩

end Sys2Proof.Machine
end

section
/-! SUPPORT. The firing of a compute-form slot in one beat, and the control token that DONE pushes (R15, R134, R145,
R165). -/

namespace Sys2Proof.Machine

open Sys2Proof.Claims

/-! ## Firings -/

/-- A compute-form slot that nothing stops fires whole (R143 to R145). -/
theorem fireCompute_of_fires {k : Form} {t : Trig} {f : Comp} {s : State} {sh : Shape} (w : TE → Work)
    (h : fires k t f s sh) :
    fireCompute k t f w s = .next (s.fireAll s.focusTe t f sh (w (s.teAt s.focusTe))) := by
  obtain ⟨-, -, -, hs⟩ := h
  unfold firingShape at hs
  unfold fireCompute
  cases hsh : formShape k t f (s.teAt s.focusTe) (s.source s.focusTe (s.teAt s.focusTe) f [] 0) with
  | none => simp only [hsh] at hs; cases hs
  | some x =>
    simp only [hsh] at hs ⊢
    split at hs
    · next hr =>
      cases hs
      rw [Bool.and_eq_true, Option.isNone_iff_eq_none] at hr
      rw [if_pos hr.1, hr.2]
    · cases hs

theorem setXs_ctlTokens (l : List (Nat × BitVec 16)) : ∀ e : TE, (e.setXs l).ctlTokens = e.ctlTokens := by
  unfold TE.setXs
  induction l with
  | nil => intro _; rfl
  | cons y l ih => intro e; exact ih _

/-- The end of a firing leaves the control tokens of its TE under way. -/
theorem finishFiring_ctlTokens (e e0 : TE) (t : Trig) (f : Comp) (sh : Shape) (preds : List (Nat × Bool))
    (xw : List (Nat × BitVec 16)) (lap : Option (BitVec 8)) (v : Option W32) :
    (e.finishFiring e0 t f sh preds xw lap v).ctlTokens = e.ctlTokens := by
  unfold TE.finishFiring
  simp only
  split <;> split <;> exact (setXs_ctlTokens _ _).trans (setXs_ctlTokens _ _)

/-- The state in which DONE pushes its token: its firing is counted, and its beat gathers no flags (R145). -/
def State.doneBeat (s : State) (p : TeId) : State :=
  ((s.count 1 p.1 0).countBy 1 p.1 1 1).modTeAt p fun y => { y with flags := y.flags ||| (0#8 &&& 0x1F#8) }

/-- The firing of DONE in its one beat: it pushes its control token, dequeues, and makes the updates at the end of a
firing (R145, R165). -/
theorem fireAll_doneWork (s : State) (p : TeId) (t : Trig) (f : Comp) (sh : Shape) (h : beatsOf t = 1) :
    s.fireAll p t f sh (doneWork f) =
      (sh.deq.foldl (fun a ch => a.dequeue p ch)
        ((s.doneBeat p).pushControl p (s.instanceOf p) (f.imm12.setWidth 4))).modTeAt p
        fun e => e.finishFiring (s.teAt p) t f sh [] [] none none := by
  unfold State.fireAll
  rw [h]
  rfl

/-! ## What dequeues leave -/

/-- What no change of a TE that leaves its control tokens changes, a returned slot leaves as it is. -/
theorem returnSlot_keeps {α : Type} (g : State → α)
    (hg : ∀ (u : State) (q : TeId) (f : TE → TE), (∀ e, (f e).ctlTokens = e.ctlTokens) → g (u.modTeAt q f) = g u)
    (s : State) (p : TeId) (ch : Nat) : g (s.returnSlot p ch) = g s := by
  unfold State.returnSlot
  split
  · rfl
  · split
    · rfl
    · exact hg _ _ _ fun _ => rfl

theorem dequeue_keeps {α : Type} (g : State → α)
    (hg : ∀ (u : State) (q : TeId) (f : TE → TE), (∀ e, (f e).ctlTokens = e.ctlTokens) → g (u.modTeAt q f) = g u)
    (s : State) (p : TeId) (ch : Nat) : g (s.dequeue p ch) = g s := by
  unfold State.dequeue
  split
  · rfl
  · next t rest _ =>
    have h1 := hg s p (fun e => { e.setQueue ch rest with flags := e.flags ||| (t.flags &&& 0x1F#8) }) fun _ => rfl
    simp only
    split
    · split
      · exact (returnSlot_keeps g hg _ p ch).trans h1
      · exact (hg _ p (fun e => { e with taken := e.taken ++ [(ch, t)] }) fun _ => rfl).trans h1
    · exact (returnSlot_keeps g hg _ p ch).trans h1

theorem dequeues_keep {α : Type} (g : State → α)
    (hg : ∀ (u : State) (q : TeId) (f : TE → TE), (∀ e, (f e).ctlTokens = e.ctlTokens) → g (u.modTeAt q f) = g u)
    (p : TeId) : ∀ (l : List Nat) (s : State), g (l.foldl (fun a ch => a.dequeue p ch) s) = g s
  | [], _ => rfl
  | ch :: l, s => (dequeues_keep g hg p l (s.dequeue p ch)).trans (dequeue_keeps g hg s p ch)

/-! ## Images -/

/-- A change of an image that keeps its number is found under that number. -/
theorem image?_modImage (s : State) (i : Nat) (f : Image → Image) (hf : ∀ m, (f m).id = m.id) :
    (s.modImage i f).image? i = (s.image? i).map f := by
  have hk : (fun m : Image => m.id == i) ∘ (fun m => if m.id == i then f m else m) = fun m => m.id == i := by
    funext m
    by_cases h : m.id = i <;> simp [h, hf]
  unfold State.image? State.modImage
  rw [List.find?_map, hk]
  refine Option.map_congr fun m hm => ?_
  exact if_pos (List.find?_some (p := fun m : Image => m.id == i) hm)

/-- The image of a TE is found under its own number. -/
theorem image?_of_imageOf {s : State} {p : TeId} {m : Image} (h : s.imageOf p = some m) : s.image? m.id = some m := by
  unfold State.imageOf at h
  obtain ⟨i, -, hm⟩ := Option.bind_eq_some_iff.mp h
  have hi : m.id = i := by simpa using List.find?_some hm
  rw [hi, hm]

/-! ## DONE -/

/-- The control token that DONE makes (R15, R165). -/
def State.controlToken (s : State) (p : TeId) (m : Image) (n : BitVec 4) : CtlToken :=
  ⟨p.2.1, p.2.2, n, (s.teAt p).flags, (s.teAt p).dest.1, (s.teAt p).dest.2, m.gid, s.now + 3, p.1⟩

/-- The push of DONE where no region is open: the token joins the collector of its tile (R15, R165). -/
theorem pushControl_outside (s : State) (p : TeId) (n : BitVec 4) {m : Image} (hm : s.imageOf p = some m) :
    ((s.pushControl p none n).teAt p).ctlTokens = (s.teAt p).ctlTokens + 1 ∧
    ((s.pushControl p none n).ctx p.1).collector = (s.ctx p.1).collector ++ [s.controlToken p m n] ∧
    (s.pushControl p none n).images = s.images := by
  unfold State.pushControl State.controlToken
  rw [hm]
  refine ⟨?_, ?_, rfl⟩
  · rw [teAt_modCtx _ _ _ rfl, teAt_modTeAt_same]
  · rw [ctx_modCtx_same]
    exact congrArg (· ++ _) (ctx_modTeAt_keeps (·.collector) (fun _ _ => rfl) s p _ p.1)

/-- The image holding one more control token to the commit of its region. -/
def Image.holding (m : Image) (x : Nat × CtlToken) : Image := { m with heldTokens := m.heldTokens ++ [x] }

/-- The push of DONE in an open region, by its parts: the TE counts the token and the image holds it. -/
theorem pushControl_some (s : State) (p : TeId) (n : BitVec 4) {m : Image} (hm : s.imageOf p = some m) :
    s.pushControl p (some m.id) n =
      (s.modTeAt p fun x => { x with flags := 0#8, ctlTokens := x.ctlTokens + 1 }).modImage m.id
        fun k => k.holding (p.1, s.controlToken p m n) := by
  unfold State.pushControl State.controlToken
  rw [hm]
  rfl

/-- The push of DONE in an open region: the image holds the token to the commit (R165, R245). -/
theorem pushControl_inside (s : State) (p : TeId) (n : BitVec 4) {m : Image} (hm : s.imageOf p = some m) :
    ((s.pushControl p (some m.id) n).teAt p).ctlTokens = (s.teAt p).ctlTokens + 1 ∧
    ((s.pushControl p (some m.id) n).ctx p.1).collector = (s.ctx p.1).collector ∧
    (s.pushControl p (some m.id) n).image? m.id =
      some { m with heldTokens := m.heldTokens ++ [(p.1, s.controlToken p m n)] } := by
  have hi : (s.modTeAt p fun x => { x with flags := 0#8, ctlTokens := x.ctlTokens + 1 }).image? m.id = some m :=
    (image?_of_imageOf hm : s.image? m.id = some m)
  rw [pushControl_some s p n hm]
  refine ⟨?_, ?_, ?_⟩
  · rw [teAt_modImage, teAt_modTeAt_same]
  · rw [ctx_modImage]
    exact ctx_modTeAt_keeps (·.collector) (fun _ _ => rfl) s p _ p.1
  · rw [image?_modImage _ _ (Image.holding · _) fun _ => rfl, hi]
    rfl

/-- What no change of a TE that leaves its control tokens changes, is after the firing of DONE what its push made it. -/
theorem fireAll_doneWork_keeps {α : Type} (g : State → α)
    (hg : ∀ (u : State) (q : TeId) (f : TE → TE), (∀ e, (f e).ctlTokens = e.ctlTokens) → g (u.modTeAt q f) = g u)
    (s : State) (p : TeId) (t : Trig) (f : Comp) (sh : Shape) (h : beatsOf t = 1) :
    g (s.fireAll p t f sh (doneWork f)) =
      g ((s.doneBeat p).pushControl p (s.instanceOf p) (f.imm12.setWidth 4)) := by
  rw [fireAll_doneWork s p t f sh h]
  exact (hg _ _ _ fun e => finishFiring_ctlTokens e _ t f sh _ _ _ _).trans (dequeues_keep g hg p _ _)

/-- DONE has one beat. -/
theorem beatsOf_done {t : Trig} {f : Comp} (h : (Instr.done t f).wf = true) : beatsOf t = 1 := by
  have hk : Form.ok .doneTok t.fmt t.beatsM1 f = true := by
    have hc : compOk t f .doneTok .anyFmt = true := h
    unfold compOk at hc
    simp only [Bool.and_eq_true] at hc
    tauto
  have hb : t.beatsM1 = 0#5 := by
    simp only [Form.ok, Bool.and_eq_true, beq_iff_eq] at hk
    exact hk.1
  unfold beatsOf
  rw [hb]
  rfl

theorem teAt_doneBeat (s : State) (p : TeId) : (s.doneBeat p).teAt p = s.teAt p := by
  unfold State.doneBeat
  rw [teAt_modTeAt_same]
  simp only [BitVec.zero_and, BitVec.or_zero]
  exact teAt_congr (fun _ => rfl) p

theorem imageOf_doneBeat (s : State) (p : TeId) : (s.doneBeat p).imageOf p = s.imageOf p := by
  unfold State.imageOf
  rw [teAt_doneBeat]
  rfl

theorem collector_doneBeat (s : State) (p : TeId) (n : Nat) : ((s.doneBeat p).ctx n).collector = (s.ctx n).collector :=
  ctx_modTeAt_keeps (·.collector) (fun _ _ => rfl) _ p _ n

/-- The push of DONE sees the TE as the slot fires in it. -/
theorem controlToken_doneBeat (s : State) (p : TeId) (m : Image) (n : BitVec 4) :
    (s.doneBeat p).controlToken p m n = s.controlToken p m n := by
  unfold State.controlToken
  rw [teAt_doneBeat]
  rfl

/-- Settles O32: DONE fires in one beat, whose push comes before its dequeues, so the token takes the flags that the TE
had; the dequeues and the end of the firing leave the collector, the images and the token's count as they are. -/
theorem doneSendsAControlToken : Obligations.DoneSendsAControlToken := by
  unfold Obligations.DoneSendsAControlToken
  intro t f s sh m hwf hf hm e x
  have h1 := beatsOf_done hwf
  have hm' := (imageOf_doneBeat s s.focusTe).trans hm
  have hc := fireAll_doneWork_keeps (fun u => (u.ctx s.focus.tile).collector)
    (fun u q g _ => ctx_modTeAt_keeps (·.collector) (fun _ _ => rfl) u q g _) s s.focusTe t f sh h1
  have hi := fireAll_doneWork_keeps State.images (fun _ _ _ _ => rfl) s s.focusTe t f sh h1
  have hk := fireAll_doneWork_keeps (fun u => (u.teAt s.focusTe).ctlTokens)
    (fun u q g => teAt_modTeAt_keeps (·.ctlTokens) u q s.focusTe g) s s.focusTe t f sh h1
  have hin : s.instanceOf s.focusTe = if m.active then some m.id else none := by
    unfold State.instanceOf
    rw [hm]
  refine ⟨_, fireCompute_of_fires (fun _ => doneWork f) hf, hk.trans ?_, fun ha => ?_, fun ha => ?_⟩
  · rw [hin]
    cases m.active with
    | false =>
      exact (pushControl_outside _ _ _ hm').1.trans (congrArg (·.ctlTokens + 1) (teAt_doneBeat s s.focusTe))
    | true =>
      exact (pushControl_inside _ _ _ hm').1.trans (congrArg (·.ctlTokens + 1) (teAt_doneBeat s s.focusTe))
  · rw [hin, ha] at hc hi
    obtain ⟨-, p2, p3⟩ := pushControl_outside (s.doneBeat s.focusTe) s.focusTe (f.imm12.setWidth 4) hm'
    exact ⟨(hc.trans p2).trans (congrArg₂ (· ++ [·]) (collector_doneBeat s _ _) (controlToken_doneBeat s _ m _)), hi.trans p3⟩
  · rw [hin, ha] at hc hi
    obtain ⟨-, p2, p3⟩ := pushControl_inside (s.doneBeat s.focusTe) s.focusTe (f.imm12.setWidth 4) hm'
    rw [controlToken_doneBeat] at p3
    refine ⟨(hc.trans p2).trans (collector_doneBeat s _ _), ?_⟩
    unfold State.image? at p3 ⊢
    rw [hi]
    exact p3

end Sys2Proof.Machine
end

section
/-! SUPPORT. The delivery of a stream to a column (R385, R386): the frame of the operations on commands, and what the steps
of a delivery leave of the TEs and of the stream. -/

namespace Sys2Proof.Machine

open Sys2Proof.Claims

/-! ## States that differ in their commands alone -/

/-- The context without its threads, tokens, commands and pool. -/
def Context.sansCommands (c : Context) : Context :=
  { c with threads := Vector.replicate 4 {}, tokens := Vector.replicate 64 {}, cmds := [], pool := {} }

/-- The tile without the threads, tokens, commands and pool of its running context, and the packets it presents. -/
def Tile.sansCommands (x : Tile) : Tile := { x with ctx := x.ctx.sansCommands, presented := [], nextPacket := 0 }

/-- The context without a command that ends, nor what it owns of the pool. -/
def Context.withoutCmd (x : Context) (c : Cmd) (st : TokState) : Context :=
  { x with cmds := x.cmds.filter fun y => y.id != c.id
           pool := if c.armed then x.pool.endArmed c st else x.pool.endOwned c.id }

/-- The end of a command (R275): it goes, and unless it was armed it posts its flags, replies and moves its token. -/
theorem endCmd_eq (s : State) (tile : Nat) (c : Cmd) (st : TokState) (cause : BitVec 6) :
    s.endCmd tile c st cause =
      if c.armed then s.modCtx tile (·.withoutCmd c st)
      else
        (if st.failed then ((s.modCtx tile (·.withoutCmd c st)).postFlags tile c.slot c.gid c.flags).replyTo tile c 0#64
          else (s.modCtx tile (·.withoutCmd c st)).postFlags tile c.slot c.gid c.flags).moveToken tile c st cause := rfl

/-- The tiles differ in what commands act on through their tokens alone: threads, tokens, commands, pools and packets. -/
abbrev CommandsOnly (s t : State) : Prop := AgreeIn Tile.sansCommands s t

namespace CommandsOnly

variable {s t : State}

theorem modCtx (s : State) (n : Nat) (f : Context → Context) (hf : (f (s.ctx n)).sansCommands = (s.ctx n).sansCommands) :
    CommandsOnly s (s.modCtx n f) :=
  AgreeIn.modTile s n _ (congrArg (fun c : Context => { s.tile n with ctx := c, presented := [], nextPacket := 0 }) hf)

theorem setThread (s : State) (n k : Nat) (th : Thread) : CommandsOnly s (s.setThread n k th) := modCtx s n _ rfl

theorem modToken (s : State) (n k : Nat) (f : TokenSlot → TokenSlot) : CommandsOnly s (s.modToken n k f) := modCtx s n _ rfl

theorem modCmd (s : State) (n id : Nat) (f : Cmd → Cmd) : CommandsOnly s (s.modCmd n id f) := modCtx s n _ rfl

theorem present (s : State) (n : Nat) (p : Packet) : CommandsOnly s (s.present n p) := AgreeIn.modTile s n _ rfl

theorem postFlags (s : State) (n slot gid : Nat) (f : BitVec 8) : CommandsOnly s (s.postFlags n slot gid f) := by
  unfold State.postFlags
  simp only
  split
  · exact setThread s n slot _
  · exact AgreeIn.refl s

theorem replyTo (s : State) (n : Nat) (c : Cmd) (v : Word) : CommandsOnly s (s.replyTo n c v) := by
  unfold State.replyTo
  split
  · exact AgreeIn.refl s
  · simp only
    split
    · exact setThread s n c.slot _
    · exact AgreeIn.refl s

theorem moveToken (s : State) (n : Nat) (c : Cmd) (st : TokState) (cause : BitVec 6) :
    CommandsOnly s (s.moveToken n c st cause) := by
  unfold State.moveToken
  split
  · exact AgreeIn.refl s
  · exact modToken s n _ _

theorem endCmd (s : State) (n : Nat) (c : Cmd) (st : TokState) (cause : BitVec 6) :
    CommandsOnly s (s.endCmd n c st cause) := by
  have h1 := modCtx s n (·.withoutCmd c st) rfl
  rw [endCmd_eq]
  split
  · exact h1
  · have h2 := h1.trans (postFlags _ n c.slot c.gid c.flags)
    refine AgreeIn.trans ?_ (moveToken _ n c st cause)
    split
    · exact h2.trans (replyTo _ n c _)
    · exact h2

theorem saveCmd (s : State) (n : Nat) (c : Cmd) : CommandsOnly s (s.saveCmd n c) := by
  have h1 := modCmd s n c.id fun _ => c
  unfold State.saveCmd
  simp only
  split
  · exact h1
  · exact h1.trans (modToken _ n _ _)

theorem finishCmd (s : State) (n : Nat) (c : Cmd) (st : TokState) (cause : BitVec 6) :
    CommandsOnly s (s.finishCmd n c st cause) := by
  unfold State.finishCmd
  split
  · exact saveCmd s n _
  · exact endCmd s n c st cause

theorem sgoCheck (s : State) (n id : Nat) : CommandsOnly s (s.sgoCheck n id) := by
  unfold State.sgoCheck
  split
  · exact AgreeIn.refl s
  · split
    · exact AgreeIn.refl s
    · split
      · exact finishCmd s n _ _ _
      · split <;> exact finishCmd s n _ _ _

theorem engineRequest (s : State) (n target gid : Nat) (who : EngineId) (space : Space) (place bytes : Nat) (write : Bool) :
    CommandsOnly s (s.engineRequest n target gid who space place bytes write) := by
  unfold State.engineRequest
  simp only
  split
  · exact present s n _
  · exact (present s n _).trans (present _ n _)

theorem teAt (h : CommandsOnly s t) (p : TeId) : t.teAt p = s.teAt p :=
  teAt_congr (h.tileKeeps (·.ctx.tes) fun _ => rfl) p

theorem stream (h : CommandsOnly s t) (n i : Nat) : t.stream n i = s.stream n i :=
  h.tileKeeps (fun x => vget x.ctx.streams i {}) (fun _ => rfl) n

end CommandsOnly

/-! ## Steps of a delivery -/

theorem stream_modStream_same (s : State) (tile : Nat) {i : Nat} (f : Stream → Stream) (hi : i < 8) :
    (s.modStream tile i f).stream tile i = f (s.stream tile i) := by
  unfold State.modStream State.stream
  rw [ctx_modCtx_same]
  exact vget_vset_same _ _ _ hi

/-- A step that leaves every TE, the memory and a part of one stream. -/
structure StreamKeeps {α : Type} (part : Stream → α) (tile i : Nat) (s t : State) : Prop where
  tes : ∀ q, t.teAt q = s.teAt q
  memory : SameMemory s t
  stream : part (t.stream tile i) = part (s.stream tile i)

namespace StreamKeeps

variable {α : Type} {part : Stream → α} {tile i : Nat} {s t u : State}

theorem refl (s : State) : StreamKeeps part tile i s s := ⟨fun _ => rfl, ⟨fun _ => rfl, rfl⟩, rfl⟩

theorem trans (h : StreamKeeps part tile i s t) (k : StreamKeeps part tile i t u) : StreamKeeps part tile i s u :=
  ⟨fun q => (k.tes q).trans (h.tes q), ⟨fun a => (k.memory.1 a).trans (h.memory.1 a), k.memory.2.trans h.memory.2⟩,
    k.stream.trans h.stream⟩

theorem of_commandsOnly (h : CommandsOnly s t) : StreamKeeps part tile i s t :=
  ⟨h.teAt, h.sameMemory, congrArg part (h.stream tile i)⟩

theorem modStream (s : State) (hi : i < 8) (f : Stream → Stream) (hf : part (f (s.stream tile i)) = part (s.stream tile i)) :
    StreamKeeps part tile i s (s.modStream tile i f) :=
  ⟨teAt_modCtx s tile _ rfl, ⟨fun _ => rfl, rfl⟩, (congrArg part (stream_modStream_same s tile f hi)).trans hf⟩

end StreamKeeps

/-! ### The request for the next element -/

/-- The stream without its requests under way. -/
def Stream.sansRequests (st : Stream) : Stream := { st with asked := 0, onWay := [] }

theorem eq_of_sansRequests {a b : Stream} (h : a.sansRequests = b.sansRequests) :
    a = { b with asked := a.asked, onWay := a.onWay } := by
  cases a
  cases b
  simpa [Stream.sansRequests] using h

/-- A request for an element changes the stream's requests alone (R385). -/
theorem requestNext_keeps (s : State) (tile : Nat) {i : Nat} (hi : i < 8) :
    StreamKeeps Stream.sansRequests tile i s (s.requestNext tile i) := by
  unfold State.requestNext
  simp only
  split
  · exact .refl s
  · split
    · exact .modStream s hi _ rfl
    · refine StreamKeeps.trans (StreamKeeps.trans ?_ (.modStream _ hi _ ?_)) (.of_commandsOnly (.modCmd _ _ _ _))
      · exact .of_commandsOnly (.engineRequest _ _ _ _ _ _ _ _ _)
      · rfl

/-- A stream that has fetched all its elements fetches no more (R385). -/
theorem fetchNext_keeps {s : State} {tile i : Nat} (hi : i < 8)
    (h : (s.stream tile i).total ≤ (s.stream tile i).fetched) :
    StreamKeeps Stream.sansRequests tile i s (s.fetchNext tile i) := by
  have hr := requestNext_keeps s tile hi
  have ht : ((s.requestNext tile i).stream tile i).total ≤ ((s.requestNext tile i).stream tile i).fetched := by
    have e1 := congrArg Stream.total hr.stream
    have e2 := congrArg Stream.fetched hr.stream
    exact e1.trans_le (h.trans e2.ge)
  unfold State.fetchNext
  simp only [ht, decide_true, Bool.true_or, if_true]
  exact hr

/-! ### The end of a delivery -/

theorem endStream_keeps (s : State) (tile : Nat) {i : Nat} (bad : Nat) (hi : i < 8) :
    StreamKeeps Stream.subs tile i s (s.endStream tile i bad) := by
  unfold State.endStream
  refine StreamKeeps.trans (StreamKeeps.trans (.modStream s hi _ ?_) (.of_commandsOnly (.modCmd _ _ _ _)))
    (.of_commandsOnly (.sgoCheck _ _ _))
  rfl

/-- The end of a delivery leaves the subscribers as they are (R385). -/
theorem settleStream_keeps (s : State) (tile : Nat) {i : Nat} (hi : i < 8) :
    StreamKeeps Stream.subs tile i s (s.settleStream tile i) := by
  unfold State.settleStream
  simp only
  split
  · exact .refl s
  · split
    · exact endStream_keeps s tile 0 hi
    · exact .modStream s hi _ rfl

/-! ### The offer to a column -/

/-- The token of a stream's next elements for a column (R386). -/
def Stream.columnToken (st : Stream) (k m : Nat) : Token :=
  { data := BitVec.ofNat 32 (packElems (poolSize st.fmt) ((List.range m).filterMap fun j => st.elem? (k + j)))
    fmt := (tokenShape st.fmt).1, utag := 2#2, stream := true }

/-- The elements that stand in the buffer for a column's next token. -/
def Stream.columnElems (st : Stream) (k m : Nat) : List Elem := (List.range m).filterMap fun j => st.elem? (k + j)

/-- The state in which a column has taken the elements of one token: they stand in in.m of its TE (R386). -/
def State.feedColumn (s : State) (tile i : Nat) (u : Sub) (m : Nat) (x : Token) : State :=
  (s.modSub tile i u.sub fun y => { y with taken := y.taken + m }).enqueue (tile, u.sub, 0) 4 x

/-- An offer to a column whose elements stand in the buffer and whose TE has a free slot enters in.m of the TE, and the
column's place moves on by the elements taken (R385, R386). -/
theorem offer_column {s : State} {tile i : Nat} {st : Stream} {u : Sub} {start size o : Nat} (hst : s.stream tile i = st)
    (hrun : st.running = true) (hfr : st.frozen = none) (hsubs : st.subs = [u]) (hsub : u.sub < 20)
    (hplace : u.place st.total = some (start, size, o))
    (hes : (st.columnElems (start + o % size) (Sub.tokenElems (tokenShape st.fmt).2 size o)).length =
      Sub.tokenElems (tokenShape st.fmt).2 size o)
    (htok : (s.teAt (tile, u.sub, 0)).streamTokens < 4) (hused : (s.teAt (tile, u.sub, 0)).usedSlots 4 < 8) :
    s.offer tile i u.sub =
      s.feedColumn tile i u (Sub.tokenElems (tokenShape st.fmt).2 size o)
        (st.columnToken (start + o % size) (Sub.tokenElems (tokenShape st.fmt).2 size o)) := by
  have hno : ¬((st.columnElems (start + o % size) (Sub.tokenElems (tokenShape st.fmt).2 size o)).length <
      Sub.tokenElems (tokenShape st.fmt).2 size o || 4 ≤ (s.teAt (tile, u.sub, 0)).streamTokens ||
        8 ≤ (s.teAt (tile, u.sub, 0)).usedSlots 4) = true := by
    simp only [Bool.or_eq_true, decide_eq_true_eq]
    omega
  have ho : s.offerColumn tile i st u =
      s.feedColumn tile i u (Sub.tokenElems (tokenShape st.fmt).2 size o)
        (st.columnToken (start + o % size) (Sub.tokenElems (tokenShape st.fmt).2 size o)) := by
    unfold State.offerColumn
    rw [hplace]
    exact if_neg hno
  unfold State.offer
  simp only [hst, hsubs, List.find?_cons, beq_self_eq_true, hrun, hfr, hsub, Bool.not_true, Option.isSome_none, Bool.or_self,
    Bool.false_eq_true, if_false, if_true]
  exact ho

/-- A delivery to the one subscriber of a running stream: the next element is fetched, the subscriber gets its offer, and
the stream settles (R385). -/
theorem streamDeliver_one {s : State} {tile i : Nat} {u : Sub} (hrun : (s.stream tile i).running = true)
    (hfr : (s.stream tile i).frozen = none) (hstop : (s.tile tile).stopped = false) (hsubs : (s.stream tile i).subs = [u]) :
    s.streamDeliver tile i = ((s.fetchNext tile i).offer tile i u.sub).settleStream tile i := by
  unfold State.streamDeliver
  simp [hrun, hfr, hstop, hsubs]

theorem subs_feedColumn (s : State) (tile : Nat) {i : Nat} {u : Sub} (m : Nat) (x : Token) (hi : i < 8)
    (hsubs : (s.stream tile i).subs = [u]) :
    ((s.feedColumn tile i u m x).stream tile i).subs = [{ u with taken := u.taken + m }] := by
  have h : ((s.modSub tile i u.sub fun x => { x with taken := x.taken + m }).stream tile i).subs =
      [{ u with taken := u.taken + m }] := by
    unfold State.modSub
    rw [stream_modStream_same _ _ _ hi, hsubs]
    simp
  refine Eq.trans ?_ h
  exact ctx_modTeAt_keeps (fun c => (vget c.streams i {}).subs) (fun _ _ => rfl) _ _ _ tile

theorem teAt_modSub (s : State) (tile i sub : Nat) (f : Sub → Sub) (q : TeId) : (s.modSub tile i sub f).teAt q = s.teAt q :=
  teAt_modCtx s tile _ rfl q

/-- A stream that has fetched all its elements changes no more than its requests before its offer,
which enters in.m of the TE; what settles it leaves its subscribers and the TEs. -/
theorem streamsDeliverToColumns : StreamsDeliverToColumns := by
  intro tile i u s start size o ht hi st p m es hrun hfr hstop hsubs hsub hplace hall hes htok hused
  have hx : exec (.streamElementDelivery tile i) s = .next (s.streamDeliver tile i) := by
    rw [exec_streamElementDelivery, execStreamElementDelivery, if_neg (by simp; omega)]
  have h1 := fetchNext_keeps hi hall
  have ho : (s.fetchNext tile i).offer tile i u.sub =
      (s.fetchNext tile i).feedColumn tile i u m (st.columnToken (start + o % size) m) :=
    (offer_column (eq_of_sansRequests h1.stream) hrun hfr hsubs hsub hplace hes (by rw [h1.tes]; exact htok)
      (by rw [h1.tes]; exact hused) :)
  have hd := (streamDeliver_one hrun hfr hstop hsubs).trans (congrArg (State.settleStream · tile i) ho)
  generalize s.fetchNext tile i = s1 at h1 hd
  have hsubs1 : (s1.stream tile i).subs = [u] := (congrArg Stream.subs h1.stream).trans hsubs
  have h2 := settleStream_keeps (s1.feedColumn tile i u m (st.columnToken (start + o % size) m)) tile hi
  rw [hx, hd]
  refine ⟨_, st.columnToken (start + o % size) m, rfl, ?_, rfl, rfl, rfl, rfl, ?_, fun q hq => ?_, ?_⟩
  · rw [h2.tes, State.feedColumn, teAt_enqueue_same, teAt_modSub, h1.tes]
    exact queue_setQueue_same _ _ (by decide)
  · exact h2.stream.trans (subs_feedColumn s1 tile m _ hi hsubs1)
  · rw [h2.tes, State.feedColumn, teAt_enqueue_other _ _ _ hq, teAt_modSub, h1.tes]
  · exact ⟨fun a => (h2.memory.1 a).trans (h1.memory.1 a), h2.memory.2.trans h1.memory.2⟩

end Sys2Proof.Machine
end

section
/-! SUPPORT. The takeover of a TE by an FLOAD (R13, R85, R347): what leaves the TE's old image, the configuration of the TE,
its W words, and the end of the FLOAD. -/

namespace Sys2Proof.Machine

open Sys2Proof.Claims

/-! ## What leaving an image concerns -/

namespace FabricOnly

theorem modColReqs (s : State) (n : Nat) (f : Context → Vector (List ColReq) 20) :
    FabricOnly s (s.modCtx n fun c => { c with colReqs := f c }) := modCtx s n _ rfl

theorem returnSlot (s : State) (p : TeId) (ch : Nat) : FabricOnly s (s.returnSlot p ch) := by
  unfold State.returnSlot
  split
  · exact AgreeIn.refl s
  · split
    · exact AgreeIn.refl s
    · exact modTeAt s _ _

theorem returnSlots (p : TeId) (ch : Nat) : ∀ (n : Nat) (s : State), FabricOnly s (s.returnSlots p ch n)
  | 0, s => AgreeIn.refl s
  | n + 1, s => (returnSlot s p ch).trans (returnSlots p ch n _)

theorem dropTokens (s : State) (p : TeId) (img : Nat) : FabricOnly s (s.dropTokens p img) := by
  unfold State.dropTokens
  exact AgreeIn.foldl _ (fun a ch => (modTeAt a p _).trans (returnSlots p ch _ _)) _ s

theorem restoreTe (s : State) (m : Image) (p : TeId) : FabricOnly s (s.restoreTe m p) := by
  unfold State.restoreTe
  simp only
  exact AgreeIn.trans (AgreeIn.trans (dropTokens s p m.id) (modTeAt _ p _)) (modColReqs _ p.1 _)

theorem dropElsewhere (s : State) (m : Image) : FabricOnly s (s.dropElsewhere m) := by
  unfold State.dropElsewhere
  exact AgreeIn.foldl _ (fun a p => dropTokens a p m.id) _ s

theorem dropControl (s : State) (m : Image) : FabricOnly s (s.dropControl m) := by
  unfold State.dropControl
  exact AgreeIn.foldl _ (fun a x => modTe a _ _ _ _) _ s

theorem mapReplies (s : State) (img : Nat) (b : Bool) (f : Payload → Payload) : FabricOnly s (s.mapReplies img b f) :=
  AgreeIn.of_tiles rfl rfl rfl rfl

theorem modHomeOf (s : State) (m : Image) (f : Home → Home) : FabricOnly s (s.modHomeOf m f) := by
  unfold State.modHomeOf State.modHome
  split
  · exact modCtx s _ _ rfl
  · exact AgreeIn.of_tiles rfl rfl rfl rfl

theorem undo (s : State) (m : Image) : FabricOnly s (s.undo m) := by
  unfold State.undo
  have h1 := AgreeIn.foldl (fun a p => a.restoreTe m p) (fun a p => restoreTe a m p) m.tes s
  exact ((((h1.trans (dropElsewhere _ m)).trans (dropControl _ m)).trans (mapReplies _ _ _ _)).trans
    (modHomeOf _ m _)).trans (AgreeIn.modImage _ _ _)

theorem runAgain (s : State) (m : Image) : FabricOnly s (s.runAgain m) := by
  unfold State.runAgain
  split
  · exact (AgreeIn.foldl _ (fun a p => modTeAt a p _) _ s).trans (AgreeIn.modImage _ _ _)
  · exact AgreeIn.refl s

theorem endDomain (s : State) (m : Image) : FabricOnly s (s.endDomain m) := by
  unfold State.endDomain
  simp only
  refine AgreeIn.trans (AgreeIn.trans ?_ (modHomeOf _ m _)) (AgreeIn.modImage _ _ _)
  refine AgreeIn.trans (AgreeIn.trans ?_ (mapReplies _ m.id false fun _ => .plain))
    (AgreeIn.foldl _ (fun a (x : Entry) => modTeAt a x.te _) _ _)
  exact AgreeIn.foldl _ (fun a p => modTeAt a p _) m.tes s

theorem leaveImage (s : State) (p : TeId) : FabricOnly s (s.leaveImage p) := by
  unfold State.leaveImage
  split
  · exact AgreeIn.refl s
  · next m _ =>
    have h1 : FabricOnly s (if m.discards then s.undo m else s.runAgain m) := by
      split
      · exact undo s m
      · exact runAgain s m
    exact AgreeIn.trans (t := (if m.discards then s.undo m else s.runAgain m).endDomain m) (h1.trans (endDomain _ m))
      (AgreeIn.of_tiles rfl rfl rfl rfl)

theorem resync (s : State) (p : TeId) (d : Nat) : FabricOnly s (s.resync p d) := modTeAt s p _

theorem resyncAround (s : State) (p : TeId) : FabricOnly s (s.resyncAround p) := by
  unfold State.resyncAround
  refine AgreeIn.foldl _ (fun a d => ?_) _ s
  simp only
  split
  · exact (resync a _ _).trans (resync _ p d)
  · exact resync a p d

theorem cmds {s t : State} (h : FabricOnly s t) (n : Nat) : (t.ctx n).cmds = (s.ctx n).cmds :=
  h.tileKeeps (·.ctx.cmds) (fun _ => rfl) n

theorem wSize {s t : State} (h : FabricOnly s t) (n : Nat) : t.wSize n = s.wSize n :=
  h.tileKeeps (fun x => x.win.wlim - x.win.wbase) (fun _ => rfl) n

theorem readW {s t : State} (h : FabricOnly s t) (p : TeId) (j : Nat) : t.readW p j = s.readW p j :=
  h.tileKeeps (fun x => x.w.get 0#32 (8192 * teKey p.2.1 p.2.2 + (x.win.wbase + j) % 8192)) (fun _ => rfl) p.1

end FabricOnly

/-! ## W words -/

/-- The tile without its W words and their poison. -/
def Tile.sansWords (x : Tile) : Tile := { x with w := ⟨[]⟩, wPoison := [] }

/-- The tiles differ in their W words alone. -/
abbrev WordsOnly (s t : State) : Prop := AgreeIn Tile.sansWords s t

namespace WordsOnly

variable {s t : State}

theorem writeW (s : State) (p : TeId) (a : Nat) (v : W32) : WordsOnly s (s.writeW p a v) := by
  unfold State.writeW
  exact AgreeIn.modTile s p.1 _ rfl

theorem loadWords (p : TeId) : ∀ (l : List W32) (i : Nat) (s : State), WordsOnly s (s.loadWords p i l)
  | [], _, s => AgreeIn.refl s
  | v :: l, i, s => by
    unfold State.loadWords
    refine AgreeIn.trans ?_ (loadWords p l (i + 1) _)
    split
    · exact writeW s p i v
    · exact AgreeIn.refl s

theorem teAt (h : WordsOnly s t) (p : TeId) : t.teAt p = s.teAt p :=
  teAt_congr (h.tileKeeps (·.ctx.tes) fun _ => rfl) p

theorem cmds (h : WordsOnly s t) (n : Nat) : (t.ctx n).cmds = (s.ctx n).cmds :=
  h.tileKeeps (·.ctx.cmds) (fun _ => rfl) n

theorem token (h : WordsOnly s t) (n k : Nat) : t.token n k = s.token n k :=
  h.tileKeeps (fun x => vget x.ctx.tokens k {}) (fun _ => rfl) n

theorem wSize (h : WordsOnly s t) (n : Nat) : t.wSize n = s.wSize n :=
  h.tileKeeps (fun x => x.win.wlim - x.win.wbase) (fun _ => rfl) n

end WordsOnly

theorem readW_writeW_same (s : State) (p : TeId) (a : Nat) (v : W32) : (s.writeW p a v).readW p a = v := by
  unfold State.readW State.writeW State.wKey
  simp only [tile_modTile_same]
  exact get_set_same _ _ _ _

/-- Two places of a TE's W within its 8192 words are two keys (R347). -/
theorem readW_writeW_ne (s : State) (p : TeId) {a b : Nat} (v : W32) (ha : a < 8192) (hb : b < 8192) (h : b ≠ a) :
    (s.writeW p a v).readW p b = s.readW p b := by
  unfold State.readW State.writeW State.wKey
  simp only [tile_modTile_same]
  refine get_set_ne _ _ _ ?_
  show 8192 * teKey p.2.1 p.2.2 + ((s.tile p.1).win.wbase + b) % 8192 ≠
    8192 * teKey p.2.1 p.2.2 + ((s.tile p.1).win.wbase + a) % 8192
  omega

/-- Words loaded from a place upward leave the places before it. -/
theorem readW_loadWords_below (p : TeId) {j : Nat} : ∀ (l : List W32) (i : Nat) (s : State), j < i → i + l.length ≤ 8192 →
    (s.loadWords p i l).readW p j = s.readW p j
  | [], _, _, _, _ => rfl
  | v :: l, i, s, hj, hl => by
    rw [List.length_cons] at hl
    unfold State.loadWords
    rw [readW_loadWords_below p l (i + 1) _ (by omega) (by omega)]
    split
    · exact readW_writeW_ne s p v (by omega) (by omega) (by omega)
    · rfl

/-- A word loaded within the context window stands at its place (R13, R347). -/
theorem readW_loadWords (p : TeId) {v : W32} : ∀ (l : List W32) (i j : Nat) (s : State), l[j]? = some v →
    i + j < s.wSize p.1 → i + l.length ≤ 8192 → (s.loadWords p i l).readW p (i + j) = v
  | w :: l, i, 0, s, hv, hw, hl => by
    rw [List.length_cons] at hl
    cases hv
    unfold State.loadWords
    rw [Nat.add_zero] at hw ⊢
    rw [if_pos hw, readW_loadWords_below p l (i + 1) _ (by omega) (by omega)]
    exact readW_writeW_same s p i v
  | w :: l, i, j + 1, s, hv, hw, hl => by
    rw [List.length_cons] at hl
    unfold State.loadWords
    have hi : i < s.wSize p.1 := by omega
    rw [if_pos hi, show i + (j + 1) = i + 1 + j by omega]
    refine readW_loadWords p l (i + 1) j _ hv ?_ (by omega)
    rw [(WordsOnly.writeW s p i w).wSize]
    omega

/-! ## The configuration of the TE -/

/-- The TE without what it knows of the free slots that its outputs lead to. -/
def TE.sansCredit (e : TE) : TE :=
  { e with credit := Vector.replicate 4 0, creditBad := Vector.replicate 4 false, auditing := Vector.replicate 4 none }

/-- Recounting free slots leaves the rest of every TE (R347). -/
theorem resyncAround_sansCredit (s : State) (p q : TeId) :
    ((s.resyncAround p).teAt q).sansCredit = (s.teAt q).sansCredit := by
  have hr (u : State) (o : TeId) (k : Nat) : ((u.resync o k).teAt q).sansCredit = (u.teAt q).sansCredit :=
    teAt_modTeAt_keeps TE.sansCredit u o q _ fun _ => rfl
  unfold State.resyncAround
  generalize [0, 1, 2, 3] = l
  induction l generalizing s with
  | nil => rfl
  | cons d l ih =>
    refine (ih _).trans ((hr _ p d).trans ?_)
    split
    · exact hr s _ _
    · rfl

/-- The TE leaves its old image, and it has the configuration of its record (R85). -/
def State.reconfigured (s : State) (p : TeId) (r : TeRecord) (img : Nat) : State :=
  ((s.leaveImage p).modCtx p.1 fun c =>
    { c with colReqs := vset c.colReqs p.2.1 ((vget c.colReqs p.2.1 []).filter fun q => q.row != p.2.2) }).modTeAt p
      fun e => e.configure r img

/-- A takeover by its parts: the TE is configured, its words are loaded, and its new image and the credits around it take
note of it (R85). -/
theorem takeOver_eq (s : State) (p : TeId) (r : TeRecord) (img : Nat) :
    s.takeOver p r img = ((((s.reconfigured p r img).loadWords p 0 r.words).modImage img fun m =>
      { m with tes := m.tes ++ [p] }).resyncAround p) := rfl

theorem FabricOnly.reconfigured (s : State) (p : TeId) (r : TeRecord) (img : Nat) :
    FabricOnly s (s.reconfigured p r img) := by
  unfold State.reconfigured
  exact AgreeIn.trans (AgreeIn.trans (FabricOnly.leaveImage s p) (FabricOnly.modColReqs _ p.1 _)) (FabricOnly.modTeAt _ p _)

theorem FabricOnly.takeOver_of_loadWords (s : State) (p : TeId) (r : TeRecord) (img : Nat) :
    FabricOnly ((s.reconfigured p r img).loadWords p 0 r.words) (s.takeOver p r img) := by
  rw [takeOver_eq]
  exact AgreeIn.trans (AgreeIn.modImage _ _ _) (FabricOnly.resyncAround _ p)

/-- A TE taken over has the configuration of its record (R85). -/
theorem takeOver_configures (s : State) (p : TeId) (r : TeRecord) (img : Nat) :
    ∃ e : TE, ((s.takeOver p r img).teAt p).sansCredit = (e.configure r img).sansCredit := by
  have h : ∃ e : TE, (s.reconfigured p r img).teAt p = e.configure r img := by
    unfold State.reconfigured
    rw [teAt_modTeAt_same]
    exact ⟨_, rfl⟩
  obtain ⟨e, he⟩ := h
  refine ⟨e, ?_⟩
  rw [takeOver_eq, resyncAround_sansCredit, teAt_modImage, (WordsOnly.loadWords p r.words 0 _).teAt, he]

theorem takeOver_cmds (s : State) (p : TeId) (r : TeRecord) (img n : Nat) :
    ((s.takeOver p r img).ctx n).cmds = (s.ctx n).cmds := by
  rw [(FabricOnly.takeOver_of_loadWords s p r img).cmds, (WordsOnly.loadWords p r.words 0 _).cmds,
    (FabricOnly.reconfigured s p r img).cmds]

theorem takeOver_token (s : State) (p : TeId) (r : TeRecord) (img n k : Nat) :
    (s.takeOver p r img).token n k = s.token n k := by
  rw [(FabricOnly.takeOver_of_loadWords s p r img).token, (WordsOnly.loadWords p r.words 0 _).token,
    (FabricOnly.reconfigured s p r img).token]

/-- The words of the record stand in W, within the context window (R13, R347). -/
theorem readW_takeOver (s : State) (p : TeId) (r : TeRecord) (img : Nat) {j : Nat} {v : W32} (hv : r.words[j]? = some v)
    (hj : j < s.wSize p.1) (hl : r.words.length ≤ 8192) : (s.takeOver p r img).readW p j = v := by
  have h := readW_loadWords p r.words 0 j (s.reconfigured p r img) hv
    (by rw [(FabricOnly.reconfigured s p r img).wSize]; omega) (by omega)
  rw [(FabricOnly.takeOver_of_loadWords s p r img).readW]
  rwa [Nat.zero_add] at h

/-! ## The command's record and its end -/

theorem judge_keeps (tokens : Vector TokenSlot 64) (c : Cmd) (j : Nat) :
    (judge tokens c j).id = c.id ∧ (judge tokens c j).pos = c.pos := by
  unfold judge
  simp only
  split
  · exact ⟨rfl, rfl⟩
  · split
    · exact ⟨rfl, rfl⟩
    · split <;> exact ⟨rfl, rfl⟩

/-- Judging a command against the tokens leaves its number and its place (R277). -/
theorem judgeAll_keeps (tokens : Vector TokenSlot 64) (c : Cmd) :
    (judgeAll tokens c).id = c.id ∧ (judgeAll tokens c).pos = c.pos := by
  unfold judgeAll
  split
  · obtain ⟨a, b⟩ := judge_keeps tokens c 0
    obtain ⟨a', b'⟩ := judge_keeps tokens (judge tokens c 0) 1
    obtain ⟨a'', b''⟩ := judge_keeps tokens (judge tokens (judge tokens c 0) 1) 2
    exact ⟨a''.trans (a'.trans a), b''.trans (b'.trans b)⟩
  · exact ⟨rfl, rfl⟩

theorem cmds_modToken (s : State) (tile k : Nat) (f : TokenSlot → TokenSlot) :
    ∃ tokens, ((s.modToken tile k f).ctx tile).cmds = (s.ctx tile).cmds.map (judgeAll tokens) := by
  unfold State.modToken
  rw [ctx_modCtx_same]
  exact ⟨_, rfl⟩

theorem token_modToken_same (s : State) (tile : Nat) {k : Nat} (f : TokenSlot → TokenSlot) (hk : k < 64) :
    (s.modToken tile k f).token tile k = f (s.token tile k) := by
  unfold State.modToken State.token
  rw [ctx_modCtx_same]
  exact vget_vset_same _ _ _ hk

theorem token_modToken_ne (s : State) {tile k n j : Nat} (f : TokenSlot → TokenSlot) (h : n ≠ tile ∨ j ≠ k) :
    (s.modToken tile k f).token n j = s.token n j := by
  unfold State.modToken State.token
  by_cases hn : n = tile
  · subst hn
    rw [ctx_modCtx_same]
    exact vget_vset_ne _ _ _ (h.resolve_left (not_not_intro rfl))
  · rw [ctx_modCtx_ne s _ hn]

theorem produced_lt {b : Word} {k : Nat} (h : produced b = some k) : k < 64 := by
  unfold produced at h
  split at h
  · cases h
    exact Nat.mod_lt _ (by decide)
  · cases h

/-- A command that changes its record stands with it (R275). -/
theorem saveCmd_stands (s : State) (tile : Nat) (c : Cmd) (h : ∃ y ∈ (s.ctx tile).cmds, y.id = c.id) :
    ∃ q ∈ ((s.saveCmd tile c).ctx tile).cmds, q.id = c.id ∧ q.pos = c.pos := by
  obtain ⟨y, hy, hid⟩ := h
  have h1 : c ∈ ((s.modCmd tile c.id fun _ => c).ctx tile).cmds := by
    unfold State.modCmd
    rw [ctx_modCtx_same]
    exact List.mem_map.mpr ⟨y, hy, if_pos (beq_iff_eq.mpr hid)⟩
  unfold State.saveCmd
  simp only
  split
  · exact ⟨c, h1, rfl, rfl⟩
  · next k _ =>
    obtain ⟨tokens, ht⟩ := cmds_modToken (s.modCmd tile c.id fun _ => c) tile k _
    rw [ht]
    exact ⟨_, List.mem_map_of_mem h1, judgeAll_keeps tokens c⟩

theorem token_modCmd (s : State) (tile id : Nat) (f : Cmd → Cmd) (n k : Nat) :
    (s.modCmd tile id f).token n k = s.token n k := by
  unfold State.modCmd State.token
  by_cases hn : n = tile
  · subst hn; rw [ctx_modCtx_same]
  · rw [ctx_modCtx_ne s _ hn]

/-- The record of a command that is no CPY leaves every token (R82, R275). -/
theorem token_saveCmd (s : State) (tile : Nat) {c : Cmd} (hf : c.func = 0x30#7) (n k : Nat) :
    (s.saveCmd tile c).token n k = s.token n k := by
  unfold State.saveCmd
  simp only
  split
  · exact token_modCmd s tile _ _ n k
  · next j hj =>
    by_cases h : n = tile ∧ k = j
    · obtain ⟨rfl, rfl⟩ := h
      rw [token_modToken_same _ _ _ (produced_lt hj), token_modCmd, hf]
      simp
    · rw [token_modToken_ne _ _ (by tauto), token_modCmd]

/-- What depends on no thread, posting flags leaves. -/
theorem ctx_postFlags {α : Type} (g : Context → α)
    (hg : ∀ (c : Context) (l : Vector Thread 4), g { c with threads := l } = g c) (s : State) (tile slot gid : Nat)
    (f : BitVec 8) (n : Nat) : g ((s.postFlags tile slot gid f).ctx n) = g (s.ctx n) := by
  unfold State.postFlags
  simp only
  split
  · unfold State.setThread
    by_cases hn : n = tile
    · subst hn; rw [ctx_modCtx_same, hg]
    · rw [ctx_modCtx_ne s _ hn]
  · rfl

/-- What a command leaves when it goes, before its token moves: it is in no queue, and every token is as before. -/
theorem withoutCmd_gone (s : State) (tile : Nat) (c : Cmd) (st : TokState) :
    let u := (s.modCtx tile (·.withoutCmd c st)).postFlags tile c.slot c.gid c.flags
    (∀ x ∈ (u.ctx tile).cmds, x.id ≠ c.id) ∧ ∀ n k, u.token n k = s.token n k := by
  refine ⟨fun x hx => ?_, fun n k => ?_⟩
  · rw [ctx_postFlags (·.cmds) fun _ _ => rfl, ctx_modCtx_same] at hx
    exact bne_iff_ne.mp (List.mem_filter.mp hx).2
  · refine (ctx_postFlags (fun x => vget x.tokens k {}) (fun _ _ => rfl) _ _ _ _ _ n).trans ?_
    unfold State.token
    by_cases hn : n = tile
    · subst hn; rw [ctx_modCtx_same]; rfl
    · rw [ctx_modCtx_ne s _ hn]

/-- A token that its command owns turns to the command's final state, and no other token changes (R275). -/
theorem moveToken_turns (s : State) (tile : Nat) (c : Cmd) (st : TokState) (cause : BitVec 6)
    (hown : ∀ k, produced c.b = some k → (s.token tile k).owner = some c.id) :
    TokenTurns s (s.moveToken tile c st cause) tile c st ∧
      ∀ x ∈ ((s.moveToken tile c st cause).ctx tile).cmds, ∃ y ∈ (s.ctx tile).cmds, x.id = y.id := by
  unfold State.moveToken
  split
  · next hp => exact ⟨⟨fun k hk => absurd (hp.symm.trans hk) nofun, fun _ _ _ => rfl⟩, fun x hx => ⟨x, hx, rfl⟩⟩
  · next j hp =>
    refine ⟨⟨fun k hk => ?_, fun n k h => token_modToken_ne s _ (h.imp_right fun h e => h (e ▸ hp))⟩, fun x hx => ?_⟩
    · obtain rfl : j = k := Option.some.inj (hp.symm.trans hk)
      rw [token_modToken_same s _ _ (produced_lt hp), if_pos (hown j hp)]
      exact ⟨rfl, rfl⟩
    · obtain ⟨tokens, ht⟩ := cmds_modToken s tile j _
      rw [ht] at hx
      obtain ⟨y, hy, rfl⟩ := List.mem_map.mp hx
      exact ⟨y, hy, (judgeAll_keeps tokens y).1⟩

/-- A command that ends VISIBLE with its own token has ended (R275). -/
theorem endCmd_ended {s : State} {tile : Nat} {c : Cmd} (cause : BitVec 6) (ha : c.armed = false)
    (hown : ∀ k, produced c.b = some k → (s.token tile k).owner = some c.id) :
    Ended s (s.endCmd tile c .visible cause) tile c .visible := by
  obtain ⟨hgone, htok⟩ := withoutCmd_gone s tile c .visible
  rw [endCmd_eq, ha, if_neg Bool.false_ne_true, if_neg (by decide)]
  generalize (s.modCtx tile (·.withoutCmd c .visible)).postFlags tile c.slot c.gid c.flags = u at hgone htok
  obtain ⟨⟨hturn, hstay⟩, hcmds⟩ := moveToken_turns u tile c .visible cause fun k hk => by rw [htok]; exact hown k hk
  refine ⟨fun x hx => ?_, hturn, fun n k h => (hstay n k h).trans (htok n k)⟩
  obtain ⟨y, hy, e⟩ := hcmds x hx
  rw [e]
  exact hgone y hy

/-! ## FLOAD's takeover -/

/-- The state in which an FLOAD has taken over the TE of its next record and has recorded that (R85). -/
def State.recordTaken (s : State) (tile : Nat) (c : Cmd) (p : TeId) (x : TeRecord) (id : Nat) : State :=
  (s.takeOver p x id).saveCmd tile { c with pos := c.pos + 1, aux := id }

/-- A takeover of a TE that no commit holds: the image gets its number with the first record, the record's TE is taken
over, and the FLOAD ends with the last record (R85). -/
theorem floadTakeover_eq {s : State} {tile : Nat} {c : Cmd} {h : ImageHeader} {rs : List TeRecord} {r : Rect} {x : TeRecord}
    (hparse : parseImage (c.list.map (BitVec.ofNat 8)) c.colOff c.rowOff = .ok (h, rs)) (hrect : s.rect? c.gid tile = some r)
    (hx : rs[c.pos]? = some x) (hcom : s.commits (r.te x.col x.row) = false) :
    ∃ s1 id, FabricOnly s s1 ∧ s.floadTakeover tile c =
      if rs.length ≤ c.pos + 1 then
        (s1.recordTaken tile c (r.te x.col x.row) x id).endCmd tile { c with pos := c.pos + 1, aux := id } .visible 0#6
      else s1.recordTaken tile c (r.te x.col x.row) x id := by
  unfold State.floadTakeover
  simp only [hparse, hrect, hx, hcom, Bool.false_eq_true, if_false]
  refine ⟨_, _, ?_, rfl⟩
  split
  · exact AgreeIn.of_tiles rfl rfl rfl rfl
  · exact AgreeIn.refl s

/-- What the takeover of a TE puts in place (R13, R85). -/
structure TakenOver (s t : State) (p : TeId) (x : TeRecord) : Prop where
  te : ∃ (e : TE) (id : Nat), (t.teAt p).sansCredit = (e.configure x id).sansCredit
  words : ∀ j v, x.words[j]? = some v → j < s.wSize p.1 → t.readW p j = v

theorem readW_commandsOnly {s t : State} (h : CommandsOnly s t) (p : TeId) (j : Nat) : t.readW p j = s.readW p j :=
  h.tileKeeps (fun x => x.w.get 0#32 (8192 * teKey p.2.1 p.2.2 + (x.win.wbase + j) % 8192)) (fun _ => rfl) p.1

theorem takenOver_of_takeOver {s s1 t : State} {p : TeId} {x : TeRecord} {id : Nat} (h1 : FabricOnly s s1)
    (ht : CommandsOnly (s1.takeOver p x id) t) (hl : x.words.length ≤ 8192) : TakenOver s t p x := by
  refine ⟨?_, fun j v hv hj => ?_⟩
  · obtain ⟨e, he⟩ := takeOver_configures s1 p x id
    exact ⟨e, id, by rw [ht.teAt, he]⟩
  · rw [readW_commandsOnly ht]
    exact readW_takeOver s1 p x id hv (by rw [h1.wSize]; exact hj) hl

theorem commits_iff (s : State) (p : TeId) : s.commits p = true ↔ ∃ m, s.imageOf p = some m ∧ m.committing = true := by
  simp [State.commits, Option.any_eq_true]

/-- The record leaves every token, and the FLOAD stands with its next place (R85). -/
theorem recordTaken_stands {s s1 : State} {tile : Nat} {c : Cmd} {p : TeId} {x : TeRecord} {id : Nat} (h1 : FabricOnly s s1)
    (hcmd : s.cmd? tile c.id = some c) (hfunc : c.func = 0x30#7) :
    (∀ n k, (s1.recordTaken tile c p x id).token n k = s.token n k) ∧
      ∃ q ∈ ((s1.recordTaken tile c p x id).ctx tile).cmds, q.id = c.id ∧ q.pos = c.pos + 1 := by
  refine ⟨fun n k => ?_, saveCmd_stands _ tile { c with pos := c.pos + 1, aux := id } ⟨c, ?_, rfl⟩⟩
  · exact (token_saveCmd _ tile (c := { c with pos := c.pos + 1, aux := id }) hfunc n k).trans
      ((takeOver_token s1 p x id n k).trans (h1.token n k))
  · rw [takeOver_cmds, h1.cmds]
    exact List.mem_of_find?_eq_some hcmd

/-- A takeover that no commit holds back configures the TE and moves the FLOAD on, which ends with the record of the last
TE (R85). -/
theorem floadTakeover_takes {s : State} {tile : Nat} {c : Cmd} {h : ImageHeader} {rs : List TeRecord} {r : Rect}
    {x : TeRecord} (hst : Stands s tile c) (hfunc : c.func = 0x30#7)
    (hparse : parseImage (c.list.map (BitVec.ofNat 8)) c.colOff c.rowOff = .ok (h, rs)) (hrect : s.rect? c.gid tile = some r)
    (hx : rs[c.pos]? = some x) (hl : x.words.length ≤ 8192) (hcom : s.commits (r.te x.col x.row) = false) :
    TakenOver s (s.floadTakeover tile c) (r.te x.col x.row) x ∧
      (c.pos + 1 = rs.length → Ended s (s.floadTakeover tile c) tile c .visible) ∧
      (c.pos + 1 < rs.length →
        ∃ q ∈ ((s.floadTakeover tile c).ctx tile).cmds, q.id = c.id ∧ q.pos = c.pos + 1) := by
  obtain ⟨-, hcmd, harmed, hown⟩ := hst
  obtain ⟨s1, id, h1, he⟩ := floadTakeover_eq hparse hrect hx hcom
  obtain ⟨htok, hq⟩ := recordTaken_stands (p := r.te x.col x.row) (x := x) (id := id) h1 hcmd hfunc
  have hv : CommandsOnly (s1.takeOver (r.te x.col x.row) x id) (s1.recordTaken tile c (r.te x.col x.row) x id) :=
    .saveCmd _ tile _
  generalize s1.recordTaken tile c (r.te x.col x.row) x id = v at he htok hq hv
  rw [he]
  split
  · next hlast =>
    have hv' := AgreeIn.trans hv (CommandsOnly.endCmd v tile { c with pos := c.pos + 1, aux := id } .visible 0#6)
    refine ⟨takenOver_of_takeOver h1 hv' hl, fun _ => ?_, fun hlt => absurd hlt (by omega)⟩
    obtain ⟨hgone, hturn, hstay⟩ := endCmd_ended (s := v) (tile := tile) (c := { c with pos := c.pos + 1, aux := id }) 0#6
      harmed fun k hk => (congrArg (·.owner) (htok tile k)).trans (hown k hk)
    exact ⟨hgone, hturn, fun n k hk => (hstay n k hk).trans (htok n k)⟩
  · next hmore => exact ⟨takenOver_of_takeOver h1 hv hl, fun hl => absurd hl.ge hmore, fun _ => hq⟩

/-- A takeover waits while the image that holds the TE commits, and otherwise configures the TE (R85, R229). -/
theorem takeoverConfiguresTheTe : TakeoverConfiguresTheTe := by
  intro tile c h rs r x s hst hfunc hstage hup hparse hrect hx hl p
  have hexec : exec (.floadTakeover tile c.id) s = .next (s.floadTakeover tile c) := by
    obtain ⟨htile, hcmd, -, -⟩ := hst
    rw [exec_floadTakeover, execFloadTakeover, if_neg (by omega)]
    simp only [hcmd, hfunc, hstage, decide_true, Bool.and_self, if_true]
  rw [hexec]
  refine ⟨fun hc => ?_, fun hc => ?_⟩
  · have hcom : s.commits (r.te x.col x.row) = true := (commits_iff s p).mpr hc
    unfold State.floadTakeover
    simp only [hparse, hrect, hx, hcom, if_true]
  · have hcom : s.commits p = false := by
      rw [← Bool.not_eq_true, commits_iff]
      rintro ⟨m, hm, hm'⟩
      exact absurd hm' (by simp [hc m hm])
    obtain ⟨⟨⟨e, id, he⟩, hwords⟩, hend, hmore⟩ := floadTakeover_takes hst hfunc hparse hrect hx hl hcom
    generalize s.floadTakeover tile c = t at he hwords hend hmore
    refine ⟨t, rfl, congrArg TE.slots he, congrArg TE.router he, congrArg TE.p he, congrArg TE.x he, congrArg TE.lap he,
      fun k _ => ?_, congrArg TE.started he, fun hn => ?_, hwords, hend, hmore⟩
    · exact (congrArg (TE.queue · k) he).trans (vget_replicate _ _ _)
    · exact absurd ((congrArg TE.image he).symm.trans hn) nofun

/-- Settles O43: a stream's delivery is the offer to its one subscriber, between a request and a settlement that leave TEs
and subscribers as they are; a takeover is the configuration of the TE and its words, between what leaves the old image and
what recounts credits, neither of which touches them. -/
theorem tesAreFedAndConfigured : Obligations.TesAreFedAndConfigured :=
  ⟨streamsDeliverToColumns, takeoverConfiguresTheTe⟩

end Sys2Proof.Machine
end

section
/-! SUPPORT. Decoding inverts encoding (R39 to R46, R138 to R140, R147, R148): where each format of a word and each form of a
slot puts its fields, and that the decoder finds them there. -/

namespace Sys2Proof.Machine

open Sys2Proof.Claims

/-! ## The fields of a control word -/

/-- The stall count, the guard and the opcode that every word begins with (R39). -/
def HeadIs (w : BitVec 32) (sc g : BitVec 4) (op : BitVec 6) : Prop :=
  fld w 28 4 = sc ∧ fld w 24 4 = g ∧ fld w 18 6 = op

section Formats

variable {w : BitVec 32} {sc g : BitVec 4} {op : BitVec 6}

/-- The format of three registers and a function. -/
theorem fields_dab {d a b : BitVec 5} {fn : BitVec 3} (h : sc ++ g ++ op ++ d ++ a ++ b ++ fn = w) :
    HeadIs w sc g op ∧ fld w 13 5 = d ∧ fld w 8 5 = a ∧ fld w 3 5 = b ∧ fld w 0 3 = fn := by
  subst h
  simp (disch := decide) only [HeadIs, fld, BitVec.extractLsb'_append_eq_of_le, BitVec.extractLsb'_append_eq_of_add_le,
    BitVec.extractLsb'_eq_self, Nat.reduceSub, and_self]

/-- The format of two registers and eight bits, which are an immediate or a function below zeros. -/
theorem fields_daImm {d a : BitVec 5} {imm : BitVec 8} (h : sc ++ g ++ op ++ d ++ a ++ imm = w) :
    HeadIs w sc g op ∧ fld w 13 5 = d ∧ fld w 8 5 = a ∧ fld w 0 8 = imm ∧ fld w 3 5 = imm.extractLsb' 3 5 ∧
      fld w 0 3 = imm.extractLsb' 0 3 := by
  subst h
  simp (disch := decide) only [HeadIs, fld, BitVec.extractLsb'_append_eq_of_le, BitVec.extractLsb'_append_eq_of_add_le,
    BitVec.extractLsb'_eq_self, Nat.reduceSub, and_self]

/-- The format of a shift by an immediate. -/
theorem fields_shift {d a : BitVec 5} {z : BitVec 2} {imm : BitVec 6} (h : sc ++ g ++ op ++ d ++ a ++ z ++ imm = w) :
    HeadIs w sc g op ∧ fld w 13 5 = d ∧ fld w 8 5 = a ∧ fld w 6 2 = z ∧ fld w 0 6 = imm := by
  subst h
  simp (disch := decide) only [HeadIs, fld, BitVec.extractLsb'_append_eq_of_le, BitVec.extractLsb'_append_eq_of_add_le,
    BitVec.extractLsb'_eq_self, Nat.reduceSub, and_self]

/-- The format of a register and thirteen bits. -/
theorem fields_dImm {d : BitVec 5} {imm : BitVec 13} (h : sc ++ g ++ op ++ d ++ imm = w) :
    HeadIs w sc g op ∧ fld w 13 5 = d ∧ fld w 0 13 = imm := by
  subst h
  simp (disch := decide) only [HeadIs, fld, BitVec.extractLsb'_append_eq_of_le, BitVec.extractLsb'_append_eq_of_add_le,
    BitVec.extractLsb'_eq_self, Nat.reduceSub, and_self]

/-- The format of a comparison. -/
theorem fields_compare {pd : BitVec 4} {cond : BitVec 3} {a b : BitVec 5} {pair : BitVec 1}
    (h : sc ++ g ++ op ++ pd ++ cond ++ a ++ b ++ pair = w) :
    HeadIs w sc g op ∧ fld w 14 4 = pd ∧ fld w 11 3 = cond ∧ fld w 6 5 = a ∧ fld w 1 5 = b ∧ fld w 0 1 = pair := by
  subst h
  simp (disch := decide) only [HeadIs, fld, BitVec.extractLsb'_append_eq_of_le, BitVec.extractLsb'_append_eq_of_add_le,
    BitVec.extractLsb'_eq_self, Nat.reduceSub, and_self]

/-- The format of three predicates and a function. -/
theorem fields_preds {x y z : BitVec 1} {pd pa pb : BitVec 4} {fn : BitVec 3}
    (h : sc ++ g ++ op ++ x ++ pd ++ y ++ pa ++ z ++ pb ++ fn = w) :
    HeadIs w sc g op ∧ fld w 17 1 = x ∧ fld w 13 4 = pd ∧ fld w 12 1 = y ∧ fld w 8 4 = pa ∧ fld w 7 1 = z ∧
      fld w 3 4 = pb ∧ fld w 0 3 = fn := by
  subst h
  simp (disch := decide) only [HeadIs, fld, BitVec.extractLsb'_append_eq_of_le, BitVec.extractLsb'_append_eq_of_add_le,
    BitVec.extractLsb'_eq_self, Nat.reduceSub, and_self]

/-- The format of a load or a store with an offset. -/
theorem fields_access {d a : BitVec 5} {off : BitVec 6} {sz : BitVec 2} (h : sc ++ g ++ op ++ d ++ a ++ off ++ sz = w) :
    HeadIs w sc g op ∧ fld w 13 5 = d ∧ fld w 8 5 = a ∧ fld w 2 6 = off ∧ fld w 0 2 = sz := by
  subst h
  simp (disch := decide) only [HeadIs, fld, BitVec.extractLsb'_append_eq_of_le, BitVec.extractLsb'_append_eq_of_add_le,
    BitVec.extractLsb'_eq_self, Nat.reduceSub, and_self]

/-- The format of eighteen bits, which are an offset or a function below zeros. -/
theorem fields_wide {off : BitVec 18} (h : sc ++ g ++ op ++ off = w) :
    HeadIs w sc g op ∧ fld w 0 18 = off ∧ fld w 3 15 = off.extractLsb' 3 15 ∧ fld w 0 3 = off.extractLsb' 0 3 := by
  subst h
  simp (disch := decide) only [HeadIs, fld, BitVec.extractLsb'_append_eq_of_le, BitVec.extractLsb'_append_eq_of_add_le,
    BitVec.extractLsb'_eq_self, Nat.reduceSub, and_self]

/-- The format of an acquiring load and a releasing store. -/
theorem fields_ordered {d a : BitVec 5} {space : BitVec 2} {scope : BitVec 3} {k : BitVec 2} {sz : BitVec 1}
    (h : sc ++ g ++ op ++ d ++ a ++ space ++ scope ++ k ++ sz = w) :
    HeadIs w sc g op ∧ fld w 13 5 = d ∧ fld w 8 5 = a ∧ fld w 6 2 = space ∧ fld w 3 3 = scope ∧ fld w 1 2 = k ∧
      fld w 0 1 = sz := by
  subst h
  simp (disch := decide) only [HeadIs, fld, BitVec.extractLsb'_append_eq_of_le, BitVec.extractLsb'_append_eq_of_add_le,
    BitVec.extractLsb'_eq_self, Nat.reduceSub, and_self]

/-- The format of DRAIN. -/
theorem fields_drain {z : BitVec 10} {space : BitVec 2} {y : BitVec 6} (h : sc ++ g ++ op ++ z ++ space ++ y = w) :
    HeadIs w sc g op ∧ fld w 8 10 = z ∧ fld w 6 2 = space ∧ fld w 3 3 = y.extractLsb' 3 3 ∧ fld w 0 3 = y.extractLsb' 0 3 := by
  subst h
  simp (disch := decide) only [HeadIs, fld, BitVec.extractLsb'_append_eq_of_le, BitVec.extractLsb'_append_eq_of_add_le,
    BitVec.extractLsb'_eq_self, Nat.reduceSub, and_self]

/-- The format of FENCE. -/
theorem fields_fence {z : BitVec 12} {scope fn : BitVec 3} (h : sc ++ g ++ op ++ z ++ scope ++ fn = w) :
    HeadIs w sc g op ∧ fld w 6 12 = z ∧ fld w 3 3 = scope ∧ fld w 0 3 = fn := by
  subst h
  simp (disch := decide) only [HeadIs, fld, BitVec.extractLsb'_append_eq_of_le, BitVec.extractLsb'_append_eq_of_add_le,
    BitVec.extractLsb'_eq_self, Nat.reduceSub, and_self]

/-- The format of TWAIT. -/
theorem fields_twait {tok : BitVec 6} {level : BitVec 2} {z : BitVec 10} (h : sc ++ g ++ op ++ tok ++ level ++ z = w) :
    HeadIs w sc g op ∧ fld w 12 6 = tok ∧ fld w 10 2 = level ∧ fld w 0 10 = z := by
  subst h
  simp (disch := decide) only [HeadIs, fld, BitVec.extractLsb'_append_eq_of_le, BitVec.extractLsb'_append_eq_of_add_le,
    BitVec.extractLsb'_eq_self, Nat.reduceSub, and_self]

end Formats

/-! ## Control words -/

section Words

variable {i : Instr} {w : BitVec 32} {c : Ctl} {d a b : BitVec 5}

/-- Engine commands without a reply: their d field is zero (R46). -/
theorem decodeWord_commandWord {f : BitVec 7} (hi : CommandWord i c f a b) (h : encodeWord i = some w) :
    decodeWord w = .ok i := by
  cases hi <;>
    (obtain ⟨⟨h28, h24, h18⟩, h13, h8, h3, h0⟩ := fields_dab (Option.some.inj h)
     simp [decodeWord, require, h28, h24, h18, h13, h8, h3, h0])

/-- Engine commands with a reply. -/
theorem decodeWord_replyWord {f : BitVec 7} (hi : ReplyWord i c f d a b) (h : encodeWord i = some w) :
    decodeWord w = .ok i := by
  cases hi <;>
    (obtain ⟨⟨h28, h24, h18⟩, h13, h8, h3, h0⟩ := fields_dab (Option.some.inj h)
     simp [decodeWord, h28, h24, h18, h13, h8, h3, h0])

/-- Atomics: a CAS has a d that is not s0 (R57). -/
theorem decodeWord_atomicWord {space : Space} {o : AmoOp} {f : Word → Word → Word → Word}
    (hi : AtomicWord i c space o d a b f) (hw : i.wf = true) (h : encodeWord i = some w) : decodeWord w = .ok i := by
  have hcas : o = .cas → d ≠ 0#5 := by
    rintro rfl
    cases hi <;> simpa [Instr.wf, Instr.compute?, Instr.memory?] using hw
  cases hi <;>
    (obtain ⟨⟨h28, h24, h18⟩, h13, h8, h3, h0⟩ := fields_dab (Option.some.inj h)
     simp [decodeWord, require, h28, h24, h18, h13, h8, h3, h0, hcas])

/-- Words of one fixed-latency result. -/
theorem decodeWord_registerWord {lat : Nat} {f : Thread → Word} (hi : RegisterWord i c d lat f) (h : encodeWord i = some w) :
    decodeWord w = .ok i := by
  cases hi
  case add | sub | and | or | xor | andn | shl | shr | sra | min | max | minu | maxu | sext | mul | mulh | mulhu
      | bfx | bfxu | bfi | rotl =>
    obtain ⟨⟨h28, h24, h18⟩, h13, h8, h3, h0⟩ := fields_dab (Option.some.inj h)
    simp [decodeWord, h28, h24, h18, h13, h8, h3, h0]
  case clz | popc | bswap | addi | andi | ori | xori =>
    obtain ⟨⟨h28, h24, h18⟩, h13, h8, h0, h3, hf⟩ := fields_daImm (Option.some.inj h)
    simp [decodeWord, require, h28, h24, h18, h13, h8, h0, h3, hf]
  case shli | shri | srai =>
    obtain ⟨⟨h28, h24, h18⟩, h13, h8, hz, h0⟩ := fields_shift (Option.some.inj h)
    simp [decodeWord, require, h28, h24, h18, h13, h8, hz, h0]
  case setlo | setsh =>
    obtain ⟨⟨h28, h24, h18⟩, h13, h0⟩ := fields_dImm (Option.some.inj h)
    simp [decodeWord, h28, h24, h18, h13, h0]

end Words

/-- The word of every well-formed control instruction decodes to it. -/
theorem decodeWord_encodeWord {i : Instr} {w : BitVec 32} (hw : i.wf = true) (h : encodeWord i = some w) :
    decodeWord w = .ok i := by
  cases i with
  | pmode _ _ _ | pbed _ _ _ | pbeds _ _ _ | pmap _ _ _ | phold _ _ _ | pflow _ _ _ | pdrain _ _ _ | pzero _ _ _
    | pspan _ _ _ | sdef _ _ _ | scnt _ _ _ | ssub _ _ _ | sgo _ _ _ | sstop _ _ _ | sunf _ _ _ | srgp _ _ _
    | shash _ _ _ | cpshape _ _ _ | cpy _ _ _ | cpyr _ _ _ | cpyf _ _ _ | gidx _ _ _ | gath _ _ _ | scata _ _ _
    | fload _ _ _ | fgo _ _ _ | fstop _ _ _ | fput _ _ _ | tjoin _ _ _ | treset _ _ _ | gstart _ _ _ | garm _ _ _
    | gdone _ _ _ =>
    exact decodeWord_commandWord (by constructor) h
  | pstat _ _ _ _ | fget _ _ _ _ | fstat _ _ _ _ | tquery _ _ _ _ =>
    exact decodeWord_replyWord (by constructor) h
  | amospAdd _ _ _ _ | amospAnd _ _ _ _ | amospOr _ _ _ _ | amospXor _ _ _ _ | amospMin _ _ _ _ | amospMax _ _ _ _
    | amospSwap _ _ _ _ | amospCas _ _ _ _ | amoshAdd _ _ _ _ | amoshAnd _ _ _ _ | amoshOr _ _ _ _ | amoshXor _ _ _ _
    | amoshMin _ _ _ _ | amoshMax _ _ _ _ | amoshSwap _ _ _ _ | amoshCas _ _ _ _ | amogAdd _ _ _ _ | amogAnd _ _ _ _
    | amogOr _ _ _ _ | amogXor _ _ _ _ | amogMin _ _ _ _ | amogMax _ _ _ _ | amogSwap _ _ _ _ | amogCas _ _ _ _
    | amohAdd _ _ _ _ | amohAnd _ _ _ _ | amohOr _ _ _ _ | amohXor _ _ _ _ | amohMin _ _ _ _ | amohMax _ _ _ _
    | amohSwap _ _ _ _ | amohCas _ _ _ _ =>
    exact decodeWord_atomicWord (by constructor) hw h
  | add _ _ _ _ | sub _ _ _ _ | and _ _ _ _ | or _ _ _ _ | xor _ _ _ _ | andn _ _ _ _ | shl _ _ _ _ | shr _ _ _ _
    | sra _ _ _ _ | min _ _ _ _ | max _ _ _ _ | minu _ _ _ _ | maxu _ _ _ _ | sext _ _ _ _ | mul _ _ _ _
    | mulh _ _ _ _ | mulhu _ _ _ _ | bfx _ _ _ _ | bfxu _ _ _ _ | bfi _ _ _ _ | rotl _ _ _ _ | clz _ _ _ | popc _ _ _
    | bswap _ _ _ | addi _ _ _ _ | andi _ _ _ _ | ori _ _ _ _ | xori _ _ _ _ | shli _ _ _ _ | shri _ _ _ _
    | srai _ _ _ _ | setlo _ _ _ | setsh _ _ _ =>
    exact decodeWord_registerWord (by constructor) h
  | div c d a b | divu c d a b | rem c d a b | remu c d a b | bsel c d a b =>
    obtain ⟨⟨h28, h24, h18⟩, h13, h8, h3, h0⟩ := fields_dab (Option.some.inj h)
    simp [decodeWord, h28, h24, h18, h13, h8, h3, h0]
  | jr c a | jalr c d a | trap c a | sbar c a | wfe c a | accrd c d a imm =>
    obtain ⟨⟨h28, h24, h18⟩, h13, h8, h0, h3, hf⟩ := fields_daImm (Option.some.inj h)
    simp [decodeWord, require, h28, h24, h18, h13, h8, h0, h3, hf]
  | ldlit c d imm | loop c d imm | mfsFtrap c d =>
    obtain ⟨⟨h28, h24, h18⟩, h13, h0⟩ := fields_dImm (Option.some.inj h)
    simp [decodeWord, h28, h24, h18, h13, h0]
  | cmp c pd cond a b pair | cmpi c pd cond a imm pair =>
    obtain ⟨⟨h28, h24, h18⟩, h14, h11, h6, h1, h0⟩ := fields_compare (Option.some.inj h)
    simp [decodeWord, h28, h24, h18, h14, h11, h6, h1, h0]
  | pand c pd pa pb | por c pd pa pb | pxor c pd pa pb | pandn c pd pa pb | porn c pd pa pb | pnand c pd pa pb
    | pnor c pd pa pb =>
    obtain ⟨⟨h28, h24, h18⟩, h17, h13, h12, h8, h7, h3, h0⟩ := fields_preds (Option.some.inj h)
    simp [decodeWord, require, h28, h24, h18, h17, h13, h12, h8, h7, h3, h0]
  | ldprm c d a off win | ldsp c d a off sz | ldspu c d a off sz | stsp c d a off sz | ldspi c d a off sz
    | stspi c d a off sz | ldsh c d a off sz | ldshu c d a off sz | stsh c d a off sz | ldg c d a off sz
    | ldgu c d a off sz | stg c d a off sz | ldh c d a off sz | sth c d a off sz =>
    obtain ⟨⟨h28, h24, h18⟩, h13, h8, h2, h0⟩ := fields_access (Option.some.inj h)
    simp [decodeWord, h28, h24, h18, h13, h8, h2, h0]
  | br c off | call c off | ret c | tfence c | eret c | halt c | yield c | rmark c | dbar c =>
    obtain ⟨⟨h28, h24, h18⟩, h0, h3, hf⟩ := fields_wide (Option.some.inj h)
    simp [decodeWord, require, h28, h24, h18, h0, h3, hf]
  | ldacq c d a space scope sz | strel c d a space scope sz =>
    obtain ⟨⟨h28, h24, h18⟩, h13, h8, h6, h3, h1, h0⟩ := fields_ordered (Option.some.inj h)
    simp [decodeWord, require, h28, h24, h18, h13, h8, h6, h3, h1, h0]
  | drain c space =>
    obtain ⟨⟨h28, h24, h18⟩, h8, h6, h3, h0⟩ := fields_drain (Option.some.inj h)
    simp [decodeWord, require, h28, h24, h18, h8, h6, h3, h0]
  | fence c scope =>
    obtain ⟨⟨h28, h24, h18⟩, h6, h3, h0⟩ := fields_fence (Option.some.inj h)
    simp [decodeWord, require, h28, h24, h18, h6, h3, h0]
  | mfs c d imm =>
    have ⟨hal, hne⟩ : sregAllocated imm = true ∧ imm ≠ 0x18#13 := by
      simpa [Instr.wf, Instr.compute?, Instr.memory?] using hw
    obtain ⟨⟨h28, h24, h18⟩, h13, h0⟩ := fields_dImm (Option.some.inj h)
    simp [decodeWord, require, h28, h24, h18, h13, h0, hal, hne]
  | mts c d imm =>
    have hwr : sregWritable imm = true := hw
    obtain ⟨⟨h28, h24, h18⟩, h13, h0⟩ := fields_dImm (Option.some.inj h)
    simp [decodeWord, require, h28, h24, h18, h13, h0, hwr]
  | twait c tok level =>
    have hlev : level ≠ 0#2 := by simpa [Instr.wf, Instr.compute?, Instr.memory?] using hw
    obtain ⟨⟨h28, h24, h18⟩, h12, h10, h0⟩ := fields_twait (Option.some.inj h)
    simp [decodeWord, require, h28, h24, h18, h12, h10, h0, hlev]
  | _ => cases h

/-! ## Slots -/

/-- The halves of a slot: V and the trigger half with its zeros, and the opcode (R138, R139). -/
theorem sfld_slot (t : Trig) (opc : BitVec 7) (y : BitVec 57) :
    sfld (t.bits ++ (opc ++ y)) 127 1 = 1#1 ∧ sfld (t.bits ++ (opc ++ y)) 64 5 = 0#5 ∧ sfld (t.bits ++ (opc ++ y)) 57 7 = opc := by
  refine ⟨?_, ?_, ?_⟩ <;>
    simp (disch := decide) only [sfld, Trig.bits, BitVec.extractLsb'_append_eq_of_le,
      BitVec.extractLsb'_append_eq_of_add_le, BitVec.extractLsb'_eq_self, Nat.reduceSub]
  · decide
  · decide

theorem slotTrig_bits (t : Trig) (x : BitVec 64) : slotTrig (t.bits ++ x) = t := by
  simp (disch := decide) only [slotTrig, sfld, Trig.bits, BitVec.extractLsb'_append_eq_of_le,
    BitVec.extractLsb'_append_eq_of_add_le, BitVec.extractLsb'_eq_self, Nat.reduceSub]

theorem slotComp_bits (x : BitVec 64) (opc : BitVec 7) (f : Comp) : slotComp (x ++ (opc ++ f.bits)) = f := by
  simp (disch := decide) only [slotComp, sfld, Comp.bits, BitVec.extractLsb'_append_eq_of_le,
    BitVec.extractLsb'_append_eq_of_add_le, BitVec.extractLsb'_eq_self, Nat.reduceSub]

theorem slotMem_bits (x : BitVec 64) (opc : BitVec 7) (m : MemF) : slotMem (x ++ (opc ++ m.bits)) = m := by
  simp (disch := decide) only [slotMem, sfld, MemF.bits, BitVec.extractLsb'_append_eq_of_le,
    BitVec.extractLsb'_append_eq_of_add_le, BitVec.extractLsb'_eq_self, Nat.reduceSub]

/-- The opcode of an element instruction names it, and its bits are those of its form (R147). -/
theorem slotInstr_of_slotAction {i : Instr} {t : Trig} {opc : BitVec 7} {y : BitVec 57}
    (h : slotAction i = some (t, opc, y)) :
    (∃ f : Comp, y = f.bits ∧ ∀ m, slotInstr opc.toNat t f m = some i) ∨
      ∃ m : MemF, y = m.bits ∧ ∀ f, slotInstr opc.toNat t f m = some i := by
  cases i with
  | teMov _ f | teAdd _ f | teSub _ f | teMul _ f | teMulh _ f | teMulhu _ f | teAnd _ f | teOr _ f | teXor _ f
    | teAndn _ f | teShl _ f | teShr _ f | teSra _ f | teMin _ f | teMax _ f | teMinu _ f | teMaxu _ f | teCmp _ f
    | sel _ f | teClz _ f | tePopc _ f | dot4 _ f | teBfx _ f | hash _ f | fadd _ f | fsub _ f | fmul _ f | fma _ f
    | fms _ f | fnma _ f | fmin _ f | fmax _ f | fabs _ f | fneg _ f | fcmp _ f | frnd _ f | fscale _ f | fexpo _ f
    | fclass _ f | fhadd _ f | xexpf _ f | xlog2 _ f | xrcp _ f | xrsq _ f | xsqrt _ f | xsin _ f | xcos _ f
    | xtanh _ f | steer _ f | merge _ f | join _ f | dup _ f | gate _ f | drop _ f | tag _ f | carry _ f | ropen _ f
    | rclose _ f | rabort _ f | done _ f | teTrap _ f | teNop _ f | lapset _ f | cvt _ f | pack _ f | unpk _ f
    | pset _ f | tePlog _ f | xset _ f | xadd _ f | xcmp _ f =>
    cases h
    exact .inl ⟨f, rfl, fun _ => rfl⟩
  | ldcSp _ m | stcSp _ m | ldcSh _ m | stcSh _ m | ldcG _ m | stcG _ m | amocSp _ m | amocSh _ m | amocG _ m
    | cskip _ m =>
    cases h
    exact .inr ⟨m, rfl, fun _ => rfl⟩
  | _ => cases h

/-- The slot of every well-formed element instruction decodes to it. -/
theorem decodeSlot_encodeSlot {i : Instr} {w : BitVec 128} (hw : i.wf = true) (h : encodeSlot i = some w) :
    decodeSlot w = .ok i := by
  unfold encodeSlot at h
  split at h
  next t opc y ha =>
    cases h
    obtain ⟨hv, hz, hopc⟩ := sfld_slot t opc y
    have hi : slotInstr opc.toNat t (slotComp (t.bits ++ (opc ++ y))) (slotMem (t.bits ++ (opc ++ y))) = some i := by
      rcases slotInstr_of_slotAction ha with ⟨f, rfl, hf⟩ | ⟨m, rfl, hm⟩
      · rw [slotComp_bits]; exact hf _
      · rw [slotMem_bits]; exact hm _
    unfold decodeSlot
    rw [hv, hz, hopc, slotTrig_bits, hi]
    simp [hw]
  next => cases h

/-! ## Bytes -/

@[simp] theorem length_leBytes : ∀ n v : Nat, (leBytes n v).length = n
  | 0, _ => rfl
  | n + 1, v => congrArg (· + 1) (length_leBytes n (v / 256))

theorem leNat_leBytes : ∀ n v : Nat, leNat (leBytes n v) = v % 256 ^ n
  | 0, v => by rw [Nat.pow_zero, Nat.mod_one]; rfl
  | n + 1, v => by
    have hb : (BitVec.ofNat 8 v).toNat = v % 256 := BitVec.toNat_ofNat v 8
    rw [leBytes, leNat, leNat_leBytes n, hb, Nat.pow_succ', Nat.mod_mul]

/-- The bytes of a word decode as the word does. -/
theorem decode_leBytes (w : BitVec 32) : decode (leBytes 4 w.toNat) = decodeWord w := by
  have hw : leNat ((leBytes 4 w.toNat).take 4) = w.toNat := by
    rw [List.take_of_length_le (by simp), leNat_leBytes]
    exact Nat.mod_eq_of_lt w.isLt
  unfold decode
  rw [if_neg (by simp), hw, BitVec.ofNat_toNat, BitVec.setWidth_eq]

/-- The bytes of a slot decode as the slot does. -/
theorem decodeElement_leBytes (w : BitVec 128) : decodeElement (leBytes 16 w.toNat) = decodeSlot w := by
  have hw : leNat ((leBytes 16 w.toNat).take 16) = w.toNat := by
    rw [List.take_of_length_le (by simp), leNat_leBytes]
    exact Nat.mod_eq_of_lt w.isLt
  unfold decodeElement
  rw [if_neg (by simp), hw, BitVec.ofNat_toNat, BitVec.setWidth_eq]

/-- Settles O58: each format puts its fields where the decoder reads them, so a word, and likewise a slot, decodes to the
instruction that it was made from; its bytes are little-endian and give the word back. -/
theorem decodingInvertsEncoding : Obligations.DecodingInvertsEncoding := by
  intro i hw
  refine ⟨fun w h => ?_, fun w hn h => ?_⟩
  · have hd : decode (leBytes 4 w.toNat) = .ok i := (decode_leBytes w).trans (decodeWord_encodeWord hw h)
    have he : encode i = leBytes 4 w.toNat := by unfold encode; rw [h]
    rw [he]
    exact ⟨hd, length_leBytes _ _, congrArg Except.toOption hd⟩
  · have hd : decodeElement (leBytes 16 w.toNat) = .ok i := (decodeElement_leBytes w).trans (decodeSlot_encodeSlot hw h)
    have he : encode i = leBytes 16 w.toNat := by unfold encode; rw [hn, h]
    rw [he]
    exact ⟨hd, length_leBytes _ _, congrArg Except.toOption hd⟩

end Sys2Proof.Machine
end

section
/-! SUPPORT. A step on each head of the agenda (R39, R55, R57, R143, R241), and the words of the manual's table. -/

namespace Sys2Proof.Machine

open Sys2Proof.Claims

/-! ## Steps -/

theorem step_cons {s : State} {a : Action} {rest : List Action} (h : s.agenda = a :: rest) :
    step s = { s with agenda := rest }.act a := by
  unfold step
  rw [h]

theorem step_nil {s : State} (h : s.agenda = []) : step s = .next { s with agenda := s.plan } := by
  unfold step
  rw [h]

section Fetch

variable {s : State} {tile k l : Nat}

theorem fetch_instr {i : Instr} (hl : s.textLoc tile (s.thread tile k).gid (s.thread tile k).sup (s.thread tile k).pc 4 = some l)
    (hd : decode (s.mem.readBytes l 4) = .ok i) : s.fetch tile k = .instr i := by
  unfold State.fetch
  simp only [hl, hd]

theorem fetch_illegal {x : DecodeError}
    (hl : s.textLoc tile (s.thread tile k).gid (s.thread tile k).sup (s.thread tile k).pc 4 = some l)
    (hd : decode (s.mem.readBytes l 4) = .error x) : s.fetch tile k = .illegal (BitVec.ofNat 32 (s.mem.readLe l 4)) := by
  unfold State.fetch
  simp only [hl, hd]

theorem issue_winner (h : s.winner tile = some k) :
    s.issue tile =
      { s.aged tile k with focus := { (s.aged tile k).focus with tile := tile, slot := k } }.runFetched (s.fetch tile k) := by
  unfold State.issue
  simp only [h]

/-- The ages moved on leave the focus. -/
theorem aged_focus (s : State) (tile k : Nat) : (s.aged tile k).focus = s.focus := by
  unfold State.aged
  rw [modTile_focus]
  generalize s.readySlots tile = l
  induction l generalizing s with
  | nil => rfl
  | cons j js ih =>
    rw [List.foldl_cons, ih]
    split <;> simp

theorem issue_idle (h : s.winner tile = none) : s.issue tile = .next s := by
  unfold State.issue
  simp only [h]

theorem poll_waiting (hw : (s.thread tile k).waiting = true) (hr : (s.thread tile k).status = .running)
    (hs : (s.tile tile).stopped = false) :
    s.poll tile k = { s with focus := { s.focus with tile := tile, slot := k } }.runFetched (s.fetch tile k) := by
  unfold State.poll
  simp [hw, hr, hs]

end Fetch

/-! ## The plan of a cycle -/

section Plan

variable {s : State} {tile : Nat}

theorem mem_plan_of_threadTurn {a : Action} (ht : tile ∈ s.tiles.keys) (ha : a ∈ s.threadTurn tile) : a ∈ s.plan := by
  have : a ∈ s.tiles.keys.flatMap s.threadTurn := List.mem_flatMap.mpr ⟨tile, ht, ha⟩
  simp [State.plan, this]

theorem mem_plan_of_teTurn {a : Action} (ht : tile ∈ s.tiles.keys) (ha : a ∈ s.teTurn tile) : a ∈ s.plan := by
  have : a ∈ s.tiles.keys.flatMap s.teTurn := List.mem_flatMap.mpr ⟨tile, ht, ha⟩
  simp [State.plan, this]

theorem issue_mem_threadTurn : .issue tile ∈ s.threadTurn tile := by simp [State.threadTurn]

theorem poll_mem_threadTurn {k : Nat} (hk : k < 4) (hw : (s.thread tile k).waiting = true) :
    .poll tile k ∈ s.threadTurn tile := by
  have hn : k ∈ slotNumbers := by
    unfold slotNumbers
    simp
    omega
  simp [State.threadTurn, hn, hw]

theorem te_mem_teTurn {p : TeId} (hp : p ∈ s.tesOf tile) (hs : (s.teAt p).started = true) :
    .te p.1 p.2.1 p.2.2 ∈ s.teTurn tile :=
  List.mem_map.mpr ⟨p, List.mem_filter.mpr ⟨hp, hs⟩, rfl⟩

end Plan

/-- Settles O57: each action of the agenda is what `step` performs, an issue and a poll by way of the word fetched, and
an empty agenda takes the plan. -/
theorem stepRunsTheDecodedInstruction : Obligations.StepRunsTheDecodedInstruction := by
  intro s rest u
  refine ⟨?issue, ?idle, ?poll, ?te, fun i h => step_cons h, ?plan⟩
  case issue =>
    intro tile k l h hw hl v
    have hstep : step s = v.runFetched (u.fetch tile k) := by
      rw [step_cons h]
      refine (issue_winner hw).trans ?_
      rw [aged_focus]
    refine ⟨fun i hd => ?_, fun x hd => ?_⟩
    · rw [hstep, fetch_instr hl hd]
      rfl
    · rw [hstep, fetch_illegal hl hd]
      rfl
  case idle =>
    intro tile h hw
    exact (step_cons h).trans (issue_idle hw)
  case poll =>
    intro tile k l i h hw hr hs hl hd
    rw [step_cons h]
    refine (poll_waiting hw hr hs).trans ?_
    rw [fetch_instr hl hd]
    rfl
  case te =>
    intro tile col row k i h hk
    rw [step_cons h]
    change u.encoder (tile, col, row) = _
    unfold State.encoder
    rw [show u.teAt (tile, col, row) = u.te tile col row from rfl, hk]
  case plan =>
    intro h
    exact ⟨s.plan, step_nil h, fun tile ht => mem_plan_of_threadTurn ht issue_mem_threadTurn,
      fun tile ht k hk hw => mem_plan_of_threadTurn ht (poll_mem_threadTurn hk hw),
      fun tile ht p hp hs => mem_plan_of_teTurn ht (te_mem_teTurn hp hs)⟩

/-! ## The words of the manual -/

/-- Settles O60: the decoder, run on each word of the table after R23 and on a word of no instruction. -/
theorem wordsOfTheManualDecode : Obligations.WordsOfTheManualDecode :=
  ⟨by decide, by decide, by decide, by decide, by decide, by decide, by decide, by decide, by decide⟩

end Sys2Proof.Machine
end

section
/-! SUPPORT. The words of the register and predicate tables as issues of their bodies, and the hardwired s0 and p0 (R43). -/

namespace Sys2Proof.Machine

open Sys2Proof.Claims

/-! ## The bodies of the tables' words -/

/-- A word of the register table is the issue of one fixed-latency result. -/
theorem exec_registerWord {i : Instr} {c : Ctl} {d : BitVec 5} {lat : Nat} {f : Thread → Word} (h : RegisterWord i c d lat f) :
    0 < lat ∧ ∃ g : Thread → Word, ∀ s, exec i s = issueWord i c (resultBody d lat g) s := by
  cases h <;> exact ⟨by decide, _, fun _ => rfl⟩

/-- A word of the predicate table is the issue of one predicate result. -/
theorem exec_predicateWord {i : Instr} {c : Ctl} {pd : BitVec 4} {pair : Bool} {f : Thread → Bool}
    (h : PredicateWord i c pd pair f) :
    ∃ (bit : BitVec 1) (g : Thread → Bool), pair = (bit == 1#1) ∧ ∀ s, exec i s = issueWord i c (predBody pd bit g) s := by
  cases h <;> exact ⟨_, _, rfl, fun _ => rfl⟩

/-! ## s0 and p0 -/

@[simp] theorem reg_zero (th : Thread) : th.reg 0#5 = 0#64 := by simp [Thread.reg]
@[simp] theorem pred_zero (th : Thread) : th.pred 0#4 = true := by simp [Thread.pred]
@[simp] theorem regAt_zero (th : Thread) (n : Nat) : th.regAt n 0#5 = 0#64 := reg_zero _
@[simp] theorem predAt_zero (th : Thread) (n : Nat) : th.predAt n 0#4 = true := pred_zero _

/-- What leaves every register but s0 leaves every register. -/
theorem regAt_of_sameRegsBut_zero {s t : State} (h : SameRegsBut 0#5 s t) (n : Nat) (r : BitVec 5) :
    t.cur.regAt n r = s.begin.cur.regAt n r := by
  by_cases hr : r = 0#5
  · rw [hr, regAt_zero, regAt_zero]
  · exact h n r hr

/-- Settles O55: s0 and p0 do not depend on what is written; a word that names s0 leaves every other register by the laws of
results, and one that names p0 the other predicates by those of predicate results. -/
theorem hardwiredRegistersStand : Obligations.HardwiredRegistersStand := by
  refine ⟨fun th n => ⟨regAt_zero th n, predAt_zero th n⟩, fun i c lat f s hi h => ?_, fun i c pd pair f s hi h _ => ?_⟩
  · obtain ⟨hlat, g, he⟩ := exec_registerWord hi
    obtain ⟨t, ht, -, hpc, hregs, hpreds, hspec, hunits, hmem⟩ := resultBody_spec 0#5 g hlat h
    exact ⟨t, (he s).trans ht, ⟨hpc, hregs, hpreds, hspec, hunits, hmem⟩, regAt_of_sameRegsBut_zero hregs⟩
  · obtain ⟨bit, g, rfl, he⟩ := exec_predicateWord hi
    obtain ⟨t, ht, -, -, hpreds, hregs, hpc, -⟩ := predBody_spec pd bit g h rfl
    exact ⟨t, (he s).trans ht, hpc, predAt_zero t.cur, hpreds, hregs⟩

end Sys2Proof.Machine
end

section
/-! SUPPORT. Words whose guard reads 0 (R56): what such a word leaves, and that the words of the tables name no token. -/

namespace Sys2Proof.Machine

open Sys2Proof.Claims

/-! ## A word with a false guard -/

theorem issueWord_of_skips {i : Instr} {c : Ctl} {s : State} (body : State → Body) (h : skips i c s) :
    issueWord i c body s = .next (s.begin.guardFalse i c) := by
  obtain ⟨-, hwait, htrap, hguard⟩ := h
  unfold issueWord
  simp [hwait, htrap, hguard]

/-- The thread after a word with a false guard that names no token: its guard stands in its region's masks, and it goes on. -/
def State.skipped (s : State) (c : Ctl) : State :=
  let s0 := (s.count 0 (4 * s.focus.tile + s.focus.slot) 0).count 0 (4 * s.focus.tile + s.focus.slot) 1
  let s1 := if s0.cur.sup then s0 else s0.modCur fun x => x.note {} c.g
  s1.moveOn none c false 1 (s1.cur.pc + 4#64)

theorem guardFalse_of_no_token {i : Instr} {c : Ctl} (s : State) (htok : ∀ th : Thread, th.guardFalseTokens i = [])
    (hcmd : engineWord i = none) : s.guardFalse i c = s.skipped c := by
  unfold State.guardFalse State.skipToken State.skipped
  simp only [htok, hcmd, State.maskTrap, List.find?_nil, Option.map_none]

/-- A word with a false guard changes its thread's masks and next issue alone. -/
theorem skipped_spec (s : State) (c : Ctl) (h : s.focus.slot < 4) :
    (s.skipped c).cur.lasting = s.cur.lasting ∧ (s.skipped c).cur.pc = s.cur.pc + 4#64 ∧
      accesses (s.skipped c) = accesses s ∧ SameUnits s (s.skipped c) ∧ SameMemory s (s.skipped c) := by
  unfold State.skipped
  extract_lets s0 s1
  have hcur : s0.cur = s.cur := rfl
  have hf : s1.focus = s.focus := by
    unfold s1
    split <;> rfl
  have hs1 : s1.focus.slot < 4 := by rw [hf]; exact h
  have hth : s1.cur = s.cur ∨ s1.cur = s.cur.note {} c.g := by
    unfold s1
    split
    · exact .inl rfl
    · exact .inr (cur_modCur s0 _ h)
  have keeps {α : Type} (f : Thread → α) (hf : ∀ th : Thread, f (th.note {} c.g) = f th) : f s1.cur = f s.cur := by
    rcases hth with e | e
    · rw [e]
    · rw [e, hf]
  have hl : s1.cur.lasting = s.cur.lasting := keeps (·.lasting) fun _ => rfl
  have hpc : s1.cur.pc = s.cur.pc := keeps (·.pc) fun _ => rfl
  have hacc : s1.cur.inflight.map (·.buf) ++ s1.cur.buffered = s.cur.inflight.map (·.buf) ++ s.cur.buffered :=
    keeps (fun th => th.inflight.map (·.buf) ++ th.buffered) fun _ => rfl
  have hu : SameUnits s s1 := by
    unfold s1
    split
    · exact sameUnits_of_tiles rfl
    · exact sameUnits_trans (u := s0) (sameUnits_of_tiles rfl) rfl (sameUnits_modCur s0 _)
  have hm : s1.mem = s.mem ∧ s1.poison = s.poison := by
    unfold s1
    split <;> exact ⟨rfl, rfl⟩
  refine ⟨(moveOn_lasting _ _ _ _ _ _ hs1).trans hl, ?_, ?_, sameUnits_trans hu hf (sameUnits_moveOn _ _ _ _ _ _),
    fun a => ?_, ?_⟩
  · rw [moveOn_pc _ _ _ _ _ _ hs1, hpc]
  · unfold accesses
    rw [accesses_moveOn _ _ _ _ _ _ hs1, hacc]
  · rw [moveOn_mem, hm.1]
  · rw [moveOn_poison, hm.2]

/-! ## The words of the tables -/

/-- A word of the tables is an issue where its guard reads 0: no division then waits for the divider. -/
theorem exec_plainWord {i : Instr} {c : Ctl} {s : State} (h : PlainWord i c) (hs : skips i c s) :
    ∃ body, exec i s = issueWord i c body s := by
  obtain ⟨-, -, -, hguard⟩ := hs
  cases h with
  | register h => exact (exec_registerWord h).2.elim fun g he => ⟨_, he s⟩
  | predicate h => exact (exec_predicateWord h).elim fun _ h => h.elim fun _ h => ⟨_, h.2 s⟩
  | division h =>
    cases h with
    | div _ _ _ _ => exact ⟨_, if_neg (by simp [hguard])⟩
    | divu _ _ _ _ => exact ⟨_, if_neg (by simp [hguard])⟩
    | rem _ _ _ _ => exact ⟨_, if_neg (by simp [hguard])⟩
    | remu _ _ _ _ => exact ⟨_, if_neg (by simp [hguard])⟩
  | branch h =>
    cases h
    case br => rw [exec_br, execBr]; exact ⟨_, rfl⟩
    case call => rw [exec_call, execCall]; exact ⟨_, rfl⟩
    case jr => rw [exec_jr, execJr]; exact ⟨_, rfl⟩
    case jalr => rw [exec_jalr, execJalr]; exact ⟨_, rfl⟩
    case ret => rw [exec_ret, execRet]; exact ⟨_, rfl⟩
  | load h =>
    cases h
    case ldspi => rw [exec_ldspi, execLdspi]; exact ⟨_, rfl⟩
    all_goals exact ⟨_, rfl⟩
  | store h =>
    cases h
    case stspi => rw [exec_stspi, execStspi]; exact ⟨_, rfl⟩
    all_goals exact ⟨_, rfl⟩
  | atomic h => cases h <;> exact ⟨_, rfl⟩
  | wait h =>
    cases h
    case fence => rw [exec_fence, execFence]; exact ⟨_, rfl⟩
    case sbar => rw [exec_sbar, execSbar]; exact ⟨_, rfl⟩
    case drain => rw [exec_drain, execDrain]; exact ⟨_, rfl⟩

/-- The words of the tables are neither commands nor token waits. -/
theorem plainWord_no_token {i : Instr} {c : Ctl} (h : PlainWord i c) :
    engineWord i = none ∧ ∀ th : Thread, th.guardFalseTokens i = [] := by
  cases h with
  | register h => cases h <;> exact ⟨rfl, fun _ => rfl⟩
  | division h => cases h <;> exact ⟨rfl, fun _ => rfl⟩
  | predicate h => cases h <;> exact ⟨rfl, fun _ => rfl⟩
  | branch h => cases h <;> exact ⟨rfl, fun _ => rfl⟩
  | load h => cases h <;> exact ⟨rfl, fun _ => rfl⟩
  | store h => cases h <;> exact ⟨rfl, fun _ => rfl⟩
  | atomic h => cases h <;> exact ⟨rfl, fun _ => rfl⟩
  | wait h => cases h <;> exact ⟨rfl, fun _ => rfl⟩

/-- Settles O14: with its guard 0 each of these words takes the false guard's way, which names no token, and that only moves
its thread on. -/
theorem falseGuardsHaveNoEffect : Obligations.FalseGuardsHaveNoEffect := by
  intro i c s hi hs
  have hslot : s.focus.slot < 4 := hs.1
  obtain ⟨hcmd, htok⟩ := plainWord_no_token hi
  obtain ⟨body, he⟩ := exec_plainWord hi hs
  obtain ⟨hl, hpc, hacc, hu, hm⟩ := skipped_spec s.begin c hslot
  refine ⟨s.begin.skipped c, ?_, ⟨?_, fun n r _ => ?_, fun n p => ?_, ?_, ?_, hm⟩, ?_, ?_⟩
  · rw [he, issueWord_of_skips body hs, guardFalse_of_no_token s.begin htok hcmd]
  · rw [hpc, begin_cur_pc s hslot]
  · exact regAt_congr (regs_of_lasting hl) (pend_of_lasting hl) n r
  · exact predAt_congr (preds_of_lasting hl) (pend_of_lasting hl) n p
  · exact (specials_of_lasting hl).trans (begin_cur_specials s hslot)
  · exact sameUnits_trans (sameUnits_modCur s _) rfl hu
  · rw [hacc, accesses_begin s hslot]
  · exact (outstanding_of_lasting hl).trans (begin_cur_outstanding s hslot)

end Sys2Proof.Machine
end

section
/-! SUPPORT. Reads of special registers (R49, R50, R76, R152). -/

namespace Sys2Proof.Machine

open Sys2Proof.Claims

/-- What MFS reads of each number is what the table of the special registers says of it (R49, R341). -/
theorem sreg_of_specialRegister {n : BitVec 13} {f : State → Word} (h : SpecialRegister n f) (u : State) :
    u.sreg u.focus.tile u.focus.slot n = f u := by
  cases h with
  | domain =>
    change u.domainWord u.cur = _
    dsimp only [State.domainWord]
    cases u.group? u.cur.gid <;> rfl
  | sbchk =>
    change Word.ofN (b2n u.cur.sbchk) = _
    dsimp only
    cases u.cur.sbchk <;> rfl
  | netclass =>
    change Word.ofN (b2n u.cur.netclass) = _
    dsimp only
    cases u.cur.netclass <;> rfl
  | pwbase k => fin_cases k <;> rfl
  | pwlim k => fin_cases k <;> rfl
  | _ => rfl

theorem flagsPending_iff_divides (s : State) : s.cur.flagsPending = true ↔ divides s := by
  simp [Thread.flagsPending, divides]

/-- At its issue a word sees the divisions that were outstanding before it. -/
theorem atIssue_flagsPending (s : State) (i : Instr) (c : Ctl) (h : s.focus.slot < 4) :
    (s.atIssue i c).cur.flagsPending = s.cur.flagsPending := by
  unfold Thread.flagsPending
  rw [atIssue_outstanding s i c h]

/-- An access to a special register stands back for a division only where it is to FLAGS and one is under way. -/
theorem waitsForFlags_eq_false {s : State} {n : BitVec 13} (i : Instr) (c : Ctl) (h : s.focus.slot < 4)
    (hn : n = 0x007#13 → ¬divides s) : ¬(n = 0x007#13 && (s.atIssue i c).cur.flagsPending) = true := by
  rw [atIssue_flagsPending s i c h, Bool.and_eq_true, decide_eq_true_eq, flagsPending_iff_divides]
  exact fun ⟨h7, hd⟩ => hn h7 hd

theorem waitsForFlags_eq_true {s : State} {n : BitVec 13} (i : Instr) (c : Ctl) (h : s.focus.slot < 4)
    (hn : n = 0x007#13) (hd : divides s) : (n = 0x007#13 && (s.atIssue i c).cur.flagsPending) = true := by
  rw [atIssue_flagsPending s i c h, Bool.and_eq_true, decide_eq_true_eq, flagsPending_iff_divides]
  exact ⟨hn, hd⟩

theorem specialRegistersAreRead : SpecialRegistersAreRead := by
  intro c d n f s hf h
  have hs := slot_of_issues h
  rw [exec_mfs, execMfs, issueWord_of_issues _ h]
  refine ⟨fun hn => ?_, fun hn hd => ?_⟩
  · obtain ⟨t, ht, hreg, hrest⟩ := resultBody_spec d (lat := 2) (fun _ => f (s.atIssue (.mfs c d n) c)) (by decide) h
    rw [issueWord_of_issues _ h] at ht
    refine ⟨t, ?_, hreg, hrest⟩
    rw [if_neg (waitsForFlags_eq_false _ c hs hn), sreg_of_specialRegister hf]
    exact ht
  · rw [if_pos (waitsForFlags_eq_true _ c hs hn hd)]
    exact ⟨_, rfl, (Beside.atIssue _ c hs).waits hs (atIssue_pc s _ c hs) (atIssue_specials s _ c hs) _⟩

/-- The effect of MFS FTRAP on its thread. -/
def Thread.readFtrap (now : Nat) (d : BitVec 5) (th : Thread) : Thread :=
  { th.result now d th.ftrap 2 with ftrap := th.ftrap &&& 0x3FFFFFFFFFFFFFFF#64 }

theorem exec_mfsFtrap_eq (c : Ctl) (d : BitVec 5) (s : State) :
    exec (.mfsFtrap c d) s = issueWord (.mfsFtrap c d) c (fun u => threadBody (Thread.readFtrap u.now d) u) s :=
  exec_mfsFtrap c d s

theorem readFtrap_values (now : Nat) (d : BitVec 5) (th : Thread) :
    (th.readFtrap now d).regs = (th.result now d th.ftrap 2).regs ∧
      (th.readFtrap now d).pend = (th.result now d th.ftrap 2).pend ∧
      (th.readFtrap now d).preds = (th.result now d th.ftrap 2).preds ∧ (th.readFtrap now d).pc = th.pc ∧
      (th.readFtrap now d).specials = { th.specials with ftrap := th.ftrap &&& 0x3FFFFFFFFFFFFFFF#64 } := by
  have hsp := result_specials th now d th.ftrap 2
  refine ⟨rfl, rfl, rfl, ?_, ?_⟩
  · unfold Thread.readFtrap Thread.result
    split <;> rfl
  · rw [← hsp]
    rfl

theorem fabricTrapIsReadAndCleared : FabricTrapIsReadAndCleared := by
  intro c d s h
  have hs := slot_of_issues h
  have hl := atIssue_lasting s (.mfsFtrap c d) c hs
  have hsp : (s.atIssue (.mfsFtrap c d) c).cur.specials = s.cur.specials := atIssue_specials s _ c hs
  have hft : (s.atIssue (.mfsFtrap c d) c).cur.ftrap = s.cur.ftrap := congrArg Specials.ftrap hsp
  obtain ⟨t, ht, hlast, hpc, hm, hp, -, -, hu⟩ := threadBody_spec (Thread.readFtrap s.now d) h
  obtain ⟨hr, hq, hpr, hpc', hx⟩ := readFtrap_values s.now d (s.atIssue (.mfsFtrap c d) c).cur
  have hts : t.cur.specials = { s.cur.specials with ftrap := s.cur.ftrap &&& 0x3FFFFFFFFFFFFFFF#64 } := by
    rw [specials_of_lasting hlast, hx, hsp, hft]
  have hregs (n : Nat) (r : BitVec 5) : t.cur.regAt n r = (s.begin.cur.result s.now d s.cur.ftrap 2).regAt n r := by
    refine regAt_congr ?_ ?_ n r
    · rw [regs_of_lasting hlast, hr, result_regs, result_regs, regs_of_lasting hl]
    · rw [pend_of_lasting hlast, hq, result_pend, result_pend, pend_of_lasting hl, hft]
  have hpreds (n : Nat) (p : BitVec 4) : t.cur.predAt n p = (s.begin.cur.result s.now d s.cur.ftrap 2).predAt n p := by
    refine predAt_congr ?_ ?_ n p
    · rw [preds_of_lasting hlast, hpr, result_preds, result_preds, preds_of_lasting hl]
    · rw [pend_of_lasting hlast, hq, result_pend, result_pend, pend_of_lasting hl, hft]
  refine ⟨t, ?_, ?_, congrArg Specials.ftrap hts, ?_, fun n r hne => ?_, fun n p => ?_, ?_, hu, fun a => by rw [hm], hp⟩
  · rw [exec_mfsFtrap_eq, issueWord_of_issues _ h, atIssue_now]
    exact (issueWord_of_issues _ h).symm.trans ht
  · exact (hregs _ _).trans (regAt_result_same _ _ _ _ (by decide))
  · rw [hpc, hpc', atIssue_pc s _ c hs]
  · rw [hregs, regAt_result_ne _ _ _ _ _ hne]
  · rw [hpreds, predAt_result]
  · rw [hts]
    rfl

/-- Settles O16: MFS is the issue of one result of two cycles, which reads the row of the table at its issue; MFS FTRAP
clears two bits beside it. -/
theorem specialRegistersRead : Obligations.SpecialRegistersRead := ⟨specialRegistersAreRead, fabricTrapIsReadAndCleared⟩

end Sys2Proof.Machine
end

section
/-! SUPPORT. Writes of special registers (R49, R50, R77, R341). -/

namespace Sys2Proof.Machine

open Sys2Proof.Claims

/-! ## What the special registers read beside their thread -/

/-- What the special registers read beside the thread in focus is the same in two states. -/
structure SameReadings (s t : State) : Prop where
  focus : t.focus = s.focus
  now : t.now = s.now
  groups : t.groups = s.groups
  dies : t.pkg.dies = s.pkg.dies
  agelim : ∀ n, (t.ctx n).agelim = (s.ctx n).agelim

namespace SameReadings

variable {s t u : State}

theorem refl (s : State) : SameReadings s s := ⟨rfl, rfl, rfl, rfl, fun _ => rfl⟩

theorem trans (h : SameReadings s t) (k : SameReadings t u) : SameReadings s u :=
  ⟨k.focus.trans h.focus, k.now.trans h.now, k.groups.trans h.groups, k.dies.trans h.dies,
    fun n => (k.agelim n).trans (h.agelim n)⟩

theorem setThread (s : State) (n k : Nat) (th : Thread) : SameReadings s (s.setThread n k th) := by
  refine ⟨rfl, rfl, rfl, rfl, fun m => ?_⟩
  rw [ctx_setThread]
  split
  · next e => rw [e]
  · rfl

theorem modCur (s : State) (f : Thread → Thread) : SameReadings s (s.modCur f) := setThread s _ _ _

theorem marker (s : State) (n k : Nat) (pc : Word) : SameReadings s (s.marker n k pc) := setThread s _ _ _

theorem enter (s : State) (i : Instr) (c : Ctl) : SameReadings s (s.enter i c) := by
  unfold State.enter
  dsimp only
  split
  · exact refl s
  · split
    · exact ((marker s _ _ _).trans (modCur _ _)).trans (modCur _ _)
    · exact modCur s _

theorem atIssue (s : State) (i : Instr) (c : Ctl) : SameReadings s.begin (s.atIssue i c) := by
  have hc : SameReadings s.begin (s.begin.count 0 (4 * s.focus.tile + s.focus.slot) 0) :=
    ⟨rfl, rfl, rfl, rfl, fun _ => rfl⟩
  exact hc.trans (enter _ i c)

theorem moveOn (s : State) (r : Option (BitVec 5)) (c : Ctl) (own : Bool) (g : Nat) (pc : Word) :
    SameReadings s (s.moveOn r c own g pc) := by
  unfold State.moveOn
  dsimp only
  split
  · exact (modCur s _).trans (marker _ _ _ _)
  · exact modCur s _

end SameReadings

/-- A special register other than REENTRY reads the special registers and predicates of its thread, and what the states
share beside it. -/
theorem specialRegister_congr {m : BitVec 13} {g : State → Word} (hg : SpecialRegister m g) (hm : m ≠ 0x00E#13)
    {s t : State} (h : SameReadings s t) (hsp : t.cur.specials = s.cur.specials) (hp : t.cur.preds = s.cur.preds) :
    g t = g s := by
  have hgid : t.cur.gid = s.cur.gid := congrArg Specials.gid hsp
  have hgr (n : Nat) : t.group? n = s.group? n := by
    unfold State.group?
    rw [h.groups]
  simp only [Thread.specials, Specials.mk.injEq] at hsp
  cases hg with
  | reentry => exact absurd rfl hm
  | _ => simp only [hsp, hp, hgr, h.focus, h.now, h.dies, h.agelim]

/-! ## What MTS writes -/

/-- MTS changes its own row alone: what the rows of R49 and R341 hold of the thread. -/
theorem setSreg_other_rows (th : Thread) (n : BitVec 13) (v : Word) :
    let x := th.setSreg n v
    (5 ≠ n.toNat → x.preds = th.preds) ∧ (6 ≠ n.toNat → x.evt = th.evt) ∧ (7 ≠ n.toNat → x.flags = th.flags) ∧
      (8 ≠ n.toNat → x.trapen = th.trapen) ∧ (9 ≠ n.toNat → x.sbchk = th.sbchk) ∧
      (11 ≠ n.toNat → x.netclass = th.netclass) ∧ (12 ≠ n.toNat → x.padm = th.padm) ∧
      (∀ k, 16 + k ≠ n.toNat → vget x.pwbase k 0#64 = vget th.pwbase k 0#64) ∧
      (∀ k, 20 + k ≠ n.toNat → vget x.pwlim k 0#32 = vget th.pwlim k 0#32) ∧
      (256 ≠ n.toNat → x.tcause = th.tcause) ∧ (257 ≠ n.toNat → x.tepc = th.tepc) ∧ (258 ≠ n.toNat → x.tval = th.tval) ∧
      (259 ≠ n.toNat → x.taux = th.taux) ∧ (260 ≠ n.toNat → x.tvec = th.tvec) ∧ (261 ≠ n.toNat → x.tsave0 = th.tsave0) ∧
      (262 ≠ n.toNat → x.tsave1 = th.tsave1) ∧ (263 ≠ n.toNat → x.tstate = th.tstate) ∧
      (264 ≠ n.toNat → x.reentrymax = th.reentrymax) := by
  unfold Thread.setSreg
  split <;> simp +contextual [*]
  all_goals
    intro k hk
    exact vget_vset_ne _ _ _ (by omega)

/-- What no MTS writes of its thread. -/
theorem setSreg_fixed (th : Thread) (n : BitVec 13) (v : Word) :
    let x := th.setSreg n v
    x.regs = th.regs ∧ x.pend = th.pend ∧ x.pc = th.pc ∧ x.gid = th.gid ∧ x.role = th.role ∧ x.group = th.group ∧
      x.domain = th.domain ∧ x.sup = th.sup ∧ x.reentry = th.reentry ∧ x.trapReentry = th.trapReentry ∧
      x.ftrap = th.ftrap ∧ x.copy = th.copy ∧ x.sieve = th.sieve := by
  unfold Thread.setSreg
  split <;> exact ⟨rfl, rfl, rfl, rfl, rfl, rfl, rfl, rfl, rfl, rfl, rfl, rfl, rfl⟩

/-- The thread in focus after MTS: AGELIM is the tile's and leaves it. -/
theorem setSreg_cur (s : State) (n : BitVec 13) (v : Word) (h : s.focus.slot < 4) :
    (s.setSreg n v).cur = s.cur.setSreg n v := by
  unfold State.setSreg
  split
  · next e =>
    rw [e]
    unfold State.cur State.thread
    change vget ((s.modCtx s.focus.tile _).ctx s.focus.tile).threads _ _ = _
    rw [ctx_modCtx_same]
    rfl
  · exact cur_modCur s _ h

/-! ## What a row reads after it is written -/

theorem vget_eq_getElem {α : Type} {n : Nat} (v : Vector α n) (k : Fin n) (d : α) : vget v k d = v[k] := by
  simp [vget]

/-- The low bits of a word, zero-extended. -/
theorem setWidth_setWidth_eq_and (v : Word) (k : Nat) : (v.setWidth k).setWidth 64 = v &&& BitVec.ofNat 64 (2 ^ k - 1) := by
  apply BitVec.eq_of_getLsbD_eq
  intro i hi
  simp only [BitVec.getLsbD_setWidth, BitVec.getLsbD_and, BitVec.getLsbD_ofNat, Nat.testBit_two_pow_sub_one]
  by_cases h : i < k <;> simp [h, hi]

theorem word_of_bit_zero (v : Word) : (if bit v 0 then 1#64 else 0#64) = v &&& 1#64 := by
  apply BitVec.eq_of_getLsbD_eq
  intro i hi
  by_cases h : bit v 0 <;> cases i <;> simp_all [bit]

theorem atLeastOne_setWidth (v : Word) :
    (atLeastOne (v.setWidth 8)).setWidth 64 = if v &&& 0xFF#64 = 0#64 then 1#64 else v &&& 0xFF#64 := by
  have hv : (v.setWidth 8).setWidth 64 = v &&& 0xFF#64 := setWidth_setWidth_eq_and v 8
  have h0 : v.setWidth 8 = 0#8 ↔ v &&& 0xFF#64 = 0#64 := by
    rw [← hv]
    exact ⟨fun h => by rw [h]; rfl, fun h => by simpa using congrArg (BitVec.setWidth 8) h⟩
  unfold atLeastOne
  simp only [h0]
  split
  · rfl
  · exact hv

theorem clear_low_or_one (x : BitVec 16) : x &&& 0xFFFE#16 ||| 1#16 = x ||| 1#16 := by
  apply BitVec.eq_of_getLsbD_eq
  intro i hi
  have h : (0xFFFE#16).getLsbD i = true ∨ (1#16).getLsbD i = true := by
    revert i
    decide
  rcases h with h | h <;> simp [h]

theorem predicates_written (v : Word) :
    ((v.setWidth 16 &&& 0xFFFE#16 ||| 1#16).setWidth 64 : Word) = v &&& 0xFFFF#64 ||| 1#64 := by
  rw [clear_low_or_one, BitVec.setWidth_or, setWidth_setWidth_eq_and]
  rfl

/-- A special register that MTS may write reads, once it is written, the value without its reserved bits. -/
theorem specialRegister_setSreg_same {n : BitVec 13} {f : Word → Word} {g : State → Word} (hw : SpecialWrite n f)
    (hg : SpecialRegister n g) (s : State) (v : Word) (h : s.focus.slot < 4) : g (s.setSreg n v) = f v := by
  have read (k : State → Word) (hk : SpecialRegister n k) : g (s.setSreg n v) = k (s.setSreg n v) := by
    rw [← sreg_of_specialRegister hg, ← sreg_of_specialRegister hk]
  have row (k : Thread → Word) (hk : SpecialRegister n fun u => k u.cur) : g (s.setSreg n v) = k (s.cur.setSreg n v) :=
    (read _ hk).trans (congrArg k (setSreg_cur s n v h))
  cases hw with
  | preds => exact (row (fun th => (th.preds ||| 1#16).setWidth 64) .preds).trans (predicates_written v)
  | evt => exact (row (fun th => th.evt.setWidth 64) .evt).trans (setWidth_setWidth_eq_and v 16)
  | flags => exact (row (fun th => th.flags.setWidth 64) .flags).trans (setWidth_setWidth_eq_and v 8)
  | trapen => exact (row (fun th => th.trapen.setWidth 64) .trapen).trans (setWidth_setWidth_eq_and v 8)
  | sbchk => exact (row (fun th => if th.sbchk then 1#64 else 0#64) .sbchk).trans (word_of_bit_zero v)
  | netclass => exact (row (fun th => if th.netclass then 1#64 else 0#64) .netclass).trans (word_of_bit_zero v)
  | reentrymax => exact (row (fun th => th.reentrymax.setWidth 64) .reentrymax).trans (atLeastOne_setWidth v)
  | agelim =>
    rw [read _ .agelim]
    exact (congrArg (·.agelim.setWidth 64) (ctx_modCtx_same s s.focus.tile fun c =>
      { c with agelim := atLeastOne (v.setWidth 8) })).trans (atLeastOne_setWidth v)
  | pwbase k =>
    rw [row (fun th => th.pwbase[k]) (.pwbase k), ← vget_eq_getElem _ _ 0#64]
    fin_cases k <;> exact vget_vset_same _ _ _ (by decide)
  | pwlim k =>
    rw [row (fun th => th.pwlim[k].setWidth 64) (.pwlim k), ← vget_eq_getElem _ _ 0#32]
    refine Eq.trans (congrArg (BitVec.setWidth 64) (a₂ := v.setWidth 32) ?_) (setWidth_setWidth_eq_and v 32)
    fin_cases k <;> exact vget_vset_same _ _ _ (by decide)
  | padm => exact row (·.padm) .padm
  | tcause => exact row (·.tcause) .tcause
  | tepc => exact row (·.tepc) .tepc
  | tval => exact row (·.tval) .tval
  | taux => exact row (·.taux) .taux
  | tvec => exact row (·.tvec) .tvec
  | tsave0 => exact row (·.tsave0) .tsave0
  | tsave1 => exact row (·.tsave1) .tsave1
  | tstate => exact row (·.tstate) .tstate

/-- What MTS leaves beside its thread: everything, but the tile's AGELIM where it names that. -/
theorem setSreg_beside (s : State) (n : BitVec 13) (v : Word) :
    let w := s.setSreg n v
    w.focus = s.focus ∧ w.now = s.now ∧ w.groups = s.groups ∧ w.pkg = s.pkg ∧ w.mem = s.mem ∧ w.poison = s.poison ∧
      (10 ≠ n.toNat → ∀ k, (w.ctx k).agelim = (s.ctx k).agelim) := by
  unfold State.setSreg
  split
  · next e => exact ⟨rfl, rfl, rfl, rfl, rfl, rfl, fun hn => absurd (congrArg BitVec.toNat e).symm hn⟩
  · exact ⟨rfl, rfl, rfl, rfl, rfl, rfl, fun _ => (SameReadings.modCur s _).agelim⟩

theorem sameUnits_setSreg (s : State) (n : BitVec 13) (v : Word) : SameUnits s (s.setSreg n v) := by
  have hctx {α : Type} (π : Context → α) (hπ : ∀ (c : Context) (x : BitVec 8), π { c with agelim := x } = π c) (k : Nat) :
      π ((s.modCtx s.focus.tile fun c => { c with agelim := atLeastOne (v.setWidth 8) }).ctx k) = π (s.ctx k) := by
    by_cases hk : k = s.focus.tile
    · rw [hk, ctx_modCtx_same, hπ]
    · rw [ctx_modCtx_ne s _ hk]
  unfold State.setSreg
  split
  · refine ⟨fun k j _ => ?_, hctx (·.pool) fun _ _ => rfl, fun k j => ?_, fun p => ?_⟩
    · exact hctx (fun c => vget c.threads j {}) (fun _ _ => rfl) k
    · exact hctx (fun c => vget c.tokens j {}) (fun _ _ => rfl) k
    · exact congrArg (fun x : Sparse TE => x.get {} (teKey p.2.1 p.2.2)) (hctx (·.tes) (fun _ _ => rfl) p.1)
  · exact sameUnits_modCur s _

/-- A special register that MTS does not name reads as before. -/
theorem specialRegister_setSreg_ne {n m : BitVec 13} {g : State → Word} (hg : SpecialRegister m g) (hne : m.toNat ≠ n.toNat)
    (s : State) (v : Word) (h : s.focus.slot < 4) : g (s.setSreg n v) = g s := by
  have hc := setSreg_cur s n v h
  obtain ⟨hf, hn, hgr, hpkg, -, -, hag⟩ := setSreg_beside s n v
  obtain ⟨hpreds, hevt, hflags, htrapen, hsbchk, hnet, hpadm, hbase, hlim, hcause, hepc, hval, haux, hvec, hsave0, hsave1,
    hstate, hmax⟩ := setSreg_other_rows s.cur n v
  obtain ⟨-, -, -, hgid, hrole, hgroup, hdomain, hsup, hre, htre, -⟩ := setSreg_fixed s.cur n v
  have hgroup? (k : Nat) : (s.setSreg n v).group? k = s.group? k := by
    unfold State.group?
    rw [hgr]
  cases hg with
  | pwbase k =>
    dsimp only
    rw [hc, ← vget_eq_getElem _ _ 0#64, ← vget_eq_getElem _ _ 0#64]
    refine hbase k fun e => hne ?_
    rw [← e]
    fin_cases k <;> rfl
  | pwlim k =>
    dsimp only
    rw [hc, ← vget_eq_getElem _ _ 0#32, ← vget_eq_getElem _ _ 0#32]
    refine congrArg _ (hlim k fun e => hne ?_)
    rw [← e]
    fin_cases k <;> rfl
  | _ =>
    simp (disch := simpa using hne) only [hc, hf, hn, hgroup?, hpkg, hag, hpreds, hevt, hflags, htrapen, hsbchk, hnet, hpadm,
      hcause, hepc, hval, haux, hvec, hsave0, hsave1, hstate, hmax, hgid, hrole, hgroup, hdomain, hsup, hre, htre]

/-- MTS of REENTRY is no write of the table. -/
theorem specialWrite_ne_reentry {n : BitVec 13} {f : Word → Word} (hw : SpecialWrite n f) : n ≠ 0x00E#13 := by
  cases hw with
  | pwbase k => fin_cases k <;> decide
  | pwlim k => fin_cases k <;> decide
  | _ => decide

/-- A word that holds its thread with its operands kept leaves it waiting at the word. -/
theorem Beside.latched_waits {s u : State} (b : Beside s u) (hs : s.focus.slot < 4) (hpc : u.cur.pc = s.cur.pc)
    (hsp : SameSpecials s u) (o : Word × Word × Word) (own : Bool) :
    Waits s ((u.latch o).modCur fun th => { th with waiting := true, waitOwn := own }) := by
  have e := latch_cur u o (b.slot hs)
  have b' : Beside s (u.latch o) := b.modCur hs _ rfl rfl rfl
  exact b'.waits hs ((congrArg Thread.pc e).trans hpc) ((congrArg Thread.specials e).trans hsp) own

/-- What MTS does at its issue leaves its thread's next word at pc + 4 and every other register as it was. -/
theorem written_spec {s u : State} {n : BitVec 13} {f : Word → Word} (v : Word) (hw : SpecialWrite n f) (b : Beside s u)
    (hs : s.focus.slot < 4) (hpc : u.cur.pc = s.cur.pc) (hsp : SameSpecials s u) (hread : SameReadings s.begin u)
    (i : Instr) (c : Ctl) (own : Bool) :
    let t := (Body.done (u.setSreg n v)).finish i c own
    t.cur.pc = s.cur.pc + 4#64 ∧ (∀ g, SpecialRegister n g → g t = f v) ∧
      (∀ m g, m ≠ n → m ≠ 0x00E#13 → SpecialRegister m g → g t = g s.begin) ∧ t.cur.ftrap = s.cur.ftrap ∧
      t.cur.copy = s.cur.copy ∧ t.cur.sieve = s.cur.sieve ∧ (∀ n r, t.cur.regAt n r = s.begin.cur.regAt n r) ∧
      (n ≠ 0x005#13 → SamePreds s t) ∧ SameUnits s t ∧ SameMemory s t := by
  intro t
  have hus := b.slot hs
  have hc := setSreg_cur u n v hus
  obtain ⟨hf, -, -, -, hm, hp, -⟩ := setSreg_beside u n v
  obtain ⟨hpreds, -⟩ := setSreg_other_rows u.cur n v
  obtain ⟨hr, hq, hpc', -, -, -, -, -, -, -, hft, hcopy, hsieve⟩ := setSreg_fixed u.cur n v
  have hws : (u.setSreg n v).focus.slot < 4 := by rw [hf]; exact hus
  have hlast : t.cur.lasting = (u.setSreg n v).cur.lasting := moveOn_lasting _ _ _ _ _ _ hws
  rw [hc] at hlast
  have hts : t.cur.specials = (u.cur.setSreg n v).specials := specials_of_lasting hlast
  have htp : t.cur.preds = (u.cur.setSreg n v).preds := preds_of_lasting hlast
  have htq : t.cur.pend = s.begin.cur.pend := (pend_of_lasting hlast).trans (hq.trans b.pend)
  have hmoved {m : BitVec 13} {g : State → Word} (hg : SpecialRegister m g) (hm : m ≠ 0x00E#13) : g t = g (u.setSreg n v) :=
    specialRegister_congr hg hm (SameReadings.moveOn _ _ _ _ _ _) (by rw [hc]; exact hts) (by rw [hc]; exact htp)
  refine ⟨?_, fun g hg => ?_, fun m g hne hm0 hg => ?_, ?_, ?_, ?_, fun k r => ?_, fun hn k p => ?_, ?_, fun a => ?_, ?_⟩
  · refine (moveOn_pc _ _ _ _ _ _ hws).trans ?_
    rw [hc, hpc', hpc]
  · rw [hmoved hg (specialWrite_ne_reentry hw), specialRegister_setSreg_same hw hg u v hus]
  · rw [hmoved hg hm0, specialRegister_setSreg_ne hg (fun e => hne (BitVec.eq_of_toNat_eq e)) u v hus]
    exact specialRegister_congr hg hm0 hread (hsp.trans (begin_cur_specials s hs).symm) b.preds
  · exact (congrArg Specials.ftrap hts).trans (hft.trans (congrArg Specials.ftrap hsp))
  · exact (congrArg Specials.copy hts).trans (hcopy.trans (congrArg Specials.copy hsp))
  · exact (congrArg Specials.sieve hts).trans (hsieve.trans (congrArg Specials.sieve hsp))
  · exact regAt_congr ((regs_of_lasting hlast).trans (hr.trans b.regs)) htq k r
  · refine predAt_congr (htp.trans ((hpreds fun e => hn ?_).trans b.preds)) htq k p
    exact BitVec.eq_of_toNat_eq e.symm
  · exact sameUnits_trans (sameUnits_trans b.units b.focus (sameUnits_setSreg u n v)) (hf.trans b.focus)
      (sameUnits_moveOn _ _ _ _ _ _)
  · rw [show t.mem = (u.setSreg n v).mem from moveOn_mem _ _ _ _ _ _, hm, b.mem]
  · rw [show t.poison = (u.setSreg n v).poison from moveOn_poison _ _ _ _ _ _, hp, b.poison]

/-- Settles O17: the word's effect is the write of one row at its issue, and its step to the next word changes no special
register but REENTRY. -/
theorem specialRegistersAreWritten : Obligations.SpecialRegistersAreWritten := by
  intro c d n f s hw h
  have hs := slot_of_issues h
  have b := Beside.atIssue (.mts c d n) c hs
  have hpc := atIssue_pc s (.mts c d n) c hs
  have hsp : SameSpecials s (s.atIssue (.mts c d n) c) := atIssue_specials s _ c hs
  have hwait : (s.atIssue (.mts c d n) c).cur.waiting = false :=
    (atIssue_cur_waiting s _ c hs).trans (not_waiting_of_issues h)
  have hop : ((s.atIssue (.mts c d n) c).cur.operands 0#5 0#5 d).2.2 = s.begin.cur.reg d := by
    simp [Thread.operands, hwait, atIssue_reg s _ c hs]
  rw [exec_mts, execMts, issueWord_of_issues _ h]
  refine ⟨fun hn => ⟨_, rfl, ?_⟩, fun hn hd => ⟨_, rfl, ?_⟩⟩
  · rw [if_neg (waitsForFlags_eq_false _ c hs hn), hop]
    exact written_spec _ hw b hs hpc hsp (SameReadings.atIssue s _ c) _ _ _
  · rw [if_pos (waitsForFlags_eq_true _ c hs hn hd)]
    exact b.latched_waits hs hpc hsp _ _

end Sys2Proof.Machine
end

section
/-! SUPPORT. Illegal words (R50, R57, R58, R341). -/

namespace Sys2Proof.Machine

open Sys2Proof.Claims

theorem begin_hasHandler {s : State} (hs : s.focus.slot < 4) (h : hasHandler s) : hasHandler s.begin := by
  obtain ⟨hsup, htvec, hbad⟩ := h
  have hsp := begin_cur_specials s hs
  exact ⟨(congrArg Specials.sup hsp).trans hsup, fun h0 => htvec ((congrArg Specials.tvec hsp).symm.trans h0),
    (begin_keeps (·.trapsPoisoned) (fun _ => rfl) hs).trans hbad⟩

theorem illegal_causeWord (v : Option Word) : ({ code := 0x01#6, tval := v } : Trap).causeWord = BitVec.ofNat 64 0x01 := by
  simp only [Trap.causeWord]
  decide

/-- The trap of an illegal word is precise and is taken at the start of its cycle. -/
theorem illegal_entersHandler {s : State} (w : BitVec 32) (hs : s.focus.slot < 4) (hh : hasHandler s) :
    EntersHandler s (s.begin.trapNow { code := 0x01#6, tval := some (w.setWidth 64) }) 0x01 s.cur.pc (w.setWidth 64) 0#64 :=
  entersHandler_of_trapNow (Beside.begin s) hs (begin_cur_pc s hs) (begin_cur_specials s hs) (begin_hasHandler hs hh) rfl rfl
    (illegal_causeWord _)

/-- A privileged word has an encoding and is illegal in group state. -/
theorem privilegedWord_illegal {i : Instr} {c : Ctl} (h : PrivilegedWord i c) :
    (∃ w, encodeWord i = some w) ∧ ∀ th : Thread, th.sup = false → th.illegal i = true := by
  cases h with
  | eret _ => exact ⟨⟨_, rfl⟩, fun th hg => by simp [Thread.illegal, hg]⟩
  | mfs _ d n hn => exact ⟨⟨_, rfl⟩, fun th hg => by simp [Thread.illegal, hg, hn]⟩
  | mts _ d n hn =>
    refine ⟨⟨_, rfl⟩, fun th hg => ?_⟩
    rcases hn with h | h <;> simp [Thread.illegal, hg, h]

theorem exec_privilegedWord {i : Instr} {c : Ctl} (h : PrivilegedWord i c) (s : State) :
    ∃ body, exec i s = issueWord i c body s := by
  cases h with
  | eret _ =>
    rw [exec_eret, execEret]
    exact ⟨_, rfl⟩
  | mfs _ _ _ _ =>
    rw [exec_mfs, execMfs]
    exact ⟨_, rfl⟩
  | mts _ _ _ _ =>
    rw [exec_mts, execMts]
    exact ⟨_, rfl⟩

/-- An illegal word traps before its guard is read (R58). -/
theorem issueWord_of_illegal {i : Instr} {s : State} {w : BitVec 32} (c : Ctl) (body : State → Body)
    (hw : encodeWord i = some w) (hwait : s.begin.cur.waiting = false) (h : s.begin.cur.illegal i = true) :
    issueWord i c body s = .next (s.begin.trapNow { code := 0x01#6, tval := some (w.setWidth 64) }) := by
  have ht : s.begin.cur.guardTrap i c = some { code := 0x01#6, tval := some (w.setWidth 64) } := by
    simp [Thread.guardTrap, h, hw]
  unfold issueWord
  simp [hwait, ht]

theorem privilegedWordsTrapInGroupState : PrivilegedWordsTrapInGroupState := by
  intro i c s hi hs hwait hh
  obtain ⟨⟨w, hw⟩, hill⟩ := privilegedWord_illegal hi
  obtain ⟨body, he⟩ := exec_privilegedWord hi s
  refine ⟨_, w, hw, ?_, illegal_entersHandler w hs hh⟩
  rw [he, issueWord_of_illegal c body hw hwait (hill _ (begin_hasHandler hs hh).1)]

theorem illegalWordsTrap : IllegalWordsTrap := fun w _ hs hh => ⟨_, rfl, illegal_entersHandler w hs hh⟩

/-- Settles O18: both kinds of word take the same precise trap at the start of the cycle, before anything else is read. -/
theorem illegalWordsTrapWhateverTheirGuard : Obligations.IllegalWordsTrapWhateverTheirGuard :=
  ⟨privilegedWordsTrapInGroupState, illegalWordsTrap⟩

end Sys2Proof.Machine
end

section
/-! SUPPORT. The results that a scoreboard holds back: a load's reply and the divider's result (R53, R61, R62, R243). -/

namespace Sys2Proof.Machine

open Sys2Proof.Claims

/-! ## One thread written in its slot -/

theorem setReg_specials (th : Thread) (r : BitVec 5) (v : Word) : (th.setReg r v).specials = th.specials := by
  unfold Thread.setReg
  split <;> rfl

theorem setReg_pc (th : Thread) (r : BitVec 5) (v : Word) : (th.setReg r v).pc = th.pc := by
  unfold Thread.setReg
  split <;> rfl

theorem thread_modThread_same (s : State) (t : Nat) {k : Nat} (f : Thread → Thread) (h : k < 4) :
    (s.modThread t k f).thread t k = f (s.thread t k) := thread_setThread_same s t _ h

/-- A change of one thread leaves the pools and the tokens. -/
theorem pool_token_modThread (s : State) (t k : Nat) (f : Thread → Thread) (p : Nat) :
    ((s.modThread t k f).ctx p).pool = (s.ctx p).pool ∧ ∀ n, (s.modThread t k f).token p n = s.token p n := by
  unfold State.modThread State.token
  rw [ctx_setThread]
  split
  · next e => exact ⟨by rw [e], fun n => by rw [e]⟩
  · exact ⟨rfl, fun _ => rfl⟩

/-! ## A load's reply -/

/-- A reply that is due and has come ends its load. -/
theorem loadReply_of_due {s : State} {tile slot k : Nat} {o : Outstanding} {v : Word}
    (ho : ((s.thread tile slot).outstanding.find? fun x => x.id == k && (x.src == .load || x.src == .value)) = some o)
    (hdue : o.due ≤ s.now) (hnet : o.inNet = false) (hv : o.value = some v) :
    s.loadReply tile slot k = s.finishLoad tile slot o v := by
  have hd : ¬(s.now < o.due ∨ o.inNet = true) := by
    rw [hnet]
    simp only [Bool.false_eq_true, or_false, not_lt]
    exact hdue
  unfold State.loadReply
  rw [ho]
  simp only [Bool.or_eq_true, decide_eq_true_eq, if_neg hd, hv]

/-- The thread after its load has ended. -/
def Thread.withReply (th : Thread) (o : Outstanding) (v : Word) : Thread :=
  { th.setReg o.dst v with outstanding := th.outstanding.filter fun x => x.id != o.id }

theorem finishLoad_eq (s : State) (tile slot : Nat) (o : Outstanding) (v : Word) :
    s.finishLoad tile slot o v = s.modThread tile slot fun th => (th.settle s.now).withReply o v := rfl

theorem withReply_pc (th : Thread) (o : Outstanding) (v : Word) : (th.withReply o v).pc = th.pc := setReg_pc th o.dst v

theorem withReply_specials (th : Thread) (o : Outstanding) (v : Word) : (th.withReply o v).specials = th.specials :=
  setReg_specials th o.dst v

theorem loadReplyWritesTheRegister : LoadReplyWritesTheRegister := by
  intro tile slot k o v s htile hslot ho hdue hnet hv
  have hr : ¬((decide (2048 ≤ tile) || decide (4 ≤ slot)) = true) := by
    simp only [Bool.or_eq_true, decide_eq_true_eq]
    omega
  have he : exec (.loadReply tile slot k) s =
      .next (s.modThread tile slot fun th => (th.settle s.now).withReply o v) := by
    rw [exec_loadReply, execLoadReply, if_neg hr, loadReply_of_due ho hdue hnet hv, finishLoad_eq]
  refine ⟨_, he, ?_, fun r hne => ?_, fun x hx => ?_, ?_, ?_, fun p q hne => thread_setThread_ne s _ hne,
    pool_token_modThread s tile slot _, fun _ => rfl, rfl⟩
  · rw [thread_modThread_same s tile _ hslot]
    exact reg_setReg_same _ _ _
  · rw [thread_modThread_same s tile _ hslot]
    exact reg_setReg_ne _ _ hne
  · rw [thread_modThread_same s tile _ hslot] at hx
    have hf := (List.mem_filter.1 hx).2
    simpa using hf
  · rw [thread_modThread_same s tile _ hslot, withReply_pc, settle_pc]
  · rw [thread_modThread_same s tile _ hslot, withReply_specials, settle_specials]

/-! ## The divider's result -/

/-- The thread of the division once the divider has written its result, where it still is of the group that asked. -/
def Thread.divided (th0 : Thread) (now : Nat) (v : Division) : Thread :=
  let th := th0.settle now
  if th.gid != v.gid then th0
  else { th.setReg v.dst v.value with
    flags := if v.dz then th.flags ||| flagDZ else th.flags
    outstanding := th.outstanding.filter fun o => o.src != .division }

theorem dividerResult_of_due {s : State} {tile : Nat} {v : Division} (hv : (s.tile tile).divider = some v)
    (hdue : v.due ≤ s.now) :
    s.dividerResult tile =
      (s.modThread tile v.slot fun th => th.divided s.now v).modTile tile fun x => { x with divider := none } := by
  unfold State.dividerResult
  rw [hv]
  simp only [if_neg (not_lt.2 hdue)]
  rfl

theorem settle_gid (th : Thread) (n : Nat) : (th.settle n).gid = th.gid := congrArg Specials.gid (settle_specials th n)

theorem divided_of_other_gid {th : Thread} {now : Nat} {v : Division} (h : th.gid ≠ v.gid) : th.divided now v = th := by
  unfold Thread.divided
  simp [settle_gid, h]

theorem divided_of_gid {th : Thread} {now : Nat} {v : Division} (h : th.gid = v.gid) :
    th.divided now v = { (th.settle now).setReg v.dst v.value with
      flags := if v.dz then (th.settle now).flags ||| flagDZ else (th.settle now).flags
      outstanding := (th.settle now).outstanding.filter fun o => o.src != .division } := by
  unfold Thread.divided
  simp [settle_gid, h]

theorem divided_pc (th : Thread) (now : Nat) (v : Division) : (th.divided now v).pc = th.pc := by
  by_cases h : th.gid = v.gid
  · rw [divided_of_gid h]
    exact (setReg_pc _ _ _).trans (settle_pc th now)
  · rw [divided_of_other_gid h]

/-- The threads beside a change of a tile's divider. -/
theorem thread_modTile_divider (s : State) (tile : Nat) (d : Option Division) (p q : Nat) :
    (s.modTile tile fun x => { x with divider := d }).thread p q = s.thread p q := by
  unfold State.thread State.ctx
  by_cases h : p = tile
  · rw [h, tile_modTile_same]
  · rw [tile_modTile_ne s _ h]

theorem tile_modThread_ne (s : State) {t u : Nat} (k : Nat) (f : Thread → Thread) (h : u ≠ t) :
    (s.modThread t k f).tile u = s.tile u := tile_modTile_ne s _ h

theorem dividerWritesItsResult : DividerWritesItsResult := by
  intro tile v s htile hslot hv hdue
  have he : exec (.dividerResult tile) s =
      .next ((s.modThread tile v.slot fun th => th.divided s.now v).modTile tile fun x => { x with divider := none }) := by
    rw [exec_dividerResult, execDividerResult, if_neg (not_le.2 htile), dividerResult_of_due hv hdue]
  have hth : ((s.modThread tile v.slot fun th => th.divided s.now v).modTile tile fun x =>
      { x with divider := none }).thread tile v.slot = (s.thread tile v.slot).divided s.now v :=
    (thread_modTile_divider _ _ _ _ _).trans (thread_modThread_same s tile _ hslot)
  refine ⟨_, he, by simp, fun hg => ?_, fun hg => ?_, ?_, fun p q hne => ?_, fun p hp => ?_, fun _ => rfl, rfl⟩
  · have hfl : ((s.thread tile v.slot).settle s.now).flags = (s.thread tile v.slot).flags :=
      congrArg Specials.flags (settle_specials _ _)
    rw [hth, divided_of_gid hg]
    refine ⟨reg_setReg_same _ _ _, ?_, fun r hne => reg_setReg_ne _ _ hne, fun o ho => ?_⟩
    · change (if v.dz then _ else _) = _
      rw [hfl]
      cases v.dz
      · simp
      · rfl
    · have hf := (List.mem_filter.1 ho).2
      simpa using hf
  · rw [hth, divided_of_other_gid hg]
  · rw [hth, divided_pc]
  · exact (thread_modTile_divider _ _ _ _ _).trans (thread_setThread_ne s _ hne)
  · exact (tile_modTile_ne _ _ hp).trans (tile_modThread_ne s _ _ hp)

/-- Settles O7: both results are one write of the thread in its slot. -/
theorem scoreboardedResultsAreWritten : Obligations.ScoreboardedResultsAreWritten :=
  ⟨loadReplyWritesTheRegister, dividerWritesItsResult⟩

end Sys2Proof.Machine
end

section
/-! SUPPORT. The issue of an engine command (R47, R48, R220, R276, R307, R340): its token word, and the traps on it. -/

namespace Sys2Proof.Machine

open Sys2Proof.Claims

/-! ## Token words -/

/-- A consumed byte is its token above its level (R48). -/
theorem consumed_eq (b : Word) {j : Nat} (hj : j < 3) :
    consumed b j = (b.toNat / 2 ^ (50 - 8 * j) % 64, b.toNat / 2 ^ (48 - 8 * j) % 4) := by
  have hp : 2 ^ (50 - 8 * j) = 2 ^ (48 - 8 * j) * 4 := by
    rw [show 50 - 8 * j = (48 - 8 * j) + 2 by omega, pow_add]
    rfl
  unfold consumed
  rw [hp, ← Nat.div_div_eq_div_mul]
  generalize b.toNat / 2 ^ (48 - 8 * j) = m
  refine Prod.ext ?_ ?_
  · dsimp only
    omega
  · dsimp only
    omega

theorem produced_eq_some (b : Word) (k : Nat) : produced b = some k ↔ b.getLsbD 57 = true ∧ k = b.toNat / 2 ^ 58 := by
  have hk : bits b 63 58 = b.toNat / 2 ^ 58 := by
    have := b.isLt
    unfold bits
    omega
  unfold produced bit
  split
  · next h => exact ⟨fun e => ⟨h, hk ▸ (Option.some.inj e).symm⟩, fun e => congrArg some (hk.trans e.2.symm)⟩
  · next h => exact ⟨(nomatch ·), fun e => absurd e.1 h⟩

/-- The check of a token word finds what R48 says of it. -/
theorem badTokenWord_iff (b : Word) : badTokenWord b = true ↔ tokenWordBad b := by
  have hmem (p : Nat → Bool) : [0, 1, 2].any p = true ↔ ∃ j, j < 3 ∧ p j = true := by
    rw [List.any_eq_true]
    exact exists_congr fun j => and_congr_left fun _ => by simp; omega
  have hcons (j : Nat) : (((consumed b j).2 == 0 && (consumed b j).1 != 0) = true ∨
      ((consumed b j).2 != 0 && produced b == some (consumed b j).1) = true) ↔
      ((consumed b j).2 = 0 ∧ (consumed b j).1 ≠ 0) ∨
        ((consumed b j).2 ≠ 0 ∧ b.getLsbD 57 = true ∧ (consumed b j).1 = b.toNat / 2 ^ 58) := by
    simp only [Bool.and_eq_true, beq_iff_eq, bne_iff_ne, produced_eq_some]
  unfold badTokenWord tokenWordBad
  rw [Bool.or_eq_true, Bool.or_eq_true, hmem, hmem, or_assoc, ← exists_or]
  refine or_congr Iff.rfl (exists_congr fun j => ?_)
  rw [← and_or_left, hcons]
  refine and_congr_right fun hj => ?_
  rw [consumed_eq b hj]

/-! ## Commands at their issue -/

theorem exec_commandWord {i : Instr} {c : Ctl} {func : BitVec 7} {a b : BitVec 5} (h : CommandWord i c func a b) (s : State) :
    exec i s = issueCommand i c func a b s := by
  cases h <;> rfl

theorem exec_replyWord {i : Instr} {c : Ctl} {func : BitVec 7} {d a b : BitVec 5} (h : ReplyWord i c func d a b) (s : State) :
    exec i s = issueWord i c (replyBody func d a b) s := by
  cases h <;> rfl

/-- A command word whose buffer is not full of committed commands issues as every word. -/
theorem issueCommand_of_room {i : Instr} {c : Ctl} {func : BitVec 7} {a b : BitVec 5} {s : State}
    (h : s.begin.cur.bufferFull = false) : issueCommand i c func a b s = issueWord i c (commandBody func a b) s := by
  unfold issueCommand
  simp [h]

/-- At its issue a word reads its operands in the registers of the start of the cycle. -/
theorem atIssue_operands {i : Instr} {c : Ctl} {s : State} (a b d : BitVec 5) (h : issues i c s = true) :
    (s.atIssue i c).cur.operands a b d = (s.begin.cur.reg a, s.begin.cur.reg b, s.begin.cur.reg d) := by
  have hs := slot_of_issues h
  have hwait : (s.atIssue i c).cur.waiting = false := (atIssue_cur_waiting s i c hs).trans (not_waiting_of_issues h)
  simp [Thread.operands, hwait, atIssue_reg s i c hs]

/-- An engine command whose arguments fail a check traps on it (R340). -/
theorem exec_engineCommand_of_trap {i : Instr} {c : Ctl} {func : BitVec 7} {a b : BitVec 5} {s : State} {t : Trap}
    (hi : CommandWord i c func a b ∨ ∃ d, ReplyWord i c func d a b) (h : issues i c s = true)
    (hroom : s.begin.cur.bufferFull = false)
    (ht : (s.atIssue i c).commandTrap func (s.begin.cur.reg a) (s.begin.cur.reg b) = some t) :
    exec i s = .next ((s.atIssue i c).trapNow t) := by
  have ho := fun d => atIssue_operands (i := i) (c := c) a b d h
  have hwait : (s.atIssue i c).cur.waiting = false :=
    (atIssue_cur_waiting s i c (slot_of_issues h)).trans (not_waiting_of_issues h)
  rcases hi with hi | ⟨d, hi⟩
  · have hb : commandBody func a b (s.atIssue i c) = .trap (s.atIssue i c) t := by
      unfold commandBody
      simp only [ho, ht]
    rw [exec_commandWord hi, issueCommand_of_room hroom, issueWord_of_issues _ h, hb]
    rfl
  · have hb : replyBody func d a b (s.atIssue i c) = .trap (s.atIssue i c) t := by
      unfold replyBody
      simp only [ho, hwait, Bool.false_eq_true, if_false, ht]
    rw [exec_replyWord hi, issueWord_of_issues _ h, hb]
    rfl

theorem commandTrap_of_tokenTrap {s : State} {func : BitVec 7} {y : Word} {t : Trap} (x : Word)
    (h : s.tokenTrap func y = some t) : s.commandTrap func x y = some t := by
  unfold State.commandTrap
  rw [h]

/-! ## What the entry of a word leaves of its thread's commands -/

theorem cmds_marker (s : State) (pc : Word) (h : s.focus.slot < 4) :
    let t := s.marker s.focus.tile s.focus.slot pc
    t.cur.departing ++ t.cur.held = s.cur.departing ++ s.cur.held := by
  dsimp only
  rw [marker_cur s pc h]
  simp [Thread.openRegion]

/-- A marker commits commands and changes the order of none (R217, R220). -/
theorem cmds_enter (s : State) (i : Instr) (c : Ctl) (h : s.focus.slot < 4) :
    (s.enter i c).cur.departing ++ (s.enter i c).cur.held = s.cur.departing ++ s.cur.held := by
  unfold State.enter
  dsimp only
  split
  · rfl
  · split
    · rw [cur_modCur _ _ (by simpa using h), cur_modCur _ _ (by simpa using h)]
      exact cmds_marker s _ h
    · rw [cur_modCur _ _ h]
      rfl

theorem cmds_atIssue (s : State) (i : Instr) (c : Ctl) (h : s.focus.slot < 4) :
    (s.atIssue i c).cur.departing ++ (s.atIssue i c).cur.held = s.cur.departing ++ s.cur.held := by
  unfold State.atIssue
  rw [cmds_enter _ i c (by simpa using h)]
  exact begin_keeps (fun th => th.departing ++ th.held) (fun _ => rfl) h

theorem willProduce_congr {x y : Thread} (h : x.departing ++ x.held = y.departing ++ y.held) (k : Nat) :
    x.willProduce k = y.willProduce k := by
  have hcomm (th : Thread) : th.willProduce k = (th.departing ++ th.held).any fun q => produced q.b == some k := by
    unfold Thread.willProduce
    rw [List.any_append, List.any_append, Bool.or_comm]
  rw [hcomm, hcomm, h]

/-- A token counts as PENDING for the word as for its thread at the start of the cycle. -/
theorem atIssue_pendingToken (s : State) (i : Instr) (c : Ctl) (h : s.focus.slot < 4) (k : Nat) :
    (s.atIssue i c).pendingToken k = s.pendingToken k := by
  have b := Beside.atIssue i c h
  unfold State.pendingToken
  rw [b.focus, b.units.2.2.1, willProduce_congr (cmds_atIssue s i c h)]

theorem atIssue_outsideMask (s : State) (i : Instr) (c : Ctl) (h : s.focus.slot < 4) (k : Nat) :
    (s.atIssue i c).outsideMask k = s.outsideMask k := by
  unfold State.outsideMask State.group?
  rw [atIssue_groups, atIssue_gid s i c h]

theorem atIssue_hasHandler {s : State} (i : Instr) (c : Ctl) (hs : s.focus.slot < 4) (h : hasHandler s) :
    hasHandler (s.atIssue i c) := by
  obtain ⟨hsup, htvec, hbad⟩ := h
  have hsp := atIssue_specials s i c hs
  exact ⟨(congrArg Specials.sup hsp).trans hsup, fun h0 => htvec ((congrArg Specials.tvec hsp).symm.trans h0),
    (atIssue_keeps (·.trapsPoisoned) (fun _ => rfl) i c hs).trans
      ((begin_keeps (·.trapsPoisoned) (fun _ => rfl) hs).trans hbad)⟩

/-! ## Traps with no value of their own -/

/-- A precise trap to which R337 gives no TVAL is one with a free value, the next of the state's (log entry 6). -/
theorem trapNow_of_no_value {u : State} {t : Trap} (h : u.focus.slot < 4) (hh : hasHandler u) (hst : t.style = .precise)
    (hv : t.tval = none) : u.trapNow t = u.draw.2.trapNow { t with tval := some (Config.freeWord u.draw.1) } := by
  have hd : u.draw.2.focus.slot < 4 := h
  rw [trapNow_precise (u := u.draw.2) (t := { t with tval := some (Config.freeWord u.draw.1) }) hd hh hst rfl]
  obtain ⟨hsup, htvec, hbad⟩ := hh
  obtain ⟨-, -, -, hb, hsp⟩ := savedTrap_eq u t (Config.freeWord u.draw.1) h
  have hm : (u.savedTrap t (Config.freeWord u.draw.1)).tvec = u.cur.tvec := congrArg Specials.tvec hsp
  have hsup' : (u.thread u.focus.tile u.focus.slot).sup = false := hsup
  have ht : u.takeTrap u.focus.tile u.focus.slot t =
      ((u.marker u.focus.tile u.focus.slot u.cur.pc).draw.2.setThread u.focus.tile u.focus.slot
        (u.savedTrap t (Config.freeWord u.draw.1))).enterOrStop u.focus.tile u.focus.slot t := by
    simp only [State.takeTrap, State.trapValue, hsup', hst, hv, Bool.false_eq_true, if_false, reduceCtorEq]
    rfl
  have hth : ((u.marker u.focus.tile u.focus.slot u.cur.pc).draw.2.setThread u.focus.tile u.focus.slot
      (u.savedTrap t (Config.freeWord u.draw.1))).thread u.focus.tile u.focus.slot =
      u.savedTrap t (Config.freeWord u.draw.1) := thread_setThread_same _ _ _ h
  simp only [State.trapNow, ht, State.enterOrStop, hth, hm, hb, htvec, hbad, decide_false, Bool.or_self,
    Bool.false_eq_true, if_false]
  rfl

theorem Beside.draw {s u : State} (b : Beside s u) : Beside s u.draw.2 :=
  ⟨b.focus, b.mem, b.poison, sameUnits_trans b.units b.focus (sameUnits_of_tiles rfl), b.regs, b.preds, b.pend⟩

/-! ## The traps on a token word -/

theorem reject_causeWord (func : BitVec 7) : (rejectTrap func).causeWord = BitVec.ofNat 64 0x0A := by
  simp only [Trap.causeWord, rejectTrap]
  decide

theorem reuse_causeWord (v : Option Word) (taux : Word) :
    ({ code := 0x08#6, tval := v, taux := taux } : Trap).causeWord = BitVec.ofNat 64 0x08 := by
  simp only [Trap.causeWord]
  decide

/-- The token checks, in the order of R340. -/
theorem tokenTrap_cases (u : State) (func : BitVec 7) (y : Word) :
    (tokenWordBad y → u.tokenTrap func y = some (rejectTrap func)) ∧
      (¬tokenWordBad y → ∀ k, (namedTokens y).find? u.outsideMask = some k → u.tokenTrap func y = some (tokMaskTrap k)) ∧
      (¬tokenWordBad y → (∀ k ∈ namedTokens y, u.outsideMask k = false) → ∀ k, produced y = some k →
        u.pendingToken k = true → u.tokenTrap func y = some (reuseTrap k)) := by
  unfold State.tokenTrap State.maskTrap
  rw [← badTokenWord_iff]
  refine ⟨fun h => if_pos h, fun h k hk => ?_, fun h hm k hk hp => ?_⟩
  · rw [if_neg h, hk]
    rfl
  · have hn : (namedTokens y).find? u.outsideMask = none := by
      rw [List.find?_eq_none]
      exact fun j hj => by simp [hm j hj]
    rw [if_neg h, hn]
    simp [hk, hp]

/-- Settles O38: each check, in the order of R340, is the first to fail, and its trap is precise. -/
theorem commandsTrapOnTheirTokenWord : Obligations.CommandsTrapOnTheirTokenWord := by
  intro i c func a b s hi h hroom hh y
  have hs := slot_of_issues h
  have bs := Beside.atIssue i c hs
  have hpc := atIssue_pc s i c hs
  have hsp := atIssue_specials s i c hs
  have hh' := atIssue_hasHandler i c hs hh
  have hrun {t : Trap} (ht : (s.atIssue i c).tokenTrap func y = some t) : exec i s = .next ((s.atIssue i c).trapNow t) :=
    exec_engineCommand_of_trap hi h hroom (commandTrap_of_tokenTrap _ ht)
  obtain ⟨hbad, hmask, hreuse⟩ := tokenTrap_cases (s.atIssue i c) func y
  rw [show (s.atIssue i c).outsideMask = s.outsideMask from funext (atIssue_outsideMask s i c hs)] at hmask hreuse
  refine ⟨fun hy => ?_, fun hy k hk => ?_, fun hy hm k hk hp => ?_⟩
  · exact ⟨_, hrun (hbad hy), entersHandler_of_trapNow bs hs hpc hsp hh' rfl rfl (reject_causeWord func)⟩
  · exact ⟨_, hrun (hmask hy k hk), entersHandler_of_trapNow bs hs hpc hsp hh' rfl rfl (tokFault_causeWord _ _)⟩
  · rw [← atIssue_pendingToken s i c hs] at hp
    refine ⟨_, Config.freeWord (s.atIssue i c).draw.1, hrun (hreuse hy hm k hk hp), ?_⟩
    rw [trapNow_of_no_value (bs.slot hs) hh' rfl rfl]
    exact entersHandler_of_trapNow bs.draw hs hpc hsp hh' rfl rfl (reuse_causeWord _ _)

end Sys2Proof.Machine
end

section
/-! SUPPORT. An engine command at its issue: how it enters its thread's buffer (R47, R220, R361). -/

namespace Sys2Proof.Machine

open Sys2Proof.Claims

/-! ## Changes of a context -/

/-- What a change of a context leaves of each of its tile's contexts, it leaves of the state's. -/
theorem modCtx_keeps {α : Type} (π : Context → α) {f : Context → Context} (hπ : ∀ c, π (f c) = π c) (s : State) (t n : Nat) :
    π ((s.modCtx t f).ctx n) = π (s.ctx n) := by
  by_cases hn : n = t
  · rw [hn, ctx_modCtx_same, hπ]
  · rw [ctx_modCtx_ne s _ hn]

/-- A command is numbered beside the running context of its tile. -/
theorem ctx_newCmd (s : State) (func : BitVec 7) (a b : Word) (r : Option (BitVec 5)) (n : Nat) :
    (s.newCmd func a b r).2.ctx n = s.ctx n := by
  by_cases hn : n = s.focus.tile
  · subst hn
    unfold State.newCmd State.ctx
    dsimp only
    rw [tile_modTile_same]
  · exact congrArg Tile.ctx (tile_modTile_ne s _ hn)

/-! ## The owners of a PFLOW -/

theorem mem_setBits (w k : Nat) : ∀ n i, k ∈ setBits w i n ↔ i ≤ k ∧ k < i + n ∧ w / 2 ^ k % 2 = 1
  | 0, i => by
    simp only [setBits, List.not_mem_nil, false_iff]
    omega
  | n + 1, i => by
    have ih := mem_setBits w k n (i + 1)
    by_cases hk : k = i
    · subst hk
      unfold setBits
      split
      · next h => simp [h]
      · next h => simp [ih, h]
    · unfold setBits
      split
      · rw [List.mem_cons, ih]
        simp only [hk, false_or]
        exact and_congr (by omega) (and_congr (by omega) Iff.rfl)
      · rw [ih]
        exact and_congr (by omega) (and_congr (by omega) Iff.rfl)

theorem low_bit_iff (x : Word) {k : Nat} (hk : k < 32) : bits x 31 0 / 2 ^ k % 2 = 1 ↔ x.getLsbD k = true := by
  have h := Nat.testBit_mod_two_pow x.toNat 32 k
  rw [Nat.testBit_eq_decide_div_mod_eq] at h
  have hb : bits x 31 0 = x.toNat % 2 ^ 32 := by simp [bits]
  rw [hb]
  exact decide_eq_true_iff.symm.trans (by simp [h, hk, BitVec.getLsbD])

/-- A PFLOW owns the accumulator tiles of its first argument's low half, each under its own number. -/
theorem ownersOf_spec (q : Cmd) :
    (∀ o ∈ ownersOf q, o.flow = q.id) ∧
      ∀ k, (∃ o ∈ ownersOf q, o.acct = k) ↔ q.func = 0x05#7 ∧ k < 32 ∧ q.a.getLsbD k = true := by
  by_cases hf : q.func = 0x05#7
  · refine ⟨fun o ho => ?_, fun k => ?_⟩
    · simp only [ownersOf, hf, if_true, List.mem_map] at ho
      obtain ⟨t, -, rfl⟩ := ho
      rfl
    · have h1 : (∃ o ∈ ownersOf q, o.acct = k) ↔ k ∈ setBits (bits q.a 31 0) 0 32 := by
        simp [ownersOf, hf]
      rw [h1, mem_setBits]
      constructor
      · rintro ⟨-, hk, hb⟩
        exact ⟨hf, by omega, (low_bit_iff q.a (by omega)).1 hb⟩
      · rintro ⟨-, hk, hb⟩
        exact ⟨by omega, by omega, (low_bit_iff q.a hk).2 hb⟩
  · simp [ownersOf, hf]

/-! ## A command held -/

/-- The thread with a command as its youngest (R220). -/
def Thread.holding (th : Thread) (q : Cmd) : Thread :=
  if th.sup then { th with departing := th.departing ++ [q] } else { th with held := th.held ++ [q] }

/-- The context with the accumulator tiles that a command takes. -/
def Context.owned (x : Context) (q : Cmd) : Context :=
  { x with pool := { x.pool with owners := x.pool.owners ++ ownersOf q } }

theorem hold_eq (s : State) (q : Cmd) :
    s.hold q = (s.modCur fun th => th.holding q).modCtx s.focus.tile fun x => x.owned q := rfl

theorem holding_values (th : Thread) (q : Cmd) :
    (th.holding q).regs = th.regs ∧ (th.holding q).preds = th.preds ∧ (th.holding q).pend = th.pend ∧
      (th.holding q).specials = th.specials ∧ (th.holding q).pc = th.pc ∧ (th.holding q).sup = th.sup ∧
      (th.sup = false → (th.holding q).departing ++ (th.holding q).held = th.departing ++ th.held ++ [q]) ∧
      (th.sup = true → (th.holding q).departing = th.departing ++ [q]) := by
  unfold Thread.holding
  split
  · next h => exact ⟨rfl, rfl, rfl, rfl, rfl, rfl, fun e => by simp [h] at e, fun _ => rfl⟩
  · next h => exact ⟨rfl, rfl, rfl, rfl, rfl, rfl, fun _ => (List.append_assoc _ _ _).symm, fun e => absurd e h⟩

/-- What the entry of a command into its thread's buffer changes: the thread, and the owners in its tile's pool. -/
theorem hold_spec (s : State) (q : Cmd) (h : s.focus.slot < 4) :
    (s.hold q).cur = s.cur.holding q ∧
      ((s.hold q).ctx s.focus.tile).pool.owners = (s.ctx s.focus.tile).pool.owners ++ ownersOf q ∧
      SameButOwners s (s.hold q) := by
  rw [hold_eq]
  obtain ⟨hother, hpool, htok, hte⟩ := sameUnits_modCur s fun th => th.holding q
  have hcur := cur_modCur s (fun th => th.holding q) h
  have hm : SameMemory s (s.modCur fun th => th.holding q) := ⟨fun _ => rfl, rfl⟩
  generalize (s.modCur fun th => th.holding q) = u at *
  have keeps {α : Type} (π : Context → α) (hπ : ∀ c : Context, π (c.owned q) = π c) (n : Nat) :
      π ((u.modCtx s.focus.tile fun x => x.owned q).ctx n) = π (u.ctx n) := modCtx_keeps π hπ u _ n
  have hth (n k : Nat) : (u.modCtx s.focus.tile fun x => x.owned q).thread n k = u.thread n k :=
    keeps (fun c => vget c.threads k {}) (fun _ => rfl) n
  refine ⟨(hth _ _).trans hcur, ?_, fun n k hne => (hth n k).trans (hother n k hne), fun n hn => ?_, ?_,
    fun n k => ?_, fun p => ?_, hm⟩
  · rw [ctx_modCtx_same]
    exact congrArg (fun p : Pool => p.owners ++ ownersOf q) (hpool _)
  · rw [ctx_modCtx_ne _ _ hn, hpool]
  · rw [ctx_modCtx_same]
    exact congrArg (fun p : Pool => { p with owners := [] }) (hpool _)
  · exact (keeps (fun c => vget c.tokens k {}) (fun _ => rfl) n).trans (htok n k)
  · exact (keeps (fun c => c.tes.get {} (teKey p.2.1 p.2.2)) (fun _ => rfl) p.1).trans (hte p)

theorem sameButOwners_of_sameUnits {s u v t : State} (hu : SameUnits s u) (hf : u.focus = s.focus) (hm : SameMemory s u)
    (h : SameButOwners u v) (hfv : v.focus = u.focus) (ht : SameUnits v t) (hmt : SameMemory v t) : SameButOwners s t := by
  obtain ⟨h1, h2, h3, h4, h5, h6, h7⟩ := h
  obtain ⟨u1, u2, u3, u4⟩ := hu
  obtain ⟨t1, t2, t3, t4⟩ := ht
  rw [hf] at h1 h2 h3
  rw [hfv, hf] at t1
  refine ⟨fun n k hne => ?_, fun n hn => ?_, ?_, fun n k => ?_, fun p => ?_, fun a => ?_, ?_⟩
  · rw [t1 n k hne, h1 n k hne, u1 n k hne]
  · rw [t2, h2 n hn, u2]
  · rw [t2, h3, u2]
  · rw [t3, h4, u3]
  · rw [t4, h5, u4]
  · rw [hmt.1, h6, hm.1]
  · rw [hmt.2, h7, hm.2]

/-! ## How a word with commands ends -/

theorem cmds_moveOn (s : State) (r : Option (BitVec 5)) (c : Ctl) (own : Bool) (g : Nat) (pc : Word) (h : s.focus.slot < 4) :
    let t := s.moveOn r c own g pc
    t.cur.departing ++ t.cur.held = s.cur.departing ++ s.cur.held := by
  dsimp only
  rcases moveOn_cur_cases s r c own g pc h with e | e
  · rw [e]
    rfl
  · rw [e]
    simp [Thread.openRegion, Thread.advance]

/-- In supervisor state no word has a marker behind it. -/
theorem departing_moveOn_of_sup (s : State) (r : Option (BitVec 5)) (c : Ctl) (own : Bool) (g : Nat) (pc : Word)
    (h : s.focus.slot < 4) (hsup : s.cur.sup = true) : (s.moveOn r c own g pc).cur.departing = s.cur.departing := by
  have e := cur_modCur s (fun th => th.advance s.now (c.sc.toNat + g) (c.sc.toNat + Nat.min g 2) pc r) h
  have hs : (s.modCur fun th => th.advance s.now (c.sc.toNat + g) (c.sc.toNat + Nat.min g 2) pc r).cur.sup = true := by
    rw [e]
    exact hsup
  unfold State.moveOn
  simp only [hs, Bool.not_true, Bool.and_false, Bool.false_eq_true, if_false]
  rw [e]
  rfl

/-- In supervisor state no word has a marker in front of it. -/
theorem departing_atIssue_of_sup (s : State) (i : Instr) (c : Ctl) (h : s.focus.slot < 4) (hsup : s.cur.sup = true) :
    (s.atIssue i c).cur.departing = s.cur.departing := by
  have hb : (s.begin.count 0 (4 * s.focus.tile + s.focus.slot) 0).cur.sup = true :=
    (congrArg Specials.sup (begin_cur_specials s h)).trans hsup
  unfold State.atIssue State.enter
  simp only [hb, if_true]
  exact begin_keeps (·.departing) (fun _ => rfl) h


/-! ## A command without a reply -/

/-- What the issue of a command word that passes its checks does. -/
theorem commandBody_of_no_trap {u : State} {func : BitVec 7} {a b : BitVec 5} {o : Word × Word × Word}
    (ho : u.cur.operands a b 0#5 = o) (ht : u.commandTrap func o.1 o.2.1 = none) :
    commandBody func a b u = if u.cur.noRoom then .hold (u.latch o)
      else .done ((u.newCmd func o.1 o.2.1 none).2.hold (u.newCmd func o.1 o.2.1 none).1) := by
  unfold commandBody
  simp only [ho, ht]

/-- A command word that holds its thread leaves it waiting, its commands in their order. -/
theorem Beside.latched_cmds {s u : State} (b : Beside s u) (hs : s.focus.slot < 4) (o : Word × Word × Word) (own : Bool) :
    let t := (u.latch o).modCur fun th => { th with waiting := true, waitOwn := own }
    t.cur.departing ++ t.cur.held = u.cur.departing ++ u.cur.held := by
  have hl : (u.latch o).focus.slot < 4 := b.slot hs
  dsimp only
  rw [cur_modCur _ _ hl, latch_cur u o (b.slot hs)]

theorem cur_newCmd (s : State) (func : BitVec 7) (a b : Word) (r : Option (BitVec 5)) :
    (s.newCmd func a b r).2.cur = s.cur :=
  congrArg (fun c : Context => vget c.threads s.focus.slot {}) (ctx_newCmd s func a b r s.focus.tile)

theorem Beside.newCmd {s u : State} (b : Beside s u) (func : BitVec 7) (x y : Word) (r : Option (BitVec 5)) :
    Beside s (u.newCmd func x y r).2 := by
  have e := cur_newCmd u func x y r
  exact ⟨b.focus, b.mem, b.poison, sameUnits_trans b.units b.focus (sameUnits_of_ctx (ctx_newCmd u func x y r)),
    (congrArg Thread.regs e).trans b.regs, (congrArg Thread.preds e).trans b.preds, (congrArg Thread.pend e).trans b.pend⟩

theorem sameMemory_moveOn (s : State) (r : Option (BitVec 5)) (c : Ctl) (own : Bool) (g : Nat) (pc : Word) :
    SameMemory s (s.moveOn r c own g pc) :=
  ⟨fun n => by rw [moveOn_mem], moveOn_poison _ _ _ _ _ _⟩

/-- What a word whose effect is a command held leaves. -/
theorem heldCommand_spec {s v : State} (q : Cmd) (b : Beside s v) (hs : s.focus.slot < 4) (hpc : v.cur.pc = s.cur.pc)
    (hsp : SameSpecials s v) (i : Instr) (c : Ctl) (own : Bool) :
    let t := (Body.done (v.hold q)).finish i c own
    (s.cur.sup = false → t.cur.departing ++ t.cur.held = v.cur.departing ++ v.cur.held ++ [q]) ∧
      (s.cur.sup = true → t.cur.departing = v.cur.departing ++ [q]) ∧
      (t.ctx s.focus.tile).pool.owners = (s.ctx s.focus.tile).pool.owners ++ ownersOf q ∧ t.cur.pc = s.cur.pc + 4#64 ∧
      (∀ n r, t.cur.regAt n r = s.begin.cur.regAt n r) ∧ SamePreds s t ∧ SameSpecials s t ∧ SameButOwners s t := by
  intro t
  have hv := b.slot hs
  obtain ⟨hcur, howners, hsame⟩ := hold_spec v q hv
  obtain ⟨hr, hp, hq, hx, hpc', hsup, hgroup, hsuper⟩ := holding_values v.cur q
  have hfw : (v.hold q).focus = v.focus := rfl
  have hw : (v.hold q).focus.slot < 4 := hv
  have hvsup : v.cur.sup = s.cur.sup := congrArg Specials.sup hsp
  have hl : t.cur.lasting = (v.cur.holding q).lasting := (moveOn_lasting _ _ _ _ _ _ hw).trans (by rw [hcur])
  have hu : SameUnits (v.hold q) t := sameUnits_moveOn _ _ _ _ _ _
  have hm : SameMemory (v.hold q) t := sameMemory_moveOn _ _ _ _ _ _
  refine ⟨fun hg => ?_, fun hg => ?_, ?_, ?_, fun n r => ?_, fun n p => ?_, ?_, ?_⟩
  · rw [show t.cur.departing ++ t.cur.held = _ from cmds_moveOn _ _ _ _ _ _ hw, hcur]
    exact hgroup (hvsup.trans hg)
  · have hws : (v.hold q).cur.sup = true := by rw [hcur, hsup, hvsup, hg]
    rw [show t.cur.departing = _ from departing_moveOn_of_sup _ _ _ _ _ _ hw hws, hcur]
    exact hsuper (hvsup.trans hg)
  · rw [hu.2.1, ← b.focus, howners, b.units.2.1]
  · rw [show t.cur.pc = _ from moveOn_pc _ _ _ _ _ _ hw, hcur, hpc', hpc]
  · exact regAt_congr ((regs_of_lasting hl).trans (hr.trans b.regs)) ((pend_of_lasting hl).trans (hq.trans b.pend)) n r
  · exact predAt_congr ((preds_of_lasting hl).trans (hp.trans b.preds)) ((pend_of_lasting hl).trans (hq.trans b.pend)) n p
  · exact (specials_of_lasting hl).trans (hx.trans hsp)
  · exact sameButOwners_of_sameUnits b.units b.focus b.sameMemory hsame hfw hu hm

theorem commandsEnterTheirBuffer : CommandsEnterTheirBuffer := by
  intro i c func a b s hi h hroom x y ht
  have hs := slot_of_issues h
  have bs := Beside.atIssue i c hs
  have hpc := atIssue_pc s i c hs
  have hsp : SameSpecials s (s.atIssue i c) := atIssue_specials s i c hs
  have hcmds := cmds_atIssue s i c hs
  have hdep := departing_atIssue_of_sup s i c hs
  have hgid := atIssue_gid s i c hs
  have he := commandBody_of_no_trap (atIssue_operands a b 0#5 h) ht
  rw [exec_commandWord hi, issueCommand_of_room hroom, issueWord_of_issues _ h, he]
  generalize s.atIssue i c = u at *
  refine ⟨fun hfull => ⟨_, rfl, ?_⟩, fun hfree => ?_⟩
  · have hn : u.cur.noRoom = true := by simpa [Thread.noRoom] using hfull
    rw [if_pos hn]
    exact ⟨bs.latched_waits hs hpc hsp _ _, (bs.latched_cmds hs _ _).trans hcmds⟩
  · have hn : ¬(u.cur.noRoom = true) := by simpa [Thread.noRoom] using hfree
    have hcur := cur_newCmd u func x y none
    obtain ⟨hflow, hacct⟩ := ownersOf_spec (u.newCmd func x y none).1
    rw [if_neg hn]
    obtain ⟨h1, h2, h3, h4⟩ := heldCommand_spec (u.newCmd func x y none).1 (bs.newCmd func x y none) hs
      ((congrArg Thread.pc hcur).trans hpc) ((congrArg Thread.specials hcur).trans hsp) i c (s.begin.cur.ownRegion i c)
    rw [hcur] at h1 h2
    refine ⟨_, (u.newCmd func x y none).1, ownersOf (u.newCmd func x y none).1, rfl, rfl, rfl, rfl,
      congrArg Focus.slot bs.focus, hgid, rfl, rfl, rfl, fun hg => ?_, fun hg => ?_, h3, hflow, hacct, h4⟩
    · rw [h1 hg, hcmds]
    · rw [h2 hg, hdep hg]


/-! ## A command sent to its engine -/

/-- The record of a command that leaves its buffer (R220, R285, R312). -/
def Cmd.sent (s : State) (tile : Nat) (c : Cmd) : Cmd :=
  { c with left := (s.tile tile).nextLeft, since := s.now, copy := (s.thread tile c.slot).copy
           sieve := (s.thread tile c.slot).sieve
           aux := if c.func = 0x42#7 then (s.thread tile c.slot).nextSid else 0 }

/-- The state with a command that leaves counted, a CPSHAPE or GIDX in effect (R285, R406). -/
def State.described (s : State) (tile : Nat) (c : Cmd) : State :=
  (s.setThread tile c.slot ((s.thread tile c.slot).describe c)).modTile tile fun x => { x with nextLeft := x.nextLeft + 1 }

/-- A token as the command that produces it leaves its buffer (R275). -/
def TokenSlot.pendingFor (t : TokenSlot) (c : Cmd) : TokenSlot :=
  { t with state := .pending, cause := 0#6, func := c.func, prog := 0, frozen := false, owner := some c.id, poisoned := false }

/-- The state with the token that a command produces PENDING (R275). -/
def State.withPending (s : State) (tile : Nat) (c : Cmd) : State :=
  match produced c.b with
  | none => s
  | some k => s.modToken tile k fun t => t.pendingFor c

/-- The context with a command in its engine's queue (R277, R361). -/
def Context.enqueued (x : Context) (c : Cmd) : Context :=
  { x with cmds := x.cmds ++ [judgeAll x.tokens c], pool := { x.pool with owners := x.pool.owners.map (ownersLeft c) } }

/-- A command that is neither CPSHAPE nor GIDX and whose descriptor passes its checks stands in its engine's queue. -/
theorem depart_of_descriptorOk (s : State) (tile : Nat) (c : Cmd) (hf : State.depart.tokenlessFunc c.func = false)
    (hok : (Cmd.sent s tile c).descriptorOk = true) :
    s.depart tile c = ((s.described tile (Cmd.sent s tile c)).withPending tile (Cmd.sent s tile c)).modCtx tile
      fun x => x.enqueued (Cmd.sent s tile c) := by
  unfold State.depart
  extract_lets th c1 s1 s2
  have hf1 : State.depart.tokenlessFunc c1.func = false := hf
  have hok1 : c1.descriptorOk = true := hok
  rw [hf1, hok1]
  simp only [Bool.false_eq_true, if_false, Bool.not_true]
  have h2 : s2 = s1.withPending tile c1 := by
    unfold s2 State.withPending
    cases produced c1.b <;> rfl
  rw [h2]
  rfl

theorem judgeAll_eq (tokens : Vector TokenSlot 64) (c : Cmd) :
    ∃ m u, judgeAll tokens c = { c with satisfied := m, upstream := u } := by
  have step (c : Cmd) (j : Nat) : ∃ m u, judge tokens c j = { c with satisfied := m, upstream := u } := by
    unfold judge
    dsimp only
    split
    · exact ⟨_, _, rfl⟩
    · split
      · exact ⟨_, _, rfl⟩
      · split
        · exact ⟨_, _, rfl⟩
        · exact ⟨_, _, rfl⟩
  unfold judgeAll
  split
  · obtain ⟨m0, u0, h0⟩ := step c 0
    obtain ⟨m1, u1, h1⟩ := step (judge tokens c 0) 1
    obtain ⟨m2, u2, h2⟩ := step (judge tokens (judge tokens c 0) 1) 2
    exact ⟨m2, u2, by rw [h2, h1, h0]⟩
  · exact ⟨_, _, rfl⟩

/-! ## What a departure leaves -/

theorem vset_vget_self {α : Type} {n i : Nat} (v : Vector α n) (d : α) (h : i < n) : vset v i (vget v i d) = v := by
  have hg : vget v i d = v[i] := by simp [vget, h]
  rw [hg]
  ext j hj
  simp only [vset, Vector.getElem_setIfInBounds]
  split
  · next e => subst e; rfl
  · rfl

/-- The threads and everything of a context but its tokens, commands and owners, as the count of departures leaves them. -/
theorem ctx_described {s : State} {tile : Nat} {c : Cmd} (hd : (s.thread tile c.slot).describe c = s.thread tile c.slot)
    (h : c.slot < 4) (n : Nat) : (s.described tile c).ctx n = s.ctx n := by
  unfold State.described
  rw [hd]
  have hctx : ((s.setThread tile c.slot (s.thread tile c.slot)).modTile tile fun x =>
      { x with nextLeft := x.nextLeft + 1 }).ctx n = (s.setThread tile c.slot (s.thread tile c.slot)).ctx n := by
    by_cases hn : n = tile
    · subst hn
      unfold State.ctx
      rw [tile_modTile_same]
    · exact congrArg Tile.ctx (tile_modTile_ne _ _ hn)
  rw [hctx, ctx_setThread]
  split
  · next e =>
    rw [e]
    rw [State.thread, vset_vget_self _ _ h]
  · rfl

/-- The thread of a state with a token moved differs in its wait on a token alone (R277). -/
theorem thread_modToken_keeps {α : Type} (π : Thread → α) (hπ : ∀ th w, π { th with twait := w } = π th) (s : State)
    (tile k : Nat) (f : TokenSlot → TokenSlot) (n j : Nat) : π ((s.modToken tile k f).thread n j) = π (s.thread n j) := by
  unfold State.modToken State.thread
  by_cases hn : n = tile
  · rw [hn, ctx_modCtx_same]
    unfold Context.modToken vget
    dsimp only
    rw [Vector.getElem?_map]
    cases (s.ctx tile).threads[j]? with
    | none => rfl
    | some th => exact hπ _ _
  · rw [ctx_modCtx_ne s _ hn]

/-- What a command that stands in its engine's queue after it left its buffer has changed. -/
theorem depart_spec {s : State} {tile : Nat} {c : Cmd} (h : c.slot < 4) (hf : State.depart.tokenlessFunc c.func = false)
    (hok : (Cmd.sent s tile c).descriptorOk = true)
    (hd : (s.thread tile c.slot).describe (Cmd.sent s tile c) = s.thread tile c.slot) :
    let t := s.depart tile c
    (∀ {α : Type} (π : Thread → α), (∀ th w, π { th with twait := w } = π th) → ∀ n j, π (t.thread n j) = π (s.thread n j)) ∧
      TokenTurns s t tile c .pending ∧ (∀ p, t.teAt p = s.teAt p) ∧ SameMemory s t ∧ t.focus = s.focus ∧
      ∃ m u, { Cmd.sent s tile c with satisfied := m, upstream := u } ∈ (t.ctx tile).cmds := by
  intro t
  have ht : t = _ := depart_of_descriptorOk s tile c hf hok
  have hctx := ctx_described (s := s) (tile := tile) (c := Cmd.sent s tile c) hd h
  have hfoc : (s.described tile (Cmd.sent s tile c)).focus = s.focus := rfl
  have hmem : SameMemory s (s.described tile (Cmd.sent s tile c)) := ⟨fun _ => rfl, rfl⟩
  have hprod : produced (Cmd.sent s tile c).b = produced c.b := rfl
  generalize s.described tile (Cmd.sent s tile c) = v at *
  generalize Cmd.sent s tile c = q at *
  have hw : (∀ {α : Type} (π : Thread → α), (∀ th w, π { th with twait := w } = π th) →
      ∀ n j, π ((v.withPending tile q).thread n j) = π (s.thread n j)) ∧ TokenTurns s (v.withPending tile q) tile c .pending ∧
      (∀ p, (v.withPending tile q).teAt p = s.teAt p) ∧ SameMemory s (v.withPending tile q) ∧
      (v.withPending tile q).focus = s.focus := by
    have hth (n j : Nat) : v.thread n j = s.thread n j := congrArg (fun x : Context => vget x.threads j {}) (hctx n)
    have htok (n j : Nat) : v.token n j = s.token n j := congrArg (fun x : Context => vget x.tokens j {}) (hctx n)
    have hte (p : TeId) : v.teAt p = s.teAt p := congrArg (fun x : Context => x.tes.get {} (teKey p.2.1 p.2.2)) (hctx p.1)
    unfold State.withPending TokenTurns
    rw [hprod]
    cases hk : produced c.b with
    | none => exact ⟨fun π _ n j => congrArg π (hth n j), ⟨fun _ hk => (nomatch hk), fun n j _ => htok n j⟩, hte, hmem, hfoc⟩
    | some k =>
      refine ⟨fun π hπ n j => (thread_modToken_keeps π hπ v tile k _ n j).trans (congrArg π (hth n j)),
        ⟨fun j hj => ?_, fun n j hj => ?_⟩, fun p => ?_, hmem, hfoc⟩
      · cases hj
        dsimp only
        rw [token_modToken_same v tile _ (produced_lt hk)]
        exact ⟨rfl, rfl⟩
      · dsimp only
        rw [token_modToken_ne v _ (hj.imp_right fun e e' => e (by rw [e'])), htok]
      · exact ((CommandsOnly.modToken v tile k _).teAt p).trans (hte p)
  obtain ⟨wth, wtok, wte, wmem, wfoc⟩ := hw
  generalize v.withPending tile q = w at *
  have keeps {α : Type} (π : Context → α) (hπ : ∀ x : Context, π (x.enqueued q) = π x) (n : Nat) :
      π (t.ctx n) = π (w.ctx n) := by
    rw [ht]
    exact modCtx_keeps π hπ w tile n
  have htk (n j : Nat) : t.token n j = w.token n j := keeps (fun x => vget x.tokens j {}) (fun _ => rfl) n
  obtain ⟨m, u, hj⟩ := judgeAll_eq (w.ctx tile).tokens q
  refine ⟨fun π hπ n j => ?_, ⟨fun k hk => ?_, fun n k hk => ?_⟩, fun p => ?_, ?_, ?_, m, u, ?_⟩
  · exact (congrArg π (keeps (fun x => vget x.threads j {}) (fun _ => rfl) n)).trans (wth π hπ n j)
  · rw [htk]
    exact wtok.1 k hk
  · rw [htk]
    exact wtok.2 n k hk
  · exact (keeps (fun x => x.tes.get {} (teKey p.2.1 p.2.2)) (fun _ => rfl) p.1).trans (wte p)
  · rw [ht]
    exact wmem
  · rw [ht]
    exact wfoc
  · rw [ht, ctx_modCtx_same, ← hj]
    exact List.mem_append_right _ (List.mem_singleton_self _)


/-! ## A command with a reply -/

/-- What depends on no thread, the step to the next word leaves. -/
theorem ctx_moveOn_keeps {α : Type} (π : Context → α)
    (hπ : ∀ (c : Context) (l : Vector Thread 4), π { c with threads := l } = π c) (s : State) (r : Option (BitVec 5)) (c : Ctl)
    (own : Bool) (g : Nat) (pc : Word) (n : Nat) : π ((s.moveOn r c own g pc).ctx n) = π (s.ctx n) := by
  have hset (u : State) (k j : Nat) (th : Thread) : π ((u.setThread k j th).ctx n) = π (u.ctx n) :=
    modCtx_keeps π (fun c => hπ c _) u k n
  unfold State.moveOn
  dsimp only
  split
  · exact (hset _ _ _ _).trans (hset _ _ _ _)
  · exact hset _ _ _ _

/-- A command with a reply is neither a descriptor word nor one whose descriptor is checked. -/
theorem replyWord_plain {i : Instr} {c : Ctl} {func : BitVec 7} {d a b : BitVec 5} (h : ReplyWord i c func d a b) :
    State.depart.tokenlessFunc func = false ∧
      ∀ q : Cmd, q.func = func → q.descriptorOk = true ∧ ∀ th : Thread, th.describe q = th := by
  have plain (f : BitVec 7) (h1 : f ≠ 0x20#7 ∧ f ≠ 0x28#7) (h2 : f ≠ 0x21#7 ∧ f ≠ 0x22#7 ∧ f ≠ 0x23#7)
      (h3 : f ≠ 0x29#7 ∧ f ≠ 0x2A#7) : State.depart.tokenlessFunc f = false ∧
        ∀ q : Cmd, q.func = f → q.descriptorOk = true ∧ ∀ th : Thread, th.describe q = th := by
    refine ⟨by simp [State.depart.tokenlessFunc, h1], fun q hq => ⟨?_, fun th => ?_⟩⟩
    · simp [Cmd.descriptorOk, hq, h2, h3]
    · simp [Thread.describe, hq, h1]
  cases h with
  | pstat => exact plain _ (by decide) (by decide) (by decide)
  | fget => exact plain _ (by decide) (by decide) (by decide)
  | fstat => exact plain _ (by decide) (by decide) (by decide)
  | tquery => exact plain _ (by decide) (by decide) (by decide)

/-- The command that a word with a reply sends, and its thread's wait for the reply (R47). -/
def replyCmd (u : State) (func : BitVec 7) (x y : Word) (d : BitVec 5) : Cmd := (u.newCmd func x y (some d)).1

def State.awaitingReply (u : State) (func : BitVec 7) (x y : Word) (d : BitVec 5) : State :=
  (u.newCmd func x y (some d)).2.modCur fun th => th.await { id := 0, dst := d, src := .reply (replyCmd u func x y d).id }

/-- What the issue of a word with a reply that passes its checks does. -/
theorem replyBody_of_no_trap {u : State} {func : BitVec 7} {d a b : BitVec 5} {o : Word × Word × Word}
    (ho : u.cur.operands a b 0#5 = o) (ht : u.commandTrap func o.1 o.2.1 = none) :
    replyBody func d a b u = if !u.cur.departing.isEmpty then .hold (u.latch o)
      else .done ((u.awaitingReply func o.1 o.2.1 d).depart u.focus.tile (replyCmd u func o.1 o.2.1 d)) := by
  unfold replyBody
  simp only [ho, ht, ite_self]
  rfl

/-- What a word whose effect is a command sent leaves. -/
theorem sentCommand_spec {s v : State} {q : Cmd} (b : Beside s v) (hs : s.focus.slot < 4) (hpc : v.cur.pc = s.cur.pc)
    (hsp : SameSpecials s v) (hslot : q.slot < 4) (hf : State.depart.tokenlessFunc q.func = false)
    (hplain : ∀ x : Cmd, x.func = q.func → x.descriptorOk = true ∧ ∀ th : Thread, th.describe x = th)
    (i : Instr) (c : Ctl) (own : Bool) :
    let t := (Body.done (v.depart s.focus.tile q)).finish i c own
    (∃ m u, { Cmd.sent v s.focus.tile q with satisfied := m, upstream := u } ∈ (t.ctx s.focus.tile).cmds) ∧
      t.cur.outstanding = v.cur.outstanding ∧ TokenTurns s t s.focus.tile q .pending ∧ t.cur.pc = s.cur.pc + 4#64 ∧
      (∀ n r, t.cur.regAt n r = s.begin.cur.regAt n r) ∧ SamePreds s t ∧ SameSpecials s t ∧ (∀ p, t.teAt p = s.teAt p) ∧
      SameMemory s t := by
  intro t
  obtain ⟨hok, hd⟩ := hplain (Cmd.sent v s.focus.tile q) rfl
  obtain ⟨hth, htok, hte, hmem, hfoc, m, u, hcmd⟩ := depart_spec hslot hf hok (hd _)
  have ht : t = (v.depart s.focus.tile q).moveOn (setTarget i) c own 1 ((v.depart s.focus.tile q).cur.pc + 4#64) := rfl
  generalize v.depart s.focus.tile q = w at *
  have hws : w.focus.slot < 4 := by rw [hfoc]; exact b.slot hs
  have hcur {α : Type} (π : Thread → α) (hπ : ∀ th x, π { th with twait := x } = π th) : π w.cur = π v.cur := by
    unfold State.cur
    rw [hfoc]
    exact hth π hπ _ _
  have hl : t.cur.lasting = w.cur.lasting := by rw [ht]; exact moveOn_lasting _ _ _ _ _ _ hws
  have hut : SameUnits w t := by rw [ht]; exact sameUnits_moveOn _ _ _ _ _ _
  have hmt : SameMemory w t := by rw [ht]; exact sameMemory_moveOn _ _ _ _ _ _
  have hr := (regs_of_lasting hl).trans ((hcur (·.regs) fun _ _ => rfl).trans b.regs)
  have hp := (preds_of_lasting hl).trans ((hcur (·.preds) fun _ _ => rfl).trans b.preds)
  have hq := (pend_of_lasting hl).trans ((hcur (·.pend) fun _ _ => rfl).trans b.pend)
  refine ⟨⟨m, u, ?_⟩, (outstanding_of_lasting hl).trans (hcur (·.outstanding) fun _ _ => rfl), ⟨fun k hk => ?_, fun n k hk => ?_⟩,
    ?_, regAt_congr hr hq, predAt_congr hp hq, (specials_of_lasting hl).trans ((hcur (·.specials) fun _ _ => rfl).trans hsp),
    fun p => ?_, fun n => ?_, ?_⟩
  · rw [ht, ctx_moveOn_keeps (·.cmds) fun _ _ => rfl]
    exact hcmd
  · rw [hut.2.2.1]
    exact htok.1 k hk
  · rw [hut.2.2.1, htok.2 n k hk, b.units.2.2.1]
  · rw [ht, moveOn_pc _ _ _ _ _ _ hws, hcur (·.pc) fun _ _ => rfl, hpc]
  · rw [hut.2.2.2, hte, b.units.2.2.2]
  · rw [hmt.1, hmem.1, b.mem]
  · rw [hmt.2, hmem.2, b.poison]

theorem awaitingReply_cur {u : State} (func : BitVec 7) (x y : Word) (d : BitVec 5) (h : u.focus.slot < 4) :
    (u.awaitingReply func x y d).cur = u.cur.await { id := 0, dst := d, src := .reply (replyCmd u func x y d).id } := by
  unfold State.awaitingReply
  rw [cur_modCur (u.newCmd func x y (some d)).2 _ h, cur_newCmd]

theorem commandsWithReplyAwaitIt : CommandsWithReplyAwaitIt := by
  intro i c func d a b s hi h x y ht
  have hs := slot_of_issues h
  have bs := Beside.atIssue i c hs
  have hpc := atIssue_pc s i c hs
  have hsp : SameSpecials s (s.atIssue i c) := atIssue_specials s i c hs
  have hgid := atIssue_gid s i c hs
  have hout := atIssue_outstanding s i c hs
  have he := replyBody_of_no_trap (d := d) (atIssue_operands a b 0#5 h) ht
  rw [exec_replyWord hi, issueWord_of_issues _ h, he]
  generalize s.atIssue i c = u at *
  obtain ⟨hf, hplain⟩ := replyWord_plain hi
  refine ⟨fun hnone => ?_, fun hsome => ⟨_, rfl, ?_⟩⟩
  · have hcur := awaitingReply_cur func x y d (bs.slot hs)
    have bv : Beside s (u.awaitingReply func x y d) := (bs.newCmd func x y (some d)).modCur hs _ rfl rfl rfl
    obtain ⟨⟨m, w, hcmd⟩, ho, htok, hrest⟩ := sentCommand_spec (q := replyCmd u func x y d) bv hs
      ((congrArg Thread.pc hcur).trans hpc) ((congrArg Thread.specials hcur).trans hsp) (bs.slot hs) hf hplain i c
      (s.begin.cur.ownRegion i c)
    rw [hcur, Thread.await, hout] at ho
    have hn : ¬((!u.cur.departing.isEmpty) = true) := by simp [hnone]
    rw [if_neg hn, bs.focus]
    exact ⟨_, _, _, rfl, hcmd, rfl, rfl, rfl, congrArg Focus.slot bs.focus, hgid, rfl, rfl, ho, rfl, rfl, htok, hrest⟩
  · have hn : (!u.cur.departing.isEmpty) = true := by simpa using hsome
    rw [if_pos hn]
    exact bs.latched_waits hs hpc hsp _ _

/-- Settles O37: a command held changes its thread's buffer and the pool's owners alone, and one with a reply is sent as a
command leaves its buffer. -/
theorem commandsEnterTheirBufferOrWait : Obligations.CommandsEnterTheirBufferOrWait :=
  ⟨commandsEnterTheirBuffer, commandsWithReplyAwaitIt⟩

end Sys2Proof.Machine
end

section
/-! SUPPORT. Operations that leave every thread's course: what the engines, the fabric, the chains and the log change of
neither the threads' control state, nor the groups, nor the sequencers. -/

namespace Sys2Proof.Machine

open Sys2Proof.Claims

/-! ## The relations -/

/-- The thread without what results, replies and the units post to it: its values, its outstanding results, its flags and its
wait on a token. -/
def Thread.control (th : Thread) : Thread := { th.sansValues with outstanding := [], flags := 0#8, twait := none }

/-- The partition without its event ring. -/
def Partition.sansRing (p : Partition) : Partition := { p with ring := {} }

/-- Every thread is where it was with the region that it had, every tile that ran runs, and the partitions differ in their
event rings alone. -/
structure SameCourse (s t : State) : Prop where
  stopped : ∀ n, (t.tile n).stopped = (s.tile n).stopped
  threads : ∀ n k, (t.thread n k).control = (s.thread n k).control
  parts : t.parts.map Partition.sansRing = s.parts.map Partition.sansRing

/-- The groups and the sequencers stand as before, and so do the images, but for what they hold. -/
structure SameBooks (s t : State) : Prop where
  groups : t.groups = s.groups
  seqs : t.seqs = s.seqs
  images : t.images.map (fun m => (m.id, m.gid)) = s.images.map fun m => (m.id, m.gid)

/-- Nothing that decides what runs has changed. -/
structure Calm (s t : State) : Prop extends SameCourse s t, SameBooks s t

namespace SameCourse

variable {s t u : State}

theorem refl (s : State) : SameCourse s s := ⟨fun _ => rfl, fun _ _ => rfl, rfl⟩

theorem trans (h : SameCourse s t) (k : SameCourse t u) : SameCourse s u :=
  ⟨fun n => (k.stopped n).trans (h.stopped n), fun n j => (k.threads n j).trans (h.threads n j), k.parts.trans h.parts⟩

theorem of_tiles (ht : t.tiles = s.tiles) (hp : t.parts = s.parts) : SameCourse s t := by
  have htile (n : Nat) : t.tile n = s.tile n := by
    unfold State.tile
    rw [ht]
  exact ⟨fun n => by rw [htile], fun n k => by unfold State.thread State.ctx; rw [htile], by rw [hp]⟩

theorem modTile (s : State) (n : Nat) (f : Tile → Tile) (hs : (f (s.tile n)).stopped = (s.tile n).stopped)
    (ht : ∀ k, (vget (f (s.tile n)).ctx.threads k {}).control = (s.thread n k).control) : SameCourse s (s.modTile n f) := by
  refine ⟨fun m => ?_, fun m k => ?_, rfl⟩
  · by_cases hm : m = n
    · rw [hm, tile_modTile_same, hs]
    · rw [tile_modTile_ne s _ hm]
  · unfold State.thread State.ctx
    by_cases hm : m = n
    · rw [hm, tile_modTile_same]
      exact ht k
    · rw [tile_modTile_ne s _ hm]

theorem foldl {α : Type} (f : State → α → State) (hf : ∀ s a, SameCourse s (f s a)) :
    ∀ (l : List α) (s : State), SameCourse s (l.foldl f s)
  | [], s => refl s
  | a :: l, s => (hf s a).trans (foldl f hf l _)

end SameCourse

namespace SameBooks

variable {s t u : State}

theorem refl (s : State) : SameBooks s s := ⟨rfl, rfl, rfl⟩

theorem trans (h : SameBooks s t) (k : SameBooks t u) : SameBooks s u :=
  ⟨k.groups.trans h.groups, k.seqs.trans h.seqs, k.images.trans h.images⟩

theorem of_eq (hg : t.groups = s.groups) (hq : t.seqs = s.seqs) (hi : t.images = s.images) : SameBooks s t :=
  ⟨hg, hq, by rw [hi]⟩

theorem foldl {α : Type} (f : State → α → State) (hf : ∀ s a, SameBooks s (f s a)) :
    ∀ (l : List α) (s : State), SameBooks s (l.foldl f s)
  | [], s => refl s
  | a :: l, s => (hf s a).trans (foldl f hf l _)

end SameBooks

namespace Calm

variable {s t u : State}

theorem refl (s : State) : Calm s s := ⟨.refl s, .refl s⟩

theorem trans (h : Calm s t) (k : Calm t u) : Calm s u :=
  ⟨h.toSameCourse.trans k.toSameCourse, h.toSameBooks.trans k.toSameBooks⟩

theorem foldl {α : Type} (f : State → α → State) (hf : ∀ s a, Calm s (f s a)) :
    ∀ (l : List α) (s : State), Calm s (l.foldl f s)
  | [], s => refl s
  | a :: l, s => (hf s a).trans (foldl f hf l _)

/-- A change of memory, of the package, of the switches or of the slices' homes. -/
theorem of_eq (ht : t.tiles = s.tiles) (hp : t.parts = s.parts) (hg : t.groups = s.groups) (hq : t.seqs = s.seqs)
    (hi : t.images = s.images) : Calm s t := ⟨.of_tiles ht hp, .of_eq hg hq hi⟩

theorem modPkg (s : State) (f : Package → Package) : Calm s (s.modPkg f) := of_eq rfl rfl rfl rfl rfl

theorem withMem (s : State) (m : Memory) : Calm s { s with mem := m } := of_eq rfl rfl rfl rfl rfl

theorem draw (s : State) : Calm s s.draw.2 := of_eq rfl rfl rfl rfl rfl

theorem count (s : State) (u i c : Nat) : Calm s (s.count u i c) := of_eq rfl rfl rfl rfl rfl

theorem enterAt (s : State) (level unit port : Nat) (p : Packet) : Calm s (s.enterAt level unit port p) :=
  of_eq rfl rfl rfl rfl rfl

theorem modTile (s : State) (n : Nat) (f : Tile → Tile) (hs : (f (s.tile n)).stopped = (s.tile n).stopped := by rfl)
    (ht : ∀ k, (vget (f (s.tile n)).ctx.threads k {}).control = (s.thread n k).control := by intro; rfl) :
    Calm s (s.modTile n f) :=
  ⟨.modTile s n f hs ht, .of_eq rfl rfl rfl⟩

theorem modCtx (s : State) (n : Nat) (f : Context → Context) (h : ∀ c, (f c).threads = c.threads := by intro; rfl) :
    Calm s (s.modCtx n f) :=
  modTile s n (fun x => { x with ctx := f x.ctx }) rfl fun k => congrArg (fun l => (vget l k {}).control) (h _)

theorem setThread (s : State) (n k : Nat) (th : Thread) (h : th.control = (s.thread n k).control) :
    Calm s (s.setThread n k th) := by
  refine modTile s n (fun x => { x with ctx := { x.ctx with threads := vset x.ctx.threads k th } }) rfl fun j => ?_
  by_cases hj : j = k
  · subst hj
    by_cases h4 : j < 4
    · exact (congrArg Thread.control (vget_vset_same _ _ _ h4)).trans h
    · have hv : vset (s.ctx n).threads j th = (s.ctx n).threads := by
        unfold vset
        rw [Vector.setIfInBounds_eq_of_size_le (by omega)]
      exact congrArg (fun l => (vget l j {}).control) hv
  · exact congrArg Thread.control (vget_vset_ne _ _ _ hj)

theorem modImage (s : State) (i : Nat) (f : Image → Image)
    (h : ∀ m, (f m).id = m.id ∧ (f m).gid = m.gid := by intro; exact ⟨rfl, rfl⟩) :
    Calm s (s.modImage i f) := by
  refine ⟨.of_tiles rfl rfl, rfl, rfl, ?_⟩
  unfold State.modImage
  rw [List.map_map]
  refine List.map_congr_left fun m _ => ?_
  dsimp only [Function.comp]
  split
  · rw [(h m).1, (h m).2]
  · rfl

theorem modPartRing (s : State) (p : Nat) (r : Ring) : Calm s (s.modPart p fun x => { x with ring := r }) := by
  refine ⟨⟨fun _ => rfl, fun _ _ => rfl, ?_⟩, .of_eq rfl rfl rfl⟩
  unfold State.modPart
  rw [List.map_map]
  refine List.map_congr_left fun q _ => ?_
  dsimp only [Function.comp]
  split <;> rfl

/-! ## The log, memory and the banks -/

theorem log (s : State) (e : Event) : Calm s (s.log e) := by
  unfold State.log
  extract_lets d count bs
  split
  extract_lets s1
  have h1 : Calm s s1 := (withMem s _).trans (modPkg _ _)
  split
  · exact h1
  · split
    exact (h1.trans (withMem s1 _)).trans (modPartRing _ _ _)

theorem logTe (s : State) (p : TeId) (cause src slot addr aux : Nat) : Calm s (s.logTe p cause src slot addr aux) := log s _

theorem engineLog (s : State) (tile : Nat) (c : Cmd) (code addr : Nat) : Calm s (s.engineLog tile c code addr) := log s _

theorem farRecord (s : State) (w : FarWrite) (cause aux : Nat) : Calm s (s.farRecord w cause aux) := by
  unfold State.farRecord
  exact log s _

theorem gatewayRecord (s : State) (tile block slot gid : Nat) (va : Word) : Calm s (s.gatewayRecord tile block slot gid va) :=
  log s _

theorem storeBytes (tile gid : Nat) (space : Space) : ∀ (l : List Byte) (place : Nat) (s : State),
    Calm s (s.storeBytes tile gid space place l)
  | [], _, s => refl s
  | _ :: l, place, s => (withMem s _).trans (storeBytes tile gid space l (place + 1) _)

theorem strikeFar (s : State) (die loc n : Nat) : Calm s (s.strikeFar die loc n) := by
  unfold State.strikeFar
  split
  · exact refl s
  · exact modPkg s _

theorem writeOver (s : State) (tile gid : Nat) (space : Space) (place : Nat) (bs : List Byte) :
    Calm s (s.writeOver tile gid space place bs) := by
  unfold State.writeOver
  split
  · exact (strikeFar s _ _ _).trans (storeBytes tile gid space bs place _)
  · exact storeBytes tile gid space bs place s

theorem launchFar (s : State) (w : FarWrite) : Calm s (s.launchFar w) := of_eq rfl rfl rfl rfl rfl

theorem sendFar (s : State) (tile gid : Nat) (maker : FarMaker) (space : Space) (place : Nat) (va : Word) (wide : Bool)
    (bs : List Byte) (pos : Nat) : Calm s (s.sendFar tile gid maker space place va wide bs pos) := by
  unfold State.sendFar
  refine trans ?_ (launchFar _ _)
  split
  · exact storeBytes tile gid .h bs place s
  · exact refl s

theorem takeBank (s : State) (b : Option Nat) (gid from_ : Nat) : Calm s (s.takeBank b gid from_).2 := by
  unfold State.takeBank
  split
  · exact refl s
  · dsimp only
    exact modPkg s _

theorem noteRead (s : State) (tile place n : Nat) : Calm s (s.noteRead tile place n) := by
  unfold State.noteRead
  split
  · exact refl s
  · exact modPkg s _

theorem present (s : State) (n : Nat) (p : Packet) : Calm s (s.present n p) := modTile s n _

theorem send (s : State) (tile slot : Nat) (space : Space) (place : Nat) (load : Payload) :
    Calm s (s.send tile slot space place load) := by
  unfold State.send
  split
  · exact refl s
  · exact present s _ _

/-- A store or atomic of a thread that is performed changes memory alone (R96). -/
theorem perform (s : State) (tile slot gid : Nat) (b : Buffered) : Calm s (s.perform tile slot gid b) := by
  unfold State.perform
  split
  · exact gatewayRecord s _ _ _ _ _
  · split
    · exact log s _
    · split
      · exact log s _
      · split
        · exact writeOver s _ _ _ _ _
        · exact writeOver s _ _ _ _ _

theorem performAll (tile slot gid : Nat) : ∀ (l : List InFlight) (s : State), Calm s (s.performAll tile slot gid l)
  | [], s => refl s
  | f :: l, s => by
    unfold State.performAll
    refine trans ?_ (performAll tile slot gid l _)
    split
    · exact refl s
    · exact perform s _ _ _ _

theorem giveUp (s : State) (tile slot : Nat) (held : List Cmd) : Calm s (s.giveUp tile slot held) :=
  modCtx s tile _

/-! ## The fabric -/

theorem modTe (s : State) (n c r : Nat) (f : TE → TE) : Calm s (s.modTe n c r f) := by
  unfold State.modTe State.setTe
  exact modCtx s n _

theorem modTeAt (s : State) (p : TeId) (f : TE → TE) : Calm s (s.modTeAt p f) := modTe s _ _ _ f

theorem enqueue (s : State) (p : TeId) (ch : Nat) (x : Token) : Calm s (s.enqueue p ch x) := modTeAt s p _

theorem modHomeOf (s : State) (m : Image) (f : Home → Home) : Calm s (s.modHomeOf m f) := by
  unfold State.modHomeOf State.modHome
  split
  · exact modCtx s _ _
  · exact of_eq rfl rfl rfl rfl rfl

theorem mapReplies (s : State) (img : Nat) (b : Bool) (f : Payload → Payload) : Calm s (s.mapReplies img b f) :=
  of_eq rfl rfl rfl rfl rfl

theorem returnSlot (s : State) (p : TeId) (ch : Nat) : Calm s (s.returnSlot p ch) := by
  unfold State.returnSlot
  split
  · exact refl s
  · split
    · exact refl s
    · exact modTeAt s _ _

theorem returnSlots (p : TeId) (ch : Nat) : ∀ (n : Nat) (s : State), Calm s (s.returnSlots p ch n)
  | 0, s => refl s
  | n + 1, s => (returnSlot s p ch).trans (returnSlots p ch n _)

theorem dropTokens (s : State) (p : TeId) (img : Nat) : Calm s (s.dropTokens p img) := by
  unfold State.dropTokens
  exact foldl _ (fun a ch => (modTeAt a p _).trans (returnSlots p ch _ _)) _ s

theorem restoreTe (s : State) (m : Image) (p : TeId) : Calm s (s.restoreTe m p) := by
  unfold State.restoreTe
  exact ((dropTokens s p m.id).trans (modTeAt _ p _)).trans (modCtx _ p.1 _)

theorem undo (s : State) (m : Image) : Calm s (s.undo m) := by
  have h1 : Calm s (m.tes.foldl (fun a p => a.restoreTe m p) s) := foldl _ (fun a p => restoreTe a m p) m.tes s
  have h2 (v : State) : Calm v (v.dropElsewhere m) := foldl _ (fun a p => dropTokens a p m.id) _ v
  have h3 (v : State) : Calm v (v.dropControl m) := foldl _ (fun a x => modTe a _ _ _ _) _ v
  unfold State.undo
  exact ((((h1.trans (h2 _)).trans (h3 _)).trans (mapReplies _ _ _ _)).trans (modHomeOf _ m _)).trans
    (modImage _ _ _)

theorem endDomain (s : State) (m : Image) : Calm s (s.endDomain m) := by
  unfold State.endDomain
  extract_lets open_ s0 s1
  have h0 : Calm s s0 := foldl _ (fun a p => modTeAt a p _) m.tes s
  have h1 : Calm s0 s1 := (mapReplies s0 m.id false fun _ => .plain).trans (foldl _ (fun a (x : Entry) => modTeAt a x.te _) _ _)
  exact ((h0.trans h1).trans (modHomeOf s1 m _)).trans (modImage _ _ _)

theorem stopTes (s : State) (m : Image) : Calm s (s.stopTes m) :=
  (foldl _ (fun a p => modTeAt a p _) m.tes s).trans (modImage _ _ _)

/-! ## Discards of instances -/

theorem snapshotStop (s : State) (m : Image) : Calm s (s.snapshotStop m) := by
  unfold State.snapshotStop
  split
  · exact refl s
  · exact ((stopTes s m).trans (foldl _ (fun a p => logTe a p _ _ _ _ _) _ _)).trans (modImage _ _ _)

theorem combineDiscard (s : State) (m : Image) (d : Discard) : Calm s (s.combineDiscard m d) := by
  unfold State.combineDiscard
  extract_lets s1
  have h1 : Calm s s1 := modImage s m.id _
  split
  · exact h1.trans (stopTes _ m)
  · exact h1

theorem stopOnly (s : State) (m : Image) (d : Discard) : Calm s (s.stopOnly m d) := by
  unfold State.stopOnly
  split
  · split
    · exact modImage s _ _
    · exact refl s
  · split
    · exact combineDiscard s m d
    · split
      · exact stopTes s m
      · exact refl s

theorem discardCode (s : State) (d : Discard) : Calm s (s.discardCode d).2 := by
  unfold State.discardCode
  split
  · exact refl s
  · exact of_eq rfl rfl rfl rfl rfl

theorem discardInstance (s : State) (img : Nat) (d : Discard) : Calm s (s.discardInstance img d) := by
  unfold State.discardInstance
  split
  · exact refl s
  · next m _ =>
    split
    · exact stopOnly s m d
    · extract_lets s1 n limit stops s2 s3
      have h2 : Calm s s2 := (undo s m).trans (modImage _ _ _)
      have h3 : Calm s2 s3 := by
        refine trans ?_ (snapshotStop _ m)
        split
        · exact stopTes s2 m
        · exact refl s2
      split
      · split
        next code s4 e =>
        have h4 : Calm s3 s4 := by
          have := discardCode s3 d
          rw [e] at this
          exact this
        exact ((h2.trans h3).trans h4).trans (log s4 _)
      · exact h2.trans h3

theorem stopImage (s : State) (m : Image) : Calm s (s.stopImage m) := discardInstance s m.id _

/-! ## The chains and the commits of instances -/

theorem answer (s : State) (m : Image) (p : TeId) (v : W32) (tag : BitVec 2) (region : Option Nat) :
    Calm s (s.answer m p v tag region) := by
  unfold State.answer
  dsimp only
  split
  · exact (modTeAt s p _).trans (enqueue _ p 4 _)
  · exact enterAt s _ _ _ _

theorem unanswered (s : State) (p : TeId) (a : FarAmo) : Calm s (s.unanswered p a) := by
  unfold State.unanswered
  split
  · exact modTeAt s p _
  · exact refl s

theorem chainLost (s : State) (m : Image) (x : Entry) : Calm s (s.chainLost m x) := by
  have h1 := (farRecord s (m.farWrite x) 0x13
    (planeOf (m.farWrite x).tile (m.farWrite x).space (m.farWrite x).place)).trans (unanswered _ x.te x.req.atomic)
  unfold State.chainLost
  dsimp only
  split
  · exact h1.trans (stopImage _ m)
  · exact h1

theorem sendOld (s : State) (m : Image) (p : TeId) (a : FarAmo) (v : W32) : Calm s (s.sendOld m p a v) := by
  unfold State.sendOld
  split
  · exact refl s
  · split
    · exact modImage s _ _
    · exact answer s m p v _ _

theorem performStc (s : State) (m : Image) (x : Entry) : Calm s (s.performStc m x) := by
  unfold State.performStc
  dsimp only
  split
  · exact logTe s _ _ _ _ _ _
  · split
    · exact chainLost s m x
    · split
      · exact sendFar s _ _ _ _ _ _ _ _ _
      · exact writeOver s _ _ _ _ _

theorem performAmoc (s : State) (m : Image) (x : Entry) : Calm s (s.performAmoc m x) := by
  unfold State.performAmoc
  dsimp only
  split
  · exact ((stopImage s m).trans (logTe _ _ _ _ _ _ _)).trans (unanswered _ _ _)
  · split
    · exact chainLost s m x
    · split
      · exact launchFar s _
      · exact (writeOver s _ _ _ _ _).trans (sendOld _ m _ _ _)

theorem performChain (s : State) (m : Image) (x : Entry) : Calm s (s.performChain m x) := by
  unfold State.performChain
  split
  · exact performStc s m x
  · exact performAmoc s m x

theorem chainTurn (s : State) (m : Image) (x : Entry) : Calm s (s.chainTurn m x).2 := by
  unfold State.chainTurn
  split
  · exact refl s
  · extract_lets b
    have hb : Calm s b.2 := takeBank s _ _ _
    split
    · exact hb
    · dsimp only
      exact hb.trans (modHomeOf b.2 m _)

theorem performHeld (m : Image) : ∀ (n : Nat) (ls : List (List Entry)) (s : State), Calm s (s.performHeld m n ls)
  | 0, _, s => refl s
  | n + 1, ls, s => by
    unfold State.performHeld
    extract_lets live k
    split
    · next x xs _ =>
      have hw : Calm s (s.draw.2.chainTurn m x).2 := (draw s).trans (chainTurn _ m x)
      dsimp only
      split
      · exact ((hw.trans (modHomeOf _ m _)).trans (performChain _ m x)).trans (performHeld m n _ _)
      · exact hw.trans (performHeld m n _ _)
    · exact refl s

theorem performCommit (s : State) (m : Image) : Calm s (s.performCommit m) :=
  (modImage s m.id _).trans (performHeld m _ _ _)

theorem commitTe (s : State) (p : TeId) : Calm s (s.commitTe p) :=
  (modTeAt s p _).trans (foldl _ (fun a ch => returnSlots p ch _ a) _ _)

theorem endCommit (s : State) (m : Image) : Calm s (s.endCommit m) := by
  unfold State.endCommit
  extract_lets s1 s2 s3 s4
  have h1 : Calm s s1 := foldl _ (fun a (x : Nat × CtlToken) => modCtx a x.1 _) _ s
  have h2 : Calm s1 s2 := foldl _ (fun a p => commitTe a p) _ s1
  have h3 : Calm s2 s3 := (((foldl _ (fun a p => modTeAt a p _) _ s2).trans (mapReplies _ _ _ _)).trans
    (modHomeOf _ m _)).trans (modImage _ _ _)
  have h4 : Calm s3 s4 := foldl _ (fun a (x : TeId × W32) => answer a m x.1 x.2 _ _) _ s3
  have h := ((h1.trans h2).trans h3).trans h4
  split
  · exact h.trans (stopTes s4 m)
  · exact h

theorem commitInstance (s : State) (img : Nat) : Calm s (s.commitInstance img) := by
  unfold State.commitInstance
  split
  · exact refl s
  · next m _ =>
    split
    · exact refl s
    · dsimp only
      have h1 := performCommit s m
      split
      · split
        · exact h1
        · exact h1.trans (endCommit _ _)
      · exact h1

/-! ## Tokens and commands -/

theorem settle_control (th : Thread) (n : Nat) : (th.settle n).control = th.control := by
  have h : (th.settle n).sansValues = th.sansValues := landAll_sansValues (th.pend.filter fun p => decide (p.due < n)) th
  unfold Thread.control
  rw [h]

theorem setReg_control (th : Thread) (r : BitVec 5) (v : Word) : (th.setReg r v).control = th.control := by
  unfold Thread.setReg
  split <;> rfl

theorem modToken (s : State) (n k : Nat) (f : TokenSlot → TokenSlot) : Calm s (s.modToken n k f) := by
  refine modTile s n (fun x => { x with ctx := x.ctx.modToken k f }) rfl fun j => ?_
  have h := thread_modToken_keeps Thread.control (fun _ _ => rfl) s n k f n j
  unfold State.modToken State.thread at h
  rw [ctx_modCtx_same] at h
  exact h

theorem modCmd (s : State) (n id : Nat) (f : Cmd → Cmd) : Calm s (s.modCmd n id f) := modCtx s n _

theorem postFlags (s : State) (n slot gid : Nat) (f : BitVec 8) : Calm s (s.postFlags n slot gid f) := by
  unfold State.postFlags
  dsimp only
  split
  · exact setThread s n slot _ rfl
  · exact refl s

theorem replyTo (s : State) (n : Nat) (c : Cmd) (v : Word) : Calm s (s.replyTo n c v) := by
  unfold State.replyTo
  split
  · exact refl s
  · next r _ =>
    dsimp only
    split
    · refine setThread s n c.slot _ ?_
      exact (setReg_control ((s.thread n c.slot).settle s.now) r v).trans (settle_control _ _)
    · exact refl s

theorem moveToken (s : State) (n : Nat) (c : Cmd) (st : TokState) (cause : BitVec 6) :
    Calm s (s.moveToken n c st cause) := by
  unfold State.moveToken
  split
  · exact refl s
  · exact modToken s n _ _

theorem endCmd (s : State) (n : Nat) (c : Cmd) (st : TokState) (cause : BitVec 6) : Calm s (s.endCmd n c st cause) := by
  have h1 : Calm s (s.modCtx n (·.withoutCmd c st)) := modCtx s n _
  rw [endCmd_eq]
  split
  · exact h1
  · have h2 := h1.trans (postFlags _ n c.slot c.gid c.flags)
    refine trans ?_ (moveToken _ n c st cause)
    split
    · exact h2.trans (replyTo _ n c _)
    · exact h2

theorem saveCmd (s : State) (n : Nat) (c : Cmd) : Calm s (s.saveCmd n c) := by
  have h1 := modCmd s n c.id fun _ => c
  unfold State.saveCmd
  dsimp only
  split
  · exact h1
  · exact h1.trans (modToken _ n _ _)

theorem finishCmd (s : State) (n : Nat) (c : Cmd) (st : TokState) (cause : BitVec 6) : Calm s (s.finishCmd n c st cause) := by
  unfold State.finishCmd
  split
  · exact saveCmd s n _
  · exact endCmd s n c st cause

theorem sgoCheck (s : State) (n id : Nat) : Calm s (s.sgoCheck n id) := by
  unfold State.sgoCheck
  split
  · exact refl s
  · split
    · exact refl s
    · split
      · exact finishCmd s n _ _ _
      · split <;> exact finishCmd s n _ _ _

theorem modStream (s : State) (n i : Nat) (f : Stream → Stream) : Calm s (s.modStream n i f) := modCtx s n _

theorem endStream (s : State) (n i bad : Nat) : Calm s (s.endStream n i bad) := by
  unfold State.endStream
  exact ((modStream s n i _).trans (modCmd _ n _ _)).trans (sgoCheck _ n _)

theorem haltStream (s : State) (n i bad : Nat) : Calm s (s.haltStream n i bad) := by
  unfold State.haltStream
  split
  · exact refl s
  · refine trans ?_ (endStream _ n i bad)
    split
    · exact refl s
    · split <;> exact endCmd s n _ _ _

theorem killCmd (s : State) (n : Nat) (c : Cmd) (cause : BitVec 6) : Calm s (s.killCmd n c cause) := by
  unfold State.killCmd
  split
  · have h1 : Calm s (((List.range 8).filter fun i => (s.stream n i).running && (s.stream n i).starter == c.id).foldl
        (fun a i => a.haltStream n i cause.toNat) s) := foldl _ (fun a i => haltStream a n i _) _ s
    dsimp only
    split
    · exact h1.trans (finishCmd _ n _ _ _)
    · exact h1
  · exact finishCmd s n c _ _

theorem preemptCmd (s : State) (n id : Nat) : Calm s (s.preemptCmd n id) := by
  unfold State.preemptCmd
  split
  · exact refl s
  · next c _ =>
    extract_lets cause s1
    have h1 : Calm s s1 := (engineLog s n c 0x18 0).trans (killCmd _ n c _)
    split
    · exact h1
    · exact h1.trans (endCmd s1 n _ _ _)

theorem preemptCmds (s : State) (gid n : Nat) : Calm s (s.preemptCmds gid n) := foldl _ (fun a i => preemptCmd a n i) _ s

/-! ## The sequencer's writes -/

theorem seqWrite (s : State) (p : Partition) (va : Word) (bs : List Byte) : Calm s (s.seqWrite p va bs) := by
  unfold State.seqWrite
  split
  · exact withMem s _
  · exact log s _

theorem writeNode (s : State) (p : Partition) (g : Graph) (i faults state : Nat) : Calm s (s.writeNode p g i faults state) :=
  seqWrite s p _ _

theorem endStarters (s : State) (p : Partition) (window : Word) (st : TokState) (cause : BitVec 6) :
    Calm s (s.endStarters p window st cause) := by
  unfold State.endStarters
  exact (foldl _ (fun a (x : Nat × Cmd) => endCmd a x.1 x.2 st cause) _ s).trans
    (foldl _ (fun a t => modTile a t _) _ _)

theorem endLaunch (s : State) (p : Partition) (window : Word) (node status : Nat) :
    Calm s (s.endLaunch p window node status) := by
  have h1 : Calm s (s.writeStatus p window node status) := seqWrite s p _ _
  unfold State.endLaunch
  dsimp only
  split
  · exact h1.trans (endStarters _ p window _ _)
  · exact h1.trans (endStarters _ p window _ _)

end Calm

end Sys2Proof.Machine
end

section
/-! SUPPORT. What the lookups of partitions, groups, graphs and nodes give after one of them has been changed, and the stop
wave and the node boundary, which change no tile (R343, R348). -/

namespace Sys2Proof.Machine

open Sys2Proof.Claims

/-! ## Lookups -/

/-- The element found by a key, in a list in which what has the key is changed and keeps it. -/
theorem find?_map_keyed {α : Type} (key : α → Nat) (k : Nat) (f : α → α) (hf : ∀ x, key (f x) = key x) :
    ∀ l : List α, ((l.map fun x => if key x == k then f x else x).find? fun x => key x == k) =
      (l.find? fun x => key x == k).map f
  | [] => rfl
  | x :: l => by
    by_cases h : key x = k
    · simp [h, hf]
    · have ih := find?_map_keyed key k f hf l
      rw [List.map_cons, if_neg (by simpa using h), List.find?_cons_of_neg (by simpa using h),
        List.find?_cons_of_neg (by simpa using h), ih]

theorem id_of_part? {s : State} {part : Nat} {p : Partition} (h : s.part? part = some p) : p.id = part := by
  simpa using List.find?_some h

theorem gid_of_group? {s : State} {gid : Nat} {g : Group} (h : s.group? gid = some g) : g.gid = gid := by
  simpa using List.find?_some h

theorem part?_congr {s t : State} (h : t.parts = s.parts) (part : Nat) : t.part? part = s.part? part := by
  unfold State.part?
  rw [h]

theorem group?_congr {s t : State} (h : t.groups = s.groups) (gid : Nat) : t.group? gid = s.group? gid := by
  unfold State.group?
  rw [h]

theorem seqr_congr {s t : State} (h : t.seqs = s.seqs) (plot : Nat) : t.seqr plot = s.seqr plot := by
  unfold State.seqr
  rw [h]

theorem node?_congr {s t : State} (h : t.seqs = s.seqs) (plot g n : Nat) : t.node? plot g n = s.node? plot g n := by
  unfold State.node?
  rw [seqr_congr h]

theorem part?_modPart (s : State) (part : Nat) (f : Partition → Partition) (hf : ∀ q, (f q).id = q.id) :
    (s.modPart part f).part? part = (s.part? part).map f :=
  find?_map_keyed Partition.id part f hf s.parts

theorem group?_modGroup (s : State) (gid : Nat) (f : Group → Group) (hf : ∀ g, (f g).gid = g.gid) :
    (s.modGroup gid f).group? gid = (s.group? gid).map f :=
  find?_map_keyed Group.gid gid f hf s.groups

theorem seqr_modSeqr (s : State) (plot : Nat) (f : Sequencer → Sequencer) :
    (s.modSeqr plot f).seqr plot = f (s.seqr plot) := get_set_same _ _ _ _

theorem getElem?_modifyAt {α : Type} (f : α → α) : ∀ (n : Nat) (l : List α), (modifyAt f n l)[n]? = l[n]?.map f
  | _, [] => by simp [modifyAt]
  | 0, x :: xs => by simp [modifyAt]
  | n + 1, x :: xs => by simpa [modifyAt] using getElem?_modifyAt f n xs

theorem node?_modNode (s : State) (plot g n : Nat) (f : Node → Node) :
    (s.modNode plot g n f).node? plot g n = (s.node? plot g n).map f := by
  have hg := find?_map_keyed Graph.id g (fun x => { x with nodes := modifyAt f n x.nodes }) (fun _ => rfl) (s.seqr plot).graphs
  unfold State.node? State.modNode State.modGraph
  rw [seqr_modSeqr]
  unfold Sequencer.graph?
  rw [hg]
  cases h : (s.seqr plot).graphs.find? fun x => x.id == g with
  | none => rfl
  | some x => exact getElem?_modifyAt f n x.nodes

theorem SameCourse.part? {s t : State} (h : SameCourse s t) {part : Nat} {p : Partition} (hp : s.part? part = some p) :
    ∃ q, t.part? part = some q ∧ q.sansRing = p.sansRing := by
  have key (l : List Partition) : ((l.map Partition.sansRing).find? fun q => q.id == part) =
      (l.find? fun q => q.id == part).map Partition.sansRing := List.find?_map
  have hk := (key t.parts).symm.trans ((congrArg _ h.parts).trans (key s.parts))
  change (t.part? part).map Partition.sansRing = (s.part? part).map Partition.sansRing at hk
  rw [hp] at hk
  exact Option.map_eq_some_iff.mp hk

/-! ## The stop word (R343) -/

theorem waiting_enterAt_same (s : State) (level unit port : Nat) (x : Packet) :
    ((s.enterAt level unit port x).switch level unit).waiting = (s.switch level unit).waiting ++ [(port, x)] := by
  unfold State.enterAt State.setSwitch State.switch
  rw [get_set_same]

/-- A packet that waits at a root waits there after another has joined (R253). -/
theorem waiting_enterAt_mono (s : State) (level unit port : Nat) (x : Packet) (u : Nat) {w : Nat × Packet}
    (h : w ∈ (s.switch level u).waiting) : w ∈ ((s.enterAt level unit port x).switch level u).waiting := by
  by_cases hu : u = unit
  · rw [hu] at h ⊢
    rw [waiting_enterAt_same]
    exact List.mem_append_left _ h
  · have hk : 4096 * level + u ≠ 4096 * level + unit := by omega
    unfold State.enterAt State.setSwitch State.switch
    rw [get_set_ne _ _ _ hk]
    exact h

theorem waiting_sendStops_mono (p : Partition) (u : Nat) {w : Nat × Packet} : ∀ (l : List Nat) (s : State),
    w ∈ (s.switch 4 u).waiting → w ∈ ((l.foldl (fun a b => a.sendStop p b) s).switch 4 u).waiting
  | [], _, h => h
  | _ :: l, s, h => waiting_sendStops_mono p u l _ (waiting_enterAt_mono s 4 _ 5 _ u h)

/-- The wave is on its way to every block of its partition (R343). -/
theorem waiting_sendStops (p : Partition) (b : Nat) : ∀ (l : List Nat) (s : State), b ∈ l →
    ∃ x : Packet, (5, x) ∈ ((l.foldl (fun a b => a.sendStop p b) s).switch 4 (unitOf 4 (16 * b))).waiting ∧ x.vc = 5 ∧
      x.payload = .stop p.id b
  | c :: l, s, h => by
    by_cases hc : b = c
    · subst hc
      have hb : _ ∈ ((s.sendStop p b).switch 4 (unitOf 4 (16 * b))).waiting :=
        waiting_enterAt_same s 4 (unitOf 4 (16 * b)) 5 _ ▸ List.mem_append_right _ (List.mem_singleton_self _)
      exact ⟨_, waiting_sendStops_mono p _ l _ hb, rfl, rfl⟩
    · exact waiting_sendStops p b l _ ((List.mem_cons.mp h).resolve_left hc)

theorem sendStops_parts (p : Partition) : ∀ (l : List Nat) (s : State),
    (l.foldl (fun a b => a.sendStop p b) s).parts = s.parts ∧ (l.foldl (fun a b => a.sendStop p b) s).tiles = s.tiles ∧
      SameMemory s (l.foldl (fun a b => a.sendStop p b) s)
  | [], _ => ⟨rfl, rfl, fun _ => rfl, rfl⟩
  | b :: l, s => sendStops_parts p l (s.sendStop p b)

/-- R343: a stop word starts the wave of its partition. -/
theorem stopWord_starts_wave {part : Nat} {p : Partition} {s : State} (hp : s.part? part = some p) :
    ∃ t, exec (.stopWordWrite part) s = .next t ∧ t.part? part = some { p with stopping := true, reached := [] } ∧
      (∀ b ∈ p.blocks, ∃ x : Packet, (5, x) ∈ (t.switch 4 (unitOf 4 (16 * b))).waiting ∧ x.vc = 5 ∧
        x.payload = .stop part b) ∧ t.tiles = s.tiles ∧ SameMemory s t := by
  let s0 := s.modPart part fun q => { q with stopping := true, reached := [] }
  have he : exec (.stopWordWrite part) s = .next (p.blocks.foldl (fun a b => a.sendStop p b) s0) := by
    rw [exec_stopWordWrite, execStopWordWrite, State.stopWord, hp]
  obtain ⟨hparts, htiles, hmem⟩ := sendStops_parts p p.blocks s0
  refine ⟨_, he, ?_, fun b hb => ?_, htiles, hmem⟩
  · rw [part?_congr hparts]
    exact (part?_modPart s part (fun q => { q with stopping := true, reached := [] }) fun _ => rfl).trans (by rw [hp]; rfl)
  · rw [← id_of_part? hp]
    exact waiting_sendStops p b p.blocks s0 hb

/-! ## The node boundary (R348) -/

/-- The state with what a sequencer keeps of a partition saved, where it runs no group of it and has it not saved yet: what
`State.boundarySave` does for each partition of the boundary list. -/
def State.saveSeq (s : State) (plot : Nat) (q : Sequencer) (part : Nat) : State :=
  if (s.groups.any fun g => g.plot == plot && g.part == part && !g.ended) ||
      (s.pkg.savedSeqs.any fun x => x.plot == plot && x.part == part) then s
  else
    s.modPkg fun k => { k with savedSeqs := ⟨plot, part, q.ptr, q.graphs.filter fun g => g.part == part⟩ :: k.savedSeqs }

theorem boundarySave_eq (s : State) (plot : Nat) :
    s.boundarySave plot = (s.seqr plot).boundary.foldl (fun a k => a.saveSeq plot (s.seqr plot) k) s := rfl

/-- Only the package's list of saved states has changed. -/
structure SavesSeqs (s t : State) : Prop where
  groups : t.groups = s.groups
  seqs : t.seqs = s.seqs
  tiles : t.tiles = s.tiles
  memory : SameMemory s t

theorem SavesSeqs.refl (s : State) : SavesSeqs s s := ⟨rfl, rfl, rfl, fun _ => rfl, rfl⟩

theorem SavesSeqs.trans {s t u : State} (h : SavesSeqs s t) (k : SavesSeqs t u) : SavesSeqs s u :=
  ⟨k.groups.trans h.groups, k.seqs.trans h.seqs, k.tiles.trans h.tiles,
    fun a => (k.memory.1 a).trans (h.memory.1 a), k.memory.2.trans h.memory.2⟩

theorem savesSeqs_saveSeq (s : State) (plot : Nat) (q : Sequencer) (k : Nat) : SavesSeqs s (s.saveSeq plot q k) := by
  unfold State.saveSeq
  split
  · exact .refl s
  · exact ⟨rfl, rfl, rfl, fun _ => rfl, rfl⟩

theorem savesSeqs_saveAll (plot : Nat) (q : Sequencer) : ∀ (l : List Nat) (s : State),
    SavesSeqs s (l.foldl (fun a k => a.saveSeq plot q k) s)
  | [], s => .refl s
  | k :: l, s => (savesSeqs_saveSeq s plot q k).trans (savesSeqs_saveAll plot q l _)

theorem saveSeq_mono (s : State) (plot : Nat) (q : Sequencer) (k : Nat) {x : SavedSeq} (h : x ∈ s.pkg.savedSeqs) :
    x ∈ (s.saveSeq plot q k).pkg.savedSeqs := by
  unfold State.saveSeq
  split
  · exact h
  · exact List.mem_cons_of_mem _ h

theorem saveAll_mono (plot : Nat) (q : Sequencer) {x : SavedSeq} : ∀ (l : List Nat) (s : State), x ∈ s.pkg.savedSeqs →
    x ∈ (l.foldl (fun a k => a.saveSeq plot q k) s).pkg.savedSeqs
  | [], _, h => h
  | k :: l, s, h => saveAll_mono plot q l _ (saveSeq_mono s plot q k h)

/-- Saving for another partition saves nothing for this one. -/
theorem saveSeq_other (s : State) (plot : Nat) (q : Sequencer) {part k : Nat} (hk : part ≠ k)
    (h : ∀ x ∈ s.pkg.savedSeqs, x.plot = plot → x.part ≠ part) :
    ∀ x ∈ (s.saveSeq plot q k).pkg.savedSeqs, x.plot = plot → x.part ≠ part := by
  unfold State.saveSeq
  split
  · exact h
  · intro x hx
    obtain rfl | hx := List.mem_cons.mp hx
    · exact fun _ => hk.symm
    · exact h x hx

/-- A sequencer's state is saved for a partition of its boundary list that runs no group and has none saved (R348). -/
theorem mem_saveAll (plot : Nat) (q : Sequencer) (part : Nat) : ∀ (l : List Nat) (s : State), part ∈ l →
    (∀ g ∈ s.groups, g.plot = plot → g.part = part → g.ended = true) →
    (∀ x ∈ s.pkg.savedSeqs, x.plot = plot → x.part ≠ part) →
    ⟨plot, part, q.ptr, q.graphs.filter fun g => g.part == part⟩ ∈ (l.foldl (fun a k => a.saveSeq plot q k) s).pkg.savedSeqs
  | k :: l, s, hmem, hg, hx => by
    by_cases hk : part = k
    · subst hk
      have hgo : ¬(((s.groups.any fun g => g.plot == plot && g.part == part && !g.ended) ||
          (s.pkg.savedSeqs.any fun x => x.plot == plot && x.part == part)) = true) := by
        simp only [Bool.or_eq_true, List.any_eq_true, Bool.and_eq_true, beq_iff_eq, Bool.not_eq_true', not_or, not_exists]
        exact ⟨fun g ⟨hin, ⟨hplot, hpart⟩, hrun⟩ => Bool.noConfusion ((hg g hin hplot hpart).symm.trans hrun),
          fun x ⟨hin, hplot, hpart⟩ => hx x hin hplot hpart⟩
      have hin : ⟨plot, part, q.ptr, q.graphs.filter fun g => g.part == part⟩ ∈ (s.saveSeq plot q part).pkg.savedSeqs := by
        unfold State.saveSeq
        rw [if_neg hgo]
        exact List.mem_cons_self
      exact saveAll_mono plot q l _ hin
    · exact mem_saveAll plot q part l _ ((List.mem_cons.mp hmem).resolve_left hk)
        (by rw [(savesSeqs_saveSeq s plot q k).groups]; exact hg) (saveSeq_other s plot q hk hx)

/-- R348: a pre-emption at a node boundary keeps further groups of the partition from being placed, and saves the
sequencer's state once none of them runs. -/
theorem nodeBoundary_saves {plot part : Nat} (s : State) (hplot : plot < 32) :
    ∃ t, exec (.nodeBoundaryPreemption plot part) s = .next t ∧ (t.seqr plot).boundary.contains part = true ∧
      ((∀ g ∈ s.groups, g.plot = plot → g.part = part → g.ended = true) →
        (∀ x ∈ s.pkg.savedSeqs, x.plot = plot → x.part ≠ part) →
        { plot := plot, part := part, ptr := (s.seqr plot).ptr,
          graphs := (s.seqr plot).graphs.filter fun g => g.part == part } ∈ t.pkg.savedSeqs) ∧
      t.tiles = s.tiles ∧ SameMemory s t := by
  let f (q : Sequencer) : Sequencer :=
    { q with boundary := if q.boundary.contains part then q.boundary else part :: q.boundary }
  let s0 := s.modSeqr plot f
  have hq : s0.seqr plot = f (s.seqr plot) := seqr_modSeqr s plot f
  have hin : part ∈ (s0.seqr plot).boundary := by
    rw [hq]
    dsimp only [f]
    split
    · next h => exact List.contains_iff_mem.mp h
    · exact List.mem_cons_self
  have hs := savesSeqs_saveAll plot (s0.seqr plot) (s0.seqr plot).boundary s0
  have he : exec (.nodeBoundaryPreemption plot part) s = .next (s0.boundarySave plot) := by
    rw [exec_nodeBoundaryPreemption, execNodeBoundaryPreemption, if_neg (by omega)]
    rfl
  rw [boundarySave_eq] at he
  refine ⟨_, he, ?_, fun hg hx => ?_, hs.tiles, hs.memory⟩
  · rw [seqr_congr hs.seqs]
    exact List.contains_iff_mem.mpr hin
  · have h := mem_saveAll plot (s0.seqr plot) part _ s0 hin hg hx
    rw [hq] at h
    rw [hq]
    exact h

end Sys2Proof.Machine
end

section
/-! SUPPORT. The swap of a partition's contexts and the resume of its tiles (R343, R346, R348). -/

namespace Sys2Proof.Machine

open Sys2Proof.Claims

/-! ## The swap -/

theorem tile_modTiles_outside (f : Tile → Tile) {n : Nat} : ∀ (l : List Nat) (s : State), n ∉ l →
    (l.foldl (fun a t => a.modTile t f) s).tile n = s.tile n
  | [], _, _ => rfl
  | t :: l, s, h => by
    obtain ⟨hn, hl⟩ := List.ne_and_not_mem_of_not_mem_cons h
    exact (tile_modTiles_outside f l _ hl).trans (tile_modTile_ne s f hn)

theorem tile_modTiles (f : Tile → Tile) {n : Nat} : ∀ (l : List Nat) (s : State), l.Nodup → n ∈ l →
    (l.foldl (fun a t => a.modTile t f) s).tile n = f (s.tile n)
  | t :: l, s, hl, h => by
    obtain ⟨ht, hl⟩ := List.nodup_cons.mp hl
    by_cases hn : n = t
    · subst hn
      exact (tile_modTiles_outside f l _ ht).trans (tile_modTile_same s n f)
    · exact (tile_modTiles f l _ hl ((List.mem_cons.mp h).resolve_left hn)).trans
        (congrArg f (tile_modTile_ne s f hn))

theorem sameMemory_modTiles (f : Tile → Tile) (l : List Nat) (s : State) :
    SameMemory s (l.foldl (fun a t => a.modTile t f) s) :=
  List.foldlRecOn (motive := SameMemory s) l _ ⟨fun _ => rfl, rfl⟩ fun _ h _ _ => h

theorem swapHomes_keeps (s : State) (part : Nat) :
    (s.swapHomes part).tiles = s.tiles ∧ SameMemory s (s.swapHomes part) := by
  unfold State.swapHomes
  exact List.foldlRecOn (motive := fun a : State => a.tiles = s.tiles ∧ SameMemory s a) _ _ ⟨rfl, fun _ => rfl, rfl⟩
    fun _ h _ _ => h

/-- R346: SWAP exchanges the context of every tile of the partition with its shadow, and of no other tile. -/
theorem swap_exchanges {part : Nat} {p : Partition} {s : State} (hp : s.part? part = some p) (hstop : p.stopped = true)
    (hl : p.tiles.Nodup) :
    ∃ t, exec (.swap part) s = .next t ∧
      (∀ tile ∈ p.tiles, t.ctx tile = (s.tile tile).shadow ∧ (t.tile tile).shadow = s.ctx tile) ∧
      (∀ tile, tile ∉ p.tiles → t.tile tile = s.tile tile) ∧ SameMemory s t := by
  let f (x : Tile) : Tile := { x with ctx := x.shadow, shadow := x.ctx }
  let s1 := p.tiles.foldl (fun a t => a.modTile t f) (s.swapHomes part)
  let t : State := { s1 with groups := s1.groups.map fun g =>
    if g.part == part && !g.ended then { g with away := !g.away } else g }
  have he : exec (.swap part) s = .next t := by
    rw [exec_swap, execSwap, State.swap, hp]
    dsimp only
    rw [hstop]
    rfl
  obtain ⟨htiles, hmem⟩ := swapHomes_keeps s part
  have ht (n : Nat) : t.tile n = s1.tile n := rfl
  have hmem1 := sameMemory_modTiles f p.tiles (s.swapHomes part)
  refine ⟨t, he, fun n hn => ?_, fun n hn => ?_, fun a => (hmem1.1 a).trans (hmem.1 a), hmem1.2.trans hmem.2⟩
  · have hx : t.tile n = f (s.tile n) :=
      (ht n).trans ((tile_modTiles f p.tiles _ hl hn).trans (congrArg f (tile_congr htiles n)))
    exact ⟨congrArg Tile.ctx hx, congrArg Tile.shadow hx⟩
  · exact (tile_modTiles_outside f p.tiles _ hn).trans (tile_congr htiles n)

/-! ## The launches that have waited -/

namespace SameCourse

theorem modSeqr (s : State) (plot : Nat) (f : Sequencer → Sequencer) : SameCourse s (s.modSeqr plot f) := .of_tiles rfl rfl

theorem beginLaunch (s : State) (p : Partition) (l : Launch) : SameCourse s (s.beginLaunch p l) := by
  unfold State.beginLaunch
  dsimp only
  split
  · exact modSeqr s _ _
  · split
    · exact ((Calm.log s _).trans (Calm.endLaunch _ p _ _ _)).toSameCourse
    · split
      · exact (Calm.endLaunch s p _ _ _).toSameCourse
      · next g _ =>
        split
        · have h1 : SameCourse s (s.fresh.2.modSeqr p.plot fun q => { q with graphs := q.graphs ++ [g] }) := of_tiles rfl rfl
          exact h1.trans (foldl _ (fun a i => (Calm.writeNode a p g i 0 0).toSameCourse) _ _)
        · exact modSeqr s _ _

/-- Launches that are taken up change no thread (R300). -/
theorem promote (plot : Nat) : ∀ (n : Nat) (s : State), SameCourse s (s.promote plot n)
  | 0, s => refl s
  | n + 1, s => by
    unfold State.promote
    split
    · exact refl s
    · dsimp only
      split
      · exact (modSeqr s _ _).trans (promote plot n _)
      · exact ((modSeqr s _ _).trans (beginLaunch _ _ _)).trans (promote plot n _)

end SameCourse

/-! ## The resume -/

/-- A tile runs, and each of its threads has age 0 and waits for every result in flight before its first word. -/
structure Going (s : State) (n : Nat) : Prop where
  runs : (s.tile n).stopped = false
  young : ∀ k, k < 4 → (s.thread n k).age = 0 ∧ (s.thread n k).fresh = true

theorem Going.of_sameCourse {s t : State} (h : SameCourse s t) {n : Nat} (hs : Going s n) : Going t n :=
  ⟨(h.stopped n).trans hs.runs, fun k hk =>
    ⟨(congrArg Thread.age (h.threads n k)).trans (hs.young k hk).1,
      (congrArg Thread.fresh (h.threads n k)).trans (hs.young k hk).2⟩⟩

theorem vget_map {α β : Type} {n : Nat} (v : Vector α n) (f : α → β) {i : Nat} (d : α) (e : β) (h : i < n) :
    vget (v.map f) i e = f (vget v i d) := by
  unfold vget
  rw [Vector.getElem?_map, Vector.getElem?_eq_getElem h]
  rfl

/-- A tile of a partition that is resumed (R343, R346). -/
def Tile.resumed (x : Tile) (now : Nat) : Tile :=
  { x with stopped := false, ctx := { x.ctx with threads := x.ctx.threads.map fun th => th.resumed now } }

theorem thread_resumed (s : State) (t now : Nat) {k : Nat} (h : k < 4) :
    (s.modTile t fun x => x.resumed now).thread t k = (s.thread t k).resumed now := by
  unfold State.thread State.ctx
  rw [tile_modTile_same]
  exact vget_map _ _ _ _ h

theorem going_resumed (s : State) (t now : Nat) : Going (s.modTile t fun x => x.resumed now) t := by
  refine ⟨by rw [tile_modTile_same]; rfl, fun k hk => ?_⟩
  rw [thread_resumed s t now hk]
  exact ⟨rfl, rfl⟩

theorem thread_modTile_ne (s : State) {t n : Nat} (f : Tile → Tile) (k : Nat) (h : n ≠ t) :
    (s.modTile t f).thread n k = s.thread n k := by
  unfold State.thread State.ctx
  rw [tile_modTile_ne s f h]

theorem Going.resumed {s : State} {n : Nat} (t now : Nat) (h : Going s n) : Going (s.modTile t fun x => x.resumed now) n := by
  by_cases hn : n = t
  · rw [hn]
    exact going_resumed s t now
  · refine ⟨by rw [tile_modTile_ne s _ hn]; exact h.runs, fun k hk => ?_⟩
    rw [thread_modTile_ne s _ k hn]
    exact h.young k hk

theorem pc_resumed (s : State) (t now n : Nat) {k : Nat} (hk : k < 4) :
    ((s.modTile t fun x => x.resumed now).thread n k).pc = (s.thread n k).pc := by
  by_cases hn : n = t
  · rw [hn, thread_resumed s t now hk]
    rfl
  · rw [thread_modTile_ne s _ k hn]

/-- The tiles of a partition that is resumed go on, each thread where it was. -/
theorem resumed_tiles (now : Nat) : ∀ (l : List Nat) (s : State),
    let t := l.foldl (fun a n => a.modTile n fun x => x.resumed now) s
    (∀ n, n ∈ l ∨ Going s n → Going t n) ∧ (∀ n k, k < 4 → (t.thread n k).pc = (s.thread n k).pc) ∧ t.parts = s.parts
  | [], s => ⟨fun _ h => h.resolve_left (nomatch ·), fun _ _ _ => rfl, rfl⟩
  | m :: l, s => by
    obtain ⟨hgo, hpc, hparts⟩ := resumed_tiles now l (s.modTile m fun x => x.resumed now)
    refine ⟨fun n h => hgo n ?_, fun n k hk => (hpc n k hk).trans (pc_resumed s m now n hk), hparts⟩
    rcases h with h | h
    · rcases List.mem_cons.mp h with rfl | h
      · exact .inr (going_resumed s _ now)
      · exact .inl h
    · exact .inr (h.resumed m now)

/-- R343, R346, R348: RESUME lets the tiles of its partition run again. -/
theorem resume_goes_on {part : Nat} {p : Partition} {s : State} (hp : s.part? part = some p) (hstop : p.stopped = true) :
    ∃ t p', exec (.resume part) s = .next t ∧ t.part? part = some p' ∧ p'.stopping = false ∧ p'.stopped = false ∧
      ∀ tile ∈ p.tiles, (t.tile tile).stopped = false ∧
        ∀ k, k < 4 → (t.thread tile k).age = 0 ∧ (t.thread tile k).fresh = true ∧
          (t.thread tile k).pc = (s.thread tile k).pc := by
  let plots := (p.blocks.map (· / 4)).eraseDups
  let s0 := (plots.foldl (fun a q => a.modSeqr q fun x => { x with boundary := x.boundary.filter (· != part) }) s).modPkg
    fun k => { k with savedSeqs := k.savedSeqs.filter fun x => x.part != part }
  let s1 := p.tiles.foldl (fun a n => a.modTile n fun x => x.resumed s.now) s0
  let f (q : Partition) : Partition := { q with stopping := false, stopped := false }
  let s2 := s1.modPart part f
  let t := plots.foldl (fun a q => a.promote q (a.seqr q).waiting.length) s2
  have he : exec (.resume part) s = .next t := by
    rw [exec_resume, execResume, State.resume, hp]
    dsimp only
    rw [hstop]
    rfl
  have h0 : s0.tiles = s.tiles ∧ s0.parts = s.parts :=
    List.foldlRecOn (motive := fun a : State => a.tiles = s.tiles ∧ a.parts = s.parts) plots _ ⟨rfl, rfl⟩ fun _ h _ _ => h
  obtain ⟨hgo, hpc, hparts⟩ := resumed_tiles s.now p.tiles s0
  have hc : SameCourse s2 t := .foldl _ (fun a q => .promote q _ a) plots s2
  have hp2 : s2.part? part = some (f p) := by
    rw [part?_modPart s1 part f fun _ => rfl, part?_congr (hparts.trans h0.2), hp]
    rfl
  obtain ⟨p', hp', hring⟩ := hc.part? hp2
  refine ⟨t, p', he, hp', congrArg Partition.stopping hring, congrArg Partition.stopped hring, fun n hn => ?_⟩
  have hn2 : Going t n := .of_sameCourse hc (⟨(hgo n (.inl hn)).runs, (hgo n (.inl hn)).young⟩ : Going s2 n)
  refine ⟨hn2.runs, fun k hk => ⟨(hn2.young k hk).1, (hn2.young k hk).2, ?_⟩⟩
  calc (t.thread n k).pc = (s2.thread n k).pc := (congrArg Thread.pc (hc.threads n k) :)
    _ = (s0.thread n k).pc := hpc n k hk
    _ = (s.thread n k).pc := by rw [thread_congr h0.1]

end Sys2Proof.Machine
end

section
/-! SUPPORT. Operations that concern one thread, and the stop of a tile (R222, R228, R235, R343). -/

namespace Sys2Proof.Machine

open Sys2Proof.Claims

/-! ## What concerns one thread alone -/

/-- Every other thread is where it was, this one belongs to the group that it did, and what runs besides the threads has not
changed. -/
structure OneThread (tile slot : Nat) (s t : State) : Prop extends SameBooks s t where
  stopped : ∀ n, (t.tile n).stopped = (s.tile n).stopped
  others : ∀ n k, ¬(n = tile ∧ k = slot) → (t.thread n k).control = (s.thread n k).control
  gid : (t.thread tile slot).gid = (s.thread tile slot).gid

namespace OneThread

variable {tile slot : Nat} {s t u : State}

theorem of_calm (h : Calm s t) : OneThread tile slot s t :=
  ⟨h.toSameBooks, h.stopped, fun n k _ => h.threads n k, (congrArg Thread.gid (h.threads tile slot) :)⟩

theorem refl (s : State) : OneThread tile slot s s := of_calm (.refl s)

theorem trans (h : OneThread tile slot s t) (k : OneThread tile slot t u) : OneThread tile slot s u :=
  ⟨h.toSameBooks.trans k.toSameBooks, fun n => (k.stopped n).trans (h.stopped n),
    fun n j hj => (k.others n j hj).trans (h.others n j hj), k.gid.trans h.gid⟩

theorem stopped_setThread (s : State) (n k m : Nat) (th : Thread) :
    ((s.setThread n k th).tile m).stopped = (s.tile m).stopped := by
  by_cases hm : m = n
  · rw [hm]
    unfold State.setThread State.modCtx
    rw [tile_modTile_same]
  · unfold State.setThread State.modCtx
    rw [tile_modTile_ne s _ hm]

theorem setThread (s : State) (th : Thread) (h : th.gid = (s.thread tile slot).gid) :
    OneThread tile slot s (s.setThread tile slot th) := by
  refine ⟨.of_eq rfl rfl rfl, fun n => stopped_setThread s tile slot n th, fun n k hk => ?_, ?_⟩
  · rw [thread_setThread_ne s th hk]
  · by_cases h4 : slot < 4
    · rw [thread_setThread_same s tile th h4, h]
    · have hv : vset (s.ctx tile).threads slot th = (s.ctx tile).threads := by
        unfold vset
        rw [Vector.setIfInBounds_eq_of_size_le (by omega)]
      unfold State.setThread State.thread
      rw [ctx_modCtx_same]
      dsimp only
      rw [hv]

theorem modThread (s : State) (f : Thread → Thread) (h : ∀ th, (f th).gid = th.gid) :
    OneThread tile slot s (s.modThread tile slot f) := setThread s _ (h _)

theorem discard (s : State) (tile slot : Nat) (cause : BitVec 6) : OneThread tile slot s (s.discard tile slot cause) := by
  have h1 : Calm s ((s.giveUp tile slot (s.thread tile slot).held).count 0 (4 * tile + slot) (3 + cause.toNat)) :=
    (Calm.giveUp s tile slot _).trans (Calm.count _ _ _ _)
  exact (of_calm h1).trans (setThread _ _ (congrArg Thread.gid (h1.threads tile slot) :).symm)

theorem marker (s : State) (tile slot : Nat) (pc : Word) : OneThread tile slot s (s.marker tile slot pc) := setThread s _ rfl

theorem stopThread (s : State) (tile slot : Nat) (x : Trap) : OneThread tile slot s (s.stopThread tile slot x) :=
  (setThread s { s.thread tile slot with status := .stopped, waiting := false } rfl).trans (of_calm (Calm.log _ _))

theorem enterOrStop (s : State) (tile slot : Nat) (x : Trap) : OneThread tile slot s (s.enterOrStop tile slot x) := by
  unfold State.enterOrStop
  dsimp only
  split
  · exact stopThread s tile slot x
  · exact setThread s _ rfl

theorem calm_trapValue (s : State) (x : Trap) : Calm s (s.trapValue x).2 := by
  unfold State.trapValue
  split
  · exact .refl s
  · exact Calm.draw s

/-- The trap registers written, and the handler entered or the thread stopped. -/
theorem trapEntry (s : State) (x : Trap) (th : Thread) (h : th.gid = (s.thread tile slot).gid) :
    OneThread tile slot s (((s.trapValue x).2.setThread tile slot th).enterOrStop tile slot x) := by
  have h1 := calm_trapValue s x
  exact ((of_calm h1).trans (setThread _ th (h.trans (congrArg Thread.gid (h1.threads tile slot) :).symm))).trans
    (enterOrStop _ tile slot x)

theorem takeTrap (s : State) (tile slot : Nat) (x : Trap) : OneThread tile slot s (s.takeTrap tile slot x) := by
  unfold State.takeTrap
  dsimp only
  split
  · exact stopThread s tile slot x
  · split
    · exact (discard s tile slot x.code).trans (trapEntry _ _ _ rfl)
    · exact (marker s tile slot _).trans (trapEntry _ _ _ rfl)
    · exact (marker s tile slot _).trans (trapEntry _ _ _ rfl)

theorem discardCounted (s : State) (tile slot : Nat) (cause : BitVec 6) :
    OneThread tile slot s (s.discardCounted tile slot cause) := by
  unfold State.discardCounted
  dsimp only
  split
  · exact refl s
  · split
    · exact takeTrap s tile slot _
    · exact discard s tile slot cause

end OneThread

/-! ## The threads of a tile that stops -/

/-- A thread in group state whose open region can be discarded and counted without a trap (R228). -/
structure Thread.Discardable (th : Thread) : Prop where
  running : th.status = .running
  group : th.sup = false
  below : th.reentry.toNat + 1 < th.reentrymax.toNat

/-- A thread as the discard of its open region leaves it (R222). -/
structure DiscardOf (th x : Thread) : Prop where
  pc : x.pc = th.resume
  buffered : x.buffered = []
  held : x.held = []
  reentry : x.reentry = th.reentry + 1#8

theorem Thread.Discardable.of_control {th x : Thread} (h : x.control = th.control) (hd : th.Discardable) : x.Discardable :=
  ⟨(congrArg Thread.status h :).trans hd.running, (congrArg Thread.sup h :).trans hd.group, by
    have hr : x.reentry = th.reentry := (congrArg Thread.reentry h :)
    have hm : x.reentrymax = th.reentrymax := (congrArg Thread.reentrymax h :)
    rw [hr, hm]
    exact hd.below⟩

theorem DiscardOf.of_control {th th' x x' : Thread} (h : th'.control = th.control) (k : x'.control = x.control)
    (hd : DiscardOf th x) : DiscardOf th' x' :=
  ⟨(congrArg Thread.pc k :).trans (hd.pc.trans (congrArg Thread.resume h :).symm),
    (congrArg Thread.buffered k :).trans hd.buffered, (congrArg Thread.held k :).trans hd.held,
    (congrArg Thread.reentry k :).trans (hd.reentry.trans (congrArg (fun y => y.reentry + 1#8) h :).symm)⟩

theorem discardOf_discard (s : State) (tile : Nat) {slot : Nat} (cause : BitVec 6) (h : slot < 4) :
    DiscardOf (s.thread tile slot) ((s.discard tile slot cause).thread tile slot) := by
  unfold State.discard
  dsimp only
  rw [thread_setThread_same _ _ _ h]
  exact ⟨rfl, rfl, rfl, rfl⟩

theorem stopWaveThread_discards (s : State) (tile : Nat) {slot : Nat} (h : slot < 4) (hd : (s.thread tile slot).Discardable) :
    DiscardOf (s.thread tile slot) ((s.stopWaveThread tile slot).thread tile slot) := by
  have hbelow := hd.below
  have hmax := (s.thread tile slot).reentrymax.isLt
  have hff : (s.thread tile slot).reentry ≠ 0xFF#8 := by
    intro hr
    rw [hr] at hbelow
    have : (0xFF#8 : BitVec 8).toNat = 255 := rfl
    omega
  have he : s.stopWaveThread tile slot = s.discard tile slot 0x18#6 := by
    unfold State.stopWaveThread State.discardCounted
    dsimp only
    rw [if_neg (by simp [hd.running, hd.group]), if_neg (by simp [hff]; omega)]
  rw [he]
  exact discardOf_discard s tile 0x18#6 h

/-- The wave leaves the threads of a tile that it does not meet. -/
theorem stopWaveThreads_others (tile k : Nat) : ∀ (l : List Nat) (s : State), k ∉ l →
    ((l.foldl (fun a j => a.stopWaveThread tile j) s).thread tile k).control = (s.thread tile k).control
  | [], _, _ => rfl
  | j :: l, s, h => by
    obtain ⟨hj, hl⟩ := List.ne_and_not_mem_of_not_mem_cons h
    exact (stopWaveThreads_others tile k l _ hl).trans
      ((OneThread.discardCounted s tile j 0x18#6).others tile k fun h => hj h.2)

/-- The open region of every thread that the wave meets is discarded and counted (R222, R343). -/
theorem stopWaveThreads_discard (tile : Nat) {k : Nat} (hk : k < 4) : ∀ (l : List Nat) (s : State), l.Nodup → k ∈ l →
    (s.thread tile k).Discardable →
    DiscardOf (s.thread tile k) ((l.foldl (fun a j => a.stopWaveThread tile j) s).thread tile k)
  | j :: l, s, hl, hmem, hd => by
    obtain ⟨hj, hl⟩ := List.nodup_cons.mp hl
    by_cases hkj : k = j
    · subst hkj
      exact .of_control rfl (stopWaveThreads_others tile k l _ hj) (stopWaveThread_discards s tile hk hd)
    · have hc : ((s.stopWaveThread tile j).thread tile k).control = (s.thread tile k).control :=
        (OneThread.discardCounted s tile j 0x18#6).others tile k fun h => hkj h.2
      exact .of_control hc.symm rfl
        (stopWaveThreads_discard tile hk l _ hl ((List.mem_cons.mp hmem).resolve_left hkj) (hd.of_control hc))

theorem stopWaveThreads_stopped (tile n : Nat) : ∀ (l : List Nat) (s : State),
    ((l.foldl (fun a j => a.stopWaveThread tile j) s).tile n).stopped = (s.tile n).stopped
  | [], _ => rfl
  | j :: l, s => (stopWaveThreads_stopped tile n l _).trans ((OneThread.discardCounted s tile j 0x18#6).stopped n)

/-! ## The stop of a tile -/

theorem Calm.stopWaveImage (s : State) (m : Image) : Calm s (s.stopWaveImage m) := by
  unfold State.stopWaveImage
  split
  · exact Calm.commitInstance s _
  · exact Calm.discardInstance s _ _

theorem Calm.setTlb (s : State) (b : TlbId) (ls : List Leaf) : Calm s (s.setTlb b ls) := by
  cases b with
  | tile n => exact Calm.modTile s n fun x => { x with tlb := ls }
  | quad q => exact .of_eq rfl rfl rfl rfl rfl
  | sieve k => exact .of_eq rfl rfl rfl rfl rfl

theorem Calm.dropTlbs (s : State) (part tile : Nat) : Calm s (s.dropTlbs part tile) := by
  unfold State.dropTlbs
  extract_lets keep s1 s2 s3
  have h1 : Calm s s1 := Calm.setTlb s _ _
  have h2 : Calm s1 s2 := Calm.setTlb s1 _ _
  have h3 : Calm s2 s3 := Calm.setTlb s2 _ _
  exact ((h1.trans h2).trans h3).trans (Calm.modPkg s3 _)

theorem tlb_dropTlbs (s : State) (part tile : Nat) :
    ((s.dropTlbs part tile).tile tile).tlb = (s.tile tile).tlb.filter fun l => l.part != part :=
  congrArg Tile.tlb (tile_modTile_same s tile fun x => { x with tlb := (s.tile tile).tlb.filter fun l => l.part != part })

/-- A tile that stops (R343): it is stopped, and no other; it holds no translation of its partition; and the open region of
each of its threads in group state is discarded and counted. -/
theorem stopTile_stops (s : State) (part tile : Nat) :
    ((s.stopTile part tile).tile tile).stopped = true ∧
      (∀ n, n ≠ tile → ((s.stopTile part tile).tile n).stopped = (s.tile n).stopped) ∧
      (∀ l ∈ ((s.stopTile part tile).tile tile).tlb, l.part ≠ part) ∧
      ∀ k, k < 4 → (s.thread tile k).Discardable → DiscardOf (s.thread tile k) ((s.stopTile part tile).thread tile k) := by
  let s1 := [0, 1, 2, 3].foldl (fun a k => a.stopWaveThread tile k) s
  let s2 := (s1.instancesOn tile).foldl (fun a m => a.stopWaveImage m) s1
  let s3 := s2.modTile tile fun x => { x with stopped := true }
  have h2 : Calm s1 s2 := .foldl _ Calm.stopWaveImage _ s1
  have h4 : Calm s3 (s.stopTile part tile) := Calm.dropTlbs s3 part tile
  refine ⟨?_, fun n hn => ?_, fun l hl => ?_, fun k hk hd => ?_⟩
  · exact (h4.stopped tile).trans (congrArg Tile.stopped (tile_modTile_same s2 tile _))
  · calc ((s.stopTile part tile).tile n).stopped = (s3.tile n).stopped := h4.stopped n
      _ = (s2.tile n).stopped := congrArg Tile.stopped (tile_modTile_ne s2 _ hn)
      _ = (s1.tile n).stopped := h2.stopped n
      _ = (s.tile n).stopped := stopWaveThreads_stopped tile n _ s
  · have hl' : l ∈ (s3.tile tile).tlb.filter fun l => l.part != part := tlb_dropTlbs s3 part tile ▸ hl
    simpa using (List.mem_filter.mp hl').2
  · have h3 : s3.thread tile k = s2.thread tile k := by
      unfold State.thread State.ctx
      rw [tile_modTile_same]
    have hc : ((s.stopTile part tile).thread tile k).control = (s1.thread tile k).control :=
      (h4.threads tile k).trans ((congrArg Thread.control h3).trans (h2.threads tile k))
    have hmem : k ∈ [0, 1, 2, 3] := by
      simp only [List.mem_cons, List.not_mem_nil, or_false]
      omega
    exact .of_control rfl hc (stopWaveThreads_discard tile hk [0, 1, 2, 3] s (by decide) hmem hd)

/-- A tile that runs does not report (R343). -/
theorem tileReports_of_running {s : State} {n : Nat} (h : (s.tile n).stopped = false) : s.tileReports n = false := by
  unfold State.tileReports
  simp [h]

/-- R222, R235, R343: where the wave reaches a tile that runs, the tile stops; its partition is not stopped while another
runs. -/
theorem stopWave_stops_tile {part tile other : Nat} {p : Partition} {s : State} (hp : s.part? part = some p)
    (ht : tile < 2048) (hstopping : p.stopping = true) (hstopped : p.stopped = false)
    (hb : p.blocks.contains (tile / 16) = true) (hrun : (s.tile tile).stopped = false) (ho : other ∈ p.tiles)
    (hne : other ≠ tile) (horun : (s.tile other).stopped = false) :
    exec (.stopWaveArrival part tile) s = .next (s.stopTile part tile) := by
  have hother : (s.stopTile part tile).tileReports other = false :=
    tileReports_of_running (((stopTile_stops s part tile).2.1 other hne).trans horun)
  have hall : (p.tiles.all fun t => (s.stopTile part tile).tileReports t) = false :=
    List.all_eq_false.mpr ⟨other, ho, by rw [hother]; exact Bool.false_ne_true⟩
  rw [exec_stopWaveArrival, execStopWaveArrival, if_neg (by omega), State.stopWave, hp]
  dsimp only
  rw [if_neg (by rw [hstopping, hstopped, hb]; decide), hrun, if_neg Bool.false_ne_true, hall]
  rfl

theorem stopWavesStopTheirTiles : StopWavesStopTheirTiles := by
  intro part p s hp
  refine ⟨stopWord_starts_wave hp, fun tile other ht hstopping hstopped hb hrun ho hne horun => ?_⟩
  obtain ⟨h1, _, h3, h4⟩ := stopTile_stops s part tile
  refine ⟨_, stopWave_stops_tile hp ht hstopping hstopped hb hrun ho hne horun, h1, h3, fun k hk => ?_⟩
  intro th hr hs hm
  obtain ⟨hpc, hbuf, hheld, hre⟩ := h4 k hk ⟨hr, hs, hm⟩
  exact ⟨hpc, hbuf, hheld, hre⟩

end Sys2Proof.Machine
end

section
/-! SUPPORT. The end of a group that TERMINATE has stopped, and O54 (R296, R303, R307, R346). -/

namespace Sys2Proof.Machine

open Sys2Proof.Claims

/-! ## The end of a group -/

/-- A group has ended: its images are gone, and it has counted in ENDED and FAULTS of its node (R303, R346). -/
structure Ends (s : State) (g : Group) (t : State) : Prop where
  group : ∃ h, t.group? g.gid = some h ∧ h.ended = true
  images : ∀ m ∈ t.images, m.gid ≠ g.gid
  node : ∀ n, s.node? g.plot g.graph g.node = some n →
    t.node? g.plot g.graph g.node = some { n with ended := n.ended + 1, faults := n.faults + 1 }

/-- The count of an end changes its node, and calls for a write to its record at most (R301, R303). -/
theorem countEnd_calm (s : State) (g : Group) (b : Bool) :
    Calm (s.modNode g.plot g.graph g.node fun n => { n with ended := n.ended + 1, faults := n.faults + b2n b })
      (s.countEnd g b) := by
  unfold State.countEnd
  dsimp only
  split
  · split
    · split
      · exact Calm.writeNode _ _ _ _ _ _
      · exact .refl _
    · exact .refl _
  · exact .refl _

theorem sameCourse_countEnd (s : State) (g : Group) (b : Bool) : SameCourse s (s.countEnd g b) := by
  have h1 : SameCourse s (s.modNode g.plot g.graph g.node fun n =>
      { n with ended := n.ended + 1, faults := n.faults + b2n b }) := .of_tiles rfl rfl
  exact h1.trans (countEnd_calm s g b).toSameCourse

theorem node?_countEnd (s : State) (g : Group) {n : Node} (h : s.node? g.plot g.graph g.node = some n) :
    (s.countEnd g true).node? g.plot g.graph g.node = some { n with ended := n.ended + 1, faults := n.faults + 1 } := by
  rw [node?_congr (countEnd_calm s g true).seqs, node?_modNode, h]
  rfl

theorem group?_countEnd (s : State) (g : Group) (b : Bool) (gid : Nat) : (s.countEnd g b).group? gid = s.group? gid :=
  group?_congr (countEnd_calm s g b).groups gid

/-- No image belongs to a group where none did before. -/
theorem SameBooks.noImages {s t : State} (h : SameBooks s t) {gid : Nat} (hs : ∀ m ∈ s.images, m.gid ≠ gid) :
    ∀ m ∈ t.images, m.gid ≠ gid := by
  intro m hm
  have hx : (m.id, m.gid) ∈ s.images.map fun m => (m.id, m.gid) := h.images ▸ List.mem_map_of_mem hm
  obtain ⟨m', hm', he⟩ := List.mem_map.mp hx
  have hg : m'.gid = m.gid := congrArg Prod.snd he
  exact hg ▸ hs m' hm'

/-! ## The images of a group that ends -/

/-- No group and no sequencer has changed, every image stood before, and those of a list are gone. -/
structure EndsImages (l : List Image) (s t : State) : Prop where
  groups : t.groups = s.groups
  seqs : t.seqs = s.seqs
  course : SameCourse s t
  images : ∀ x ∈ t.images, (∃ m ∈ s.images, (m.id, m.gid) = (x.id, x.gid)) ∧ ∀ m ∈ l, x.id ≠ m.id

/-- An image that ends, up to its removal (R170, R197). -/
theorem endImage_calm (s : State) (m : Image) :
    ∃ u, Calm s u ∧ s.endImage m = { u with images := u.images.filter fun x => x.id != m.id } := by
  refine ⟨_, ?_, rfl⟩
  have h0 : Calm s (if m.discards then s.undo m else s) := by
    split
    · exact Calm.undo s m
    · exact .refl s
  exact (h0.trans (Calm.endDomain _ m)).trans (.foldl _ (fun a p => (Calm.modTeAt a p _).trans (Calm.modCtx _ p.1 _)) _ _)

theorem endsImages_endImage (s : State) (m : Image) : EndsImages [m] s (s.endImage m) := by
  obtain ⟨u, hu, he⟩ := endImage_calm s m
  rw [he]
  refine ⟨hu.groups, hu.seqs, hu.toSameCourse.trans (.of_tiles rfl rfl), fun x hx => ?_⟩
  obtain ⟨hmem, hid⟩ := List.mem_filter.mp hx
  have hp : (x.id, x.gid) ∈ s.images.map fun m => (m.id, m.gid) := hu.images ▸ List.mem_map_of_mem hmem
  exact ⟨List.mem_map.mp hp, fun y hy => List.mem_singleton.mp hy ▸ by simpa using hid⟩

theorem endsImages_all : ∀ (l : List Image) (s : State), EndsImages l s (l.foldl (fun a m => a.endImage m) s)
  | [], s => ⟨rfl, rfl, .refl s, fun x hx => ⟨⟨x, hx, rfl⟩, fun _ h => (nomatch h)⟩⟩
  | m :: l, s => by
    have h1 := endsImages_endImage s m
    have h2 := endsImages_all l (s.endImage m)
    refine ⟨h2.groups.trans h1.groups, h2.seqs.trans h1.seqs, h1.course.trans h2.course, fun x hx => ?_⟩
    obtain ⟨⟨y, hy, hxy⟩, hl⟩ := h2.images x hx
    obtain ⟨⟨z, hz, hyz⟩, hm⟩ := h1.images y hy
    refine ⟨⟨z, hz, hyz.trans hxy⟩, fun w hw => ?_⟩
    have hid : y.id = x.id := congrArg Prod.fst hxy
    rcases List.mem_cons.mp hw with rfl | hw
    · exact hid ▸ hm w (List.mem_singleton_self w)
    · exact hl w hw

/-! ## Threads that end -/

/-- Every thread belongs to the group that it did, and its status stands unless it is gone. -/
def Emptying (s t : State) : Prop :=
  ∀ n k, k < 4 → (t.thread n k).gid = (s.thread n k).gid ∧
    ((t.thread n k).status = (s.thread n k).status ∨ (t.thread n k).status = .empty)

namespace Emptying

variable {s t u : State}

theorem of_sameCourse (h : SameCourse s t) : Emptying s t := fun n k _ =>
  ⟨(congrArg Thread.gid (h.threads n k) :), .inl (congrArg Thread.status (h.threads n k) :)⟩

theorem trans (h : Emptying s t) (j : Emptying t u) : Emptying s u := fun n k hk => by
  obtain ⟨hg, hs⟩ := h n k hk
  obtain ⟨jg, js⟩ := j n k hk
  refine ⟨jg.trans hg, ?_⟩
  rcases js with js | js
  · rw [js]
    exact hs
  · exact .inr js

theorem of_oneThread {tile slot : Nat} (h : OneThread tile slot s t) (he : slot < 4 → (t.thread tile slot).status = .empty) :
    Emptying s t := fun n k hk => by
  by_cases hx : n = tile ∧ k = slot
  · obtain ⟨rfl, rfl⟩ := hx
    exact ⟨h.gid, .inr (he hk)⟩
  · exact ⟨(congrArg Thread.gid (h.others n k hx) :), .inl (congrArg Thread.status (h.others n k hx) :)⟩

theorem empty (h : Emptying s t) {n k : Nat} (hk : k < 4) (hs : (s.thread n k).status = .empty) :
    (t.thread n k).status = .empty := by
  rcases (h n k hk).2 with h | h
  · exact h.trans hs
  · exact h

end Emptying

namespace OneThread

theorem writeAmo (tile slot : Nat) (s : State) (gid : Nat) (o : Outstanding) (q : QueuedRead) (old : Word) :
    OneThread tile slot s (s.writeAmo tile gid o q old) := by
  unfold State.writeAmo
  split
  · exact refl s
  · exact of_calm (Calm.writeOver s _ _ _ _ _)

theorem readNow (s : State) (tile slot : Nat) (o : Outstanding) (q : QueuedRead) :
    OneThread tile slot s (s.readNow tile slot o q) := by
  unfold State.readNow
  extract_lets gid fromMemory
  split
  · exact (modThread s (fun th => { th with outstanding := th.outstanding.filter fun x => x.id != o.id }) fun _ => rfl).trans
      (takeTrap _ tile slot _)
  · next v net s1 b s2 _ _ =>
    have h1 : OneThread tile slot s s1 := writeAmo tile slot s gid o q v
    have hb : Calm s1 b.2 := by
      refine Calm.trans ?_ (Calm.takeBank _ _ _ _)
      split
      · exact Calm.noteRead s1 _ _ _
      · exact .refl s1
    have h2 : OneThread tile slot s s2 := (h1.trans (of_calm hb)).trans (modThread b.2 _ fun _ => rfl)
    split
    · exact h2.trans (of_calm (Calm.send s2 _ _ _ _ _))
    · exact h2

theorem foldl {tile slot : Nat} {α : Type} (f : State → α → State) (hf : ∀ s a, OneThread tile slot s (f s a)) :
    ∀ (l : List α) (s : State), OneThread tile slot s (l.foldl f s)
  | [], s => refl s
  | a :: l, s => (hf s a).trans (foldl f hf l _)

theorem endThread (s : State) (tile slot : Nat) : OneThread tile slot s (s.endThread tile slot) := by
  unfold State.endThread
  extract_lets th s1 s2
  have h1 : Calm s s1 := (Calm.giveUp s tile slot _).trans (Calm.performAll tile slot th.gid th.inflight _)
  have h2 : OneThread tile slot s1 s2 := by
    refine foldl _ (fun a o => ?_) _ s1
    split
    · split
      · exact readNow a tile slot _ _
      · exact refl a
    · exact refl a
  exact ((of_calm h1).trans h2).trans (modThread s2 _ fun _ => rfl)

end OneThread

theorem endThread_status (s : State) (tile : Nat) {slot : Nat} (h : slot < 4) :
    ((s.endThread tile slot).thread tile slot).status = .empty := by
  unfold State.endThread
  dsimp only
  unfold State.modThread
  rw [thread_setThread_same _ _ _ h]

theorem emptying_endThread (s : State) (tile slot : Nat) : Emptying s (s.endThread tile slot) :=
  .of_oneThread (.endThread s tile slot) (endThread_status s tile)

/-- The threads of a group, in a list of slots, ended. -/
def State.endThreads (s : State) (gid : Nat) (l : List (Nat × Nat)) : State :=
  l.foldl (fun a x => if (a.thread x.1 x.2).gid = gid then a.endThread x.1 x.2 else a) s

theorem endThreads_cons (s : State) (gid : Nat) (x : Nat × Nat) (l : List (Nat × Nat)) :
    s.endThreads gid (x :: l) =
      (if (s.thread x.1 x.2).gid = gid then s.endThread x.1 x.2 else s).endThreads gid l := rfl

theorem endThreads_step (s : State) (gid : Nat) (x : Nat × Nat) :
    let t := if (s.thread x.1 x.2).gid = gid then s.endThread x.1 x.2 else s
    SameBooks s t ∧ Emptying s t := by
  dsimp only
  split
  · exact ⟨(OneThread.endThread s x.1 x.2).toSameBooks, emptying_endThread s x.1 x.2⟩
  · exact ⟨.refl s, .of_sameCourse (.refl s)⟩

theorem endThreads_keeps (gid : Nat) : ∀ (l : List (Nat × Nat)) (s : State),
    SameBooks s (s.endThreads gid l) ∧ Emptying s (s.endThreads gid l)
  | [], s => ⟨.refl s, .of_sameCourse (.refl s)⟩
  | x :: l, s => by
    obtain ⟨hb, he⟩ := endThreads_step s gid x
    obtain ⟨kb, ke⟩ := endThreads_keeps gid l (if (s.thread x.1 x.2).gid = gid then s.endThread x.1 x.2 else s)
    rw [endThreads_cons]
    exact ⟨hb.trans kb, he.trans ke⟩

/-- Every thread of the group in the list is gone (R346). -/
theorem endThreads_empty (gid : Nat) {y : Nat × Nat} (hy : y.2 < 4) : ∀ (l : List (Nat × Nat)) (s : State), y ∈ l →
    (s.thread y.1 y.2).gid = gid → ((s.endThreads gid l).thread y.1 y.2).status = .empty
  | x :: l, s, hmem, hgid => by
    rw [endThreads_cons]
    by_cases hx : y = x
    · subst hx
      rw [if_pos hgid]
      exact (endThreads_keeps gid l _).2.empty hy (endThread_status s y.1 hy)
    · exact endThreads_empty gid hy l _ ((List.mem_cons.mp hmem).resolve_left hx)
        (((endThreads_step s gid x).2 y.1 y.2 hy).1.trans hgid)

/-! ## The resources of a group that ends -/

theorem freeThreads_keeps (l : List (Nat × Nat)) (s : State) :
    let t := l.foldl (fun a x => a.modThread x.1 x.2 fun th => { th with status := .empty }) s
    SameBooks s t ∧ Emptying s t := by
  induction l generalizing s with
  | nil => exact ⟨.refl s, .of_sameCourse (.refl s)⟩
  | cons x l ih =>
    have h1 : OneThread x.1 x.2 s (s.modThread x.1 x.2 fun th => { th with status := .empty }) := .modThread s _ fun _ => rfl
    have he : Emptying s (s.modThread x.1 x.2 fun th => { th with status := .empty }) :=
      .of_oneThread h1 fun h => by
        unfold State.modThread
        rw [thread_setThread_same _ _ _ h]
    obtain ⟨hb, hs⟩ := ih (s.modThread x.1 x.2 fun th => { th with status := .empty })
    exact ⟨h1.toSameBooks.trans hb, he.trans hs⟩

/-- The group as its end leaves it (R307). -/
def Group.freed (g : Group) : Group := { g with ended := true, slots := [], texts := [], rects := [], tokmask := 0#64 }

/-- What freeing a group changes of the books and of the threads (R307). -/
theorem freeGroup_keeps (s : State) (g : Group) :
    (s.freeGroup g).group? g.gid = (s.group? g.gid).map Group.freed ∧ (s.freeGroup g).seqs = s.seqs ∧
      (∀ m ∈ (s.freeGroup g).images, m.gid ≠ g.gid) ∧ Emptying s (s.freeGroup g) := by
  let l := s.images.filter fun m => m.gid == g.gid
  let s1 := l.foldl (fun a m => a.endImage m) s
  let s2 := g.slots.foldl (fun a x => a.modThread x.1 x.2 fun th => { th with status := .empty }) s1
  let s3 := g.members.foldl (fun a t => a.modPool t fun q => q.disown g.gid) s2
  have h1 : EndsImages l s s1 := endsImages_all l s
  obtain ⟨b2, e2⟩ := freeThreads_keeps g.slots s1
  have h3 : Calm s2 s3 := .foldl _ (fun a t => Calm.modCtx a t _) _ s2
  have hgone : ∀ m ∈ s1.images, m.gid ≠ g.gid := by
    intro x hx hgid
    obtain ⟨⟨m, hm, hmx⟩, hl⟩ := h1.images x hx
    have hid : m.id = x.id := congrArg Prod.fst hmx
    have hg : m.gid = g.gid := (congrArg Prod.snd hmx :).trans hgid
    exact hl m (List.mem_filter.mpr ⟨hm, by simp [hg]⟩) hid.symm
  have he : Emptying s s3 := ((Emptying.of_sameCourse h1.course).trans e2).trans (.of_sameCourse h3.toSameCourse)
  refine ⟨?_, (h3.seqs.trans b2.seqs).trans h1.seqs, (b2.trans h3.toSameBooks).noImages hgone, he⟩
  calc (s.freeGroup g).group? g.gid = (s3.group? g.gid).map Group.freed :=
        group?_modGroup s3 g.gid Group.freed fun _ => rfl
    _ = (s.group? g.gid).map Group.freed := by
        rw [group?_congr ((h3.groups.trans b2.groups).trans h1.groups)]

/-- A group that is counted and freed has ended. -/
theorem ends_of_freed {s u : State} {g h : Group} (hq : u.seqs = s.seqs) (hg : u.group? g.gid = some h) :
    Ends s g ((u.countEnd g true).freeGroup g) := by
  obtain ⟨kg, kq, ki, _⟩ := freeGroup_keeps (u.countEnd g true) g
  refine ⟨⟨h.freed, ?_, rfl⟩, ki, fun n hn => ?_⟩
  · rw [kg, group?_countEnd, hg]
    rfl
  · rw [node?_congr kq]
    exact node?_countEnd u g ((node?_congr hq _ _ _).trans hn)

/-! ## A group in shadow storage -/

/-- R346: TERMINATE ends at once a group whose context stands in shadow storage. -/
theorem terminateAway_ends {s : State} {g : Group} (hg : s.group? g.gid = some g) : Ends s g (s.terminateAway g) := by
  let imgs := (s.images.filter fun m => m.gid == g.gid).map (·.id)
  let s1 := g.members.foldl (fun a t =>
    (((a.tile t).shadow.cmds.filter fun c => c.gid == g.gid && !c.armed).foldl (fun b c => b.engineLog t c 0x18 0) a).modTile
      t fun x => { x with shadow := x.shadow.dropGroup g imgs }) s
  let s2 := { s1 with images := s1.images.filter fun m => m.gid != g.gid }.modPkg fun k =>
    { k with homesAway := ⟨k.homesAway.items.map fun (h : Nat × Home) => (h.1, h.2.without imgs.contains)⟩ }
  let f (h : Group) : Group := { h with ended := true, away := false, slots := [], texts := [], rects := [], tokmask := 0#64 }
  have h1 : Calm s s1 := .foldl _ (fun a t => (Calm.foldl _ (fun b c => Calm.engineLog b t c _ _) _ a).trans
    (Calm.modTile _ t fun x => { x with shadow := x.shadow.dropGroup g imgs })) _ s
  have hc := countEnd_calm s2 g true
  have hgone : ∀ m ∈ s2.images, m.gid ≠ g.gid := fun m hm => by simpa using (List.mem_filter.mp hm).2
  refine ⟨⟨f g, ?_, rfl⟩, hc.toSameBooks.noImages hgone, fun n hn => ?_⟩
  · calc (s.terminateAway g).group? g.gid = ((s2.countEnd g true).group? g.gid).map f :=
          group?_modGroup (s2.countEnd g true) g.gid f fun _ => rfl
      _ = (s.group? g.gid).map f := by rw [group?_countEnd, group?_congr (s := s) (t := s2) h1.groups]
      _ = some (f g) := by rw [hg]; rfl
  · exact node?_countEnd s2 g ((node?_congr (s := s) (t := s2) h1.seqs _ _ _).trans hn)

/-! ## A group that runs -/

/-- The state in which a group that runs has been stopped: its TEs, its threads and its commands (R346). -/
def State.groupStopped (s : State) (g : Group) : State :=
  (g.members.foldl (fun a t => a.preemptCmds g.gid t)
    (((s.images.filter fun m => m.gid == g.gid).foldl (fun a m => a.stopTes m) s).endThreads g.gid g.slots)).modGroup g.gid
      fun h => { h with terminated := true }

theorem terminateLive_eq (s : State) (g : Group) : s.terminateLive g = (s.groupStopped g).endTerminated g := rfl

/-- What the stop of a group changes of the books, and that its threads are gone. -/
theorem groupStopped_keeps {s : State} {g : Group} (hg : s.group? g.gid = some g) :
    (s.groupStopped g).group? g.gid = some { g with terminated := true } ∧ (s.groupStopped g).seqs = s.seqs ∧
      ∀ x ∈ g.slots, x.2 < 4 → (s.thread x.1 x.2).gid = g.gid → ((s.groupStopped g).thread x.1 x.2).status = .empty := by
  let s1 := (s.images.filter fun m => m.gid == g.gid).foldl (fun a m => a.stopTes m) s
  let s2 := s1.endThreads g.gid g.slots
  let s3 := g.members.foldl (fun a t => a.preemptCmds g.gid t) s2
  have h1 : Calm s s1 := .foldl _ Calm.stopTes _ s
  have b2 : SameBooks s1 s2 := (endThreads_keeps g.gid g.slots s1).1
  have h3 : Calm s2 s3 := .foldl _ (fun a t => Calm.preemptCmds a g.gid t) _ s2
  have hb : SameBooks s s3 := (h1.toSameBooks.trans b2).trans h3.toSameBooks
  refine ⟨?_, hb.seqs, fun x hx hk hgid => ?_⟩
  · calc (s.groupStopped g).group? g.gid = (s3.group? g.gid).map fun h => { h with terminated := true } :=
          group?_modGroup s3 g.gid (fun h => { h with terminated := true }) fun _ => rfl
      _ = some { g with terminated := true } := by rw [group?_congr hb.groups, hg]; rfl
  · have he : ((s2.thread x.1 x.2)).status = .empty :=
      endThreads_empty g.gid hk g.slots s1 hx ((congrArg Thread.gid (h1.threads x.1 x.2) :).trans hgid)
    exact (congrArg Thread.status (h3.threads x.1 x.2) :).trans he

/-- R346: TERMINATE stops the threads of a group that runs, and the group ends, at once or once what it wrote is visible. -/
theorem terminateLive_stops {s : State} {g : Group} (hg : s.group? g.gid = some g) (hend : g.ended = false) :
    (∀ x ∈ g.slots, x.2 < 4 → (s.thread x.1 x.2).gid = g.gid → ((s.terminateLive g).thread x.1 x.2).status = .empty) ∧
      (Ends s g (s.terminateLive g) ∨
        ∃ h, (s.terminateLive g).group? g.gid = some h ∧ h.ended = false ∧ h.terminated = true) := by
  obtain ⟨kg, kq, ke⟩ := groupStopped_keeps hg
  rw [terminateLive_eq, State.endTerminated]
  split
  · refine ⟨fun x hx hk hgid => ?_, .inl (ends_of_freed kq kg)⟩
    have hc : Emptying (s.groupStopped g) ((s.groupStopped g).countEnd g true) := .of_sameCourse (sameCourse_countEnd _ g true)
    exact (hc.trans (freeGroup_keeps _ g).2.2.2).empty hk (ke x hx hk hgid)
  · exact ⟨ke, .inr ⟨_, kg, hend, rfl⟩⟩

/-! ## A group with nothing on its way -/

/-- Nothing of a group is on its way: no write of its has left its die, none of its instances commits, its tiles hold no
command of its, and its threads have nothing outstanding. -/
structure IdleGroup (s : State) (g : Group) : Prop where
  far : ∀ w ∈ s.pkg.far, w.gid ≠ g.gid
  images : ∀ m ∈ s.images, m.gid = g.gid → m.committing = false
  cmds : ∀ n ∈ g.members, ∀ c ∈ (s.ctx n).cmds, c.gid ≠ g.gid
  threads : ∀ n k, (s.thread n k).gid = g.gid → (s.thread n k).inflight = [] ∧ (s.thread n k).departing = [] ∧
    (s.thread n k).held = [] ∧ (s.thread n k).outstanding = []

/-- A tile has no thread beyond its four slots (R237). -/
theorem thread_outside (s : State) (n : Nat) {k : Nat} (h : 4 ≤ k) : s.thread n k = {} := by
  unfold State.thread vget
  rw [Vector.getElem?_eq_none h]
  rfl

namespace IdleGroup

variable {s : State} {g : Group}

theorem modCtx (h : IdleGroup s g) (n : Nat) (f : Context → Context)
    (hf : ∀ c, (f c).cmds = c.cmds ∧ (f c).threads = c.threads) : IdleGroup (s.modCtx n f) g := by
  have hc (m : Nat) : ((s.modCtx n f).ctx m).cmds = (s.ctx m).cmds := by
    by_cases hm : m = n
    · rw [hm, ctx_modCtx_same, (hf _).1]
    · rw [ctx_modCtx_ne s f hm]
  have ht (m k : Nat) : (s.modCtx n f).thread m k = s.thread m k := 
    congrArg (fun v : Vector Thread 4 => vget v k {}) (modCtx_keeps (·.threads) (fun c => (hf c).2) s n m)
  exact ⟨h.far, h.images, fun m hm => by rw [hc]; exact h.cmds m hm, fun m k => by rw [ht]; exact h.threads m k⟩

theorem modTeAt (h : IdleGroup s g) (p : TeId) (f : TE → TE) : IdleGroup (s.modTeAt p f) g := by
  unfold State.modTeAt State.modTe State.setTe
  exact h.modCtx p.1 _ fun _ => ⟨rfl, rfl⟩

theorem stopTes (h : IdleGroup s g) (m : Image) : IdleGroup (s.stopTes m) g := by
  have h1 : IdleGroup (m.tes.foldl (fun a p => a.modTeAt p fun e => { e with started := false, holding := none }) s) g :=
    List.foldlRecOn (motive := fun a => IdleGroup a g) _ _ h fun _ ha p _ => ha.modTeAt p _
  have hkeep (y : Image) : (if y.id == m.id then { y with started := false } else y).gid = y.gid ∧
      (if y.id == m.id then { y with started := false } else y).committing = y.committing := by
    split <;> exact ⟨rfl, rfl⟩
  refine ⟨h1.far, fun x hx hgid => ?_, h1.cmds, h1.threads⟩
  obtain ⟨y, hy, rfl⟩ := List.mem_map.mp hx
  exact (hkeep y).2.trans (h1.images y hy ((hkeep y).1.symm.trans hgid))

/-- Such a thread has nothing that its end performs. -/
theorem endThread_eq (h : IdleGroup s g) {n k : Nat} (hgid : (s.thread n k).gid = g.gid) :
    s.endThread n k = (s.giveUp n k []).modThread n k fun x =>
      { x with status := .empty, buffered := [], held := [], departing := [], inflight := [], outstanding := [],
               waiting := false } := by
  obtain ⟨hi, hd, hh, ho⟩ := h.threads n k hgid
  unfold State.endThread
  dsimp only
  rw [hi, hd, hh, ho]
  rfl

theorem modThread (h : IdleGroup s g) (n k : Nat) (f : Thread → Thread)
    (hf : ∀ th, (f th).inflight = [] ∧ (f th).departing = [] ∧ (f th).held = [] ∧ (f th).outstanding = []) :
    IdleGroup (s.modThread n k f) g := by
  have hc (m : Nat) : ((s.modThread n k f).ctx m).cmds = (s.ctx m).cmds := 
    modCtx_keeps (·.cmds) (f := fun c => { c with threads := vset c.threads k (f (s.thread n k)) }) (fun _ => rfl) s n m
  refine ⟨h.far, h.images, fun m hm => by rw [hc]; exact h.cmds m hm, fun m j hgid => ?_⟩
  by_cases hj : 4 ≤ j
  · rw [thread_outside _ m hj]
    exact ⟨rfl, rfl, rfl, rfl⟩
  · by_cases hx : m = n ∧ j = k
    · obtain ⟨rfl, rfl⟩ := hx
      unfold State.modThread
      rw [thread_setThread_same s m _ (by omega)]
      exact hf _
    · unfold State.modThread at hgid ⊢
      rw [thread_setThread_ne s _ hx] at hgid ⊢
      exact h.threads m j hgid

theorem endThreads (h : IdleGroup s g) : ∀ l : List (Nat × Nat), IdleGroup (s.endThreads g.gid l) g := fun l =>
  List.foldlRecOn (motive := fun a => IdleGroup a g) l _ h fun a ha x _ => by
    split
    · next hgid =>
      rw [ha.endThread_eq hgid]
      have h1 : IdleGroup (a.giveUp x.1 x.2 []) g := ha.modCtx x.1 _ fun _ => ⟨rfl, rfl⟩
      refine h1.modThread x.1 x.2 _ fun _ => ?_
      exact ⟨rfl, rfl, rfl, rfl⟩
    · exact ha

/-- No command of the group is left for TERMINATE to end. -/
theorem preemptCmds_eq (h : IdleGroup s g) {n : Nat} (hn : n ∈ g.members) : s.preemptCmds g.gid n = s := by
  have hnone : ((s.ctx n).cmds.filter fun c => c.gid == g.gid && !c.armed) = [] :=
    List.filter_eq_nil_iff.mpr fun c hc => by simp [h.cmds n hn c hc]
  unfold State.preemptCmds
  rw [hnone]
  rfl

theorem preemptAll (h : IdleGroup s g) : IdleGroup (g.members.foldl (fun a t => a.preemptCmds g.gid t) s) g :=
  List.foldlRecOn (motive := fun a => IdleGroup a g) _ _ h fun a ha n hn => by
    rw [ha.preemptCmds_eq hn]
    exact ha

theorem groupStopped (h : IdleGroup s g) : IdleGroup (s.groupStopped g) g := by
  have h1 : IdleGroup ((s.images.filter fun m => m.gid == g.gid).foldl (fun a m => a.stopTes m) s) g :=
    List.foldlRecOn (motive := fun a => IdleGroup a g) _ _ h fun a ha m _ => ha.stopTes m
  obtain ⟨hf, hi, hc, ht⟩ := (h1.endThreads g.slots).preemptAll
  exact ⟨hf, hi, hc, ht⟩

/-- A group with nothing on its way is quiet on each of its tiles (R296). -/
theorem quietOn (h : IdleGroup s g) {n : Nat} (hn : n ∈ g.members) : s.quietOn g n = true := by
  have hcmds : ((s.ctx n).cmds.any fun c => c.gid == g.gid && !c.armed) = false :=
    List.any_eq_false.mpr fun c hc => by simp [h.cmds n hn c hc]
  have hfar : (s.pkg.far.any fun w => w.gid == g.gid && w.tile == n && w.space == .g) = false :=
    List.any_eq_false.mpr fun w hw => by simp [h.far w hw]
  have himages : (s.images.any fun m => m.gid == g.gid && m.committing) = false :=
    List.any_eq_false.mpr fun m hm => by
      by_cases hg : m.gid = g.gid
      · simp [h.images m hm hg]
      · simp [hg]
  have hthreads : ((s.ctx n).threads.toList.all fun th => th.gid != g.gid ||
      (th.held.isEmpty && th.departing.isEmpty && th.inflight.isEmpty && th.outstanding.all (·.queued.isNone))) = true := by
    refine List.all_eq_true.mpr fun th hth => ?_
    obtain ⟨k, hk, rfl⟩ := List.mem_iff_getElem.mp hth
    have hk4 : k < 4 := by simpa using hk
    have he : (s.ctx n).threads.toList[k] = s.thread n k := by
      unfold State.thread vget
      rw [Vector.getElem?_eq_getElem hk4]
      rfl
    rw [he]
    by_cases hg : (s.thread n k).gid = g.gid
    · obtain ⟨hi, hd, hh, ho⟩ := h.threads n k hg
      simp [hi, hd, hh, ho]
    · simp [hg]
  unfold State.quietOn
  rw [hcmds, hfar, himages, hthreads]
  rfl

/-- R296, R346: TERMINATE ends such a group at once. -/
theorem terminateLive_ends (h : IdleGroup s g) (hg : s.group? g.gid = some g) : Ends s g (s.terminateLive g) := by
  obtain ⟨kg, kq, _⟩ := groupStopped_keeps hg
  rw [terminateLive_eq, State.endTerminated, if_pos (List.all_eq_true.mpr fun n hn => h.groupStopped.quietOn hn)]
  exact ends_of_freed kq kg

end IdleGroup

/-! ## The event -/

theorem exec_terminate_of_group {s : State} {g : Group} (hg : s.group? g.gid = some g) (hend : g.ended = false) :
    exec (.terminate g.gid) s = .next (if g.away then s.terminateAway g else if g.terminated then s.endTerminated g
      else s.terminateLive g) := by
  rw [exec_terminate, execTerminate, State.terminate, hg]
  dsimp only
  rw [hend]
  rfl

theorem partitionsSwapResumeAndTerminate : PartitionsSwapResumeAndTerminate := by
  intro part p s hp
  refine ⟨swap_exchanges hp, resume_goes_on hp, fun gid g hg hend => ?_, fun plot => nodeBoundary_saves s⟩
  obtain rfl := gid_of_group? hg
  have unpack {t : State} (h : Ends s g t) : ∃ k, t.group? g.gid = some k ∧ k.ended = true ∧
      (∀ m ∈ t.images, m.gid ≠ g.gid) ∧ ∀ n, s.node? g.plot g.graph g.node = some n →
        t.node? g.plot g.graph g.node = some { n with ended := n.ended + 1, faults := n.faults + 1 } :=
    h.group.imp fun k hk => ⟨hk.1, hk.2, h.images, h.node⟩
  have he := exec_terminate_of_group hg hend
  refine ⟨fun haway => ?_, fun haway hterm => ?_⟩
  · rw [haway] at he
    exact ⟨_, he, unpack (terminateAway_ends hg)⟩
  · rw [haway, hterm] at he
    obtain ⟨hslots, hor⟩ := terminateLive_stops hg hend
    refine ⟨⟨_, he, hslots, hor.imp_left unpack⟩, fun hfar himages hcmds hthreads => ⟨_, he, unpack ?_⟩⟩
    refine IdleGroup.terminateLive_ends ⟨hfar, himages, hcmds, fun n k hgid => ?_⟩ hg
    by_cases hk : k < 4
    · exact hthreads n k hk hgid
    · rw [thread_outside s n (by omega)]
      exact ⟨rfl, rfl, rfl, rfl⟩

/-- Settles O54: a stop wave's tiles stop with their regions discarded, in the order of `State.stopTile`; TERMINATE goes through
the frames of the threads' ends and of the group's; SWAP, RESUME and the pre-emption go through their folds. -/
theorem partitionsStopAndResume : Obligations.PartitionsStopAndResume :=
  ⟨stopWavesStopTheirTiles, partitionsSwapResumeAndTerminate⟩

end Sys2Proof.Machine
end

section
/-! SUPPORT. The register words compute what R60, R61 and R63 to R65 write down (O1). -/

namespace Sys2Proof.Machine

open Sys2Proof.Claims

/-! ## The values of the register words -/

/-- Bits 5:0 of a word are the word mod 64. -/
theorem bits_low_six (w : Word) : bits w 5 0 = w.toNat % 64 := by simp [bits]

theorem newest_eq (th : Thread) (d : BitVec 5) :
    th.newest d = if th.lastSet = some d then
      ((th.pend.filter fun q => q.reg == d.toNat).getLast?.map (·.value)).getD (th.reg d) else th.reg d := by
  unfold Thread.newest
  split
  · cases (th.pend.filter fun q => q.reg == d.toNat).getLast? <;> rfl
  · rfl

theorem issueWord_result_congr {i : Instr} {c : Ctl} {d : BitVec 5} {lat : Nat} {f g : Thread → Word} {s : State}
    (h : ∀ th, g th = f th) : issueWord i c (resultBody d lat g) s = issueWord i c (resultBody d lat f) s := by
  rw [funext h]

/-- Each word of the register table issues with the value of its row. -/
theorem exec_registerWord_eq {i : Instr} {c : Ctl} {d : BitVec 5} {lat : Nat} {f : Thread → Word}
    (h : RegisterWord i c d lat f) (s : State) : exec i s = issueWord i c (resultBody d lat f) s := by
  cases h
  case shl a b => exact issueWord_result_congr fun th => by rw [bits_low_six]
  case shr a b => exact issueWord_result_congr fun th => by rw [bits_low_six]
  case sra a b => exact issueWord_result_congr fun th => by rw [bits_low_six]
  case min a b => exact issueWord_result_congr fun th => by simp [BitVec.slt]
  case max a b => exact issueWord_result_congr fun th => by simp [BitVec.slt]
  case minu a b => exact issueWord_result_congr fun th => by simp [BitVec.ult]
  case maxu a b => exact issueWord_result_congr fun th => by simp [BitVec.ult]
  case sext a b => exact issueWord_result_congr fun th => by rw [bits_low_six]
  case mul a b => exact issueWord_result_congr fun th => by rw [BitVec.ofNat_mul, BitVec.ofNat_toNat, BitVec.ofNat_toNat]; simp
  case rotl a b => exact issueWord_result_congr fun th => by rw [bits_low_six]
  case setsh imm => exact issueWord_result_congr fun th => by rw [newest_eq]
  all_goals rfl

/-- The value of a register word depends on the registers, the pending results and the bypass alone. -/
theorem registerWord_congr {i : Instr} {c : Ctl} {d : BitVec 5} {lat : Nat} {f : Thread → Word}
    (h : RegisterWord i c d lat f) {x y : Thread} (hr : ∀ r, x.reg r = y.reg r) (hp : x.pend = y.pend)
    (hl : x.lastSet = y.lastSet) : f x = f y := by
  cases h <;> simp only [hr, hp, hl]

/-- Settles O1: each row issues one fixed-latency result, whose value reads the same at the issue as at the start of the
cycle. -/
theorem registerWordsWriteTheirResult : Obligations.RegisterWordsWriteTheirResult := by
  intro i c d lat f s hi h
  have hs := slot_of_issues h
  obtain ⟨t, ht, hget, honly⟩ := resultBody_spec d f (exec_registerWord hi).1 h
  have hv : f (s.atIssue i c).cur = f s.begin.cur :=
    registerWord_congr hi (atIssue_reg s i c hs) (pend_of_lasting (atIssue_lasting s i c hs)) (atIssue_cur_lastSet s i c hs)
  exact ⟨t, (exec_registerWord_eq hi s).trans ht, hv ▸ hget, honly⟩

end Sys2Proof.Machine
end

section
/-! SUPPORT. The predicate words compute what R67 and R68 write down (O2). -/

namespace Sys2Proof.Machine

open Sys2Proof.Claims

/-! ## Conditions on words -/

/-- The two's complement of all 64 bits of a word is the word's own. -/
theorem toInt_word (w : Word) : toInt w.toNat 64 = w.toInt := by
  have hlt := w.isLt
  rw [BitVec.toInt_eq_toNat_cond]
  unfold toInt
  rw [Nat.mod_eq_of_lt hlt]
  split <;> split <;> omega

/-- The six conditions that compare hold for two words as for their values (R67). -/
theorem condition_compares (x v : Word) (mask : Nat) :
    condition 0 64 x.toNat v.toNat mask = (x == v) ∧ condition 1 64 x.toNat v.toNat mask = (x != v) ∧
      condition 2 64 x.toNat v.toNat mask = decide (x.toInt < v.toInt) ∧
      condition 3 64 x.toNat v.toNat mask = decide (v.toInt ≤ x.toInt) := by
  have he : (x.toNat == v.toNat) = (x == v) := by simp [← BitVec.toNat_inj, beq_eq_beq]
  refine ⟨he, congrArg (!·) he, ?_, ?_⟩
  · simp only [condition, toInt_word]
  · simp only [condition, toInt_word]

/-- A mask that is a word meets a word where their conjunction is not 0. -/
theorem mask_word_beq_zero (x v : Word) : ((x.toNat &&& v.toNat) == 0) = (x &&& v == 0#64) := by
  rw [← BitVec.toNat_and, Bool.eq_iff_iff, beq_iff_eq, beq_iff_eq, ← BitVec.toNat_inj]
  rfl

/-- A mask of one bit meets a word where the word has that bit. -/
theorem mask_bit_beq_zero (x : Word) (k : Nat) : ((x.toNat &&& 2 ^ k) == 0) = !x.getLsbD k := by
  rw [Nat.and_two_pow]
  unfold BitVec.getLsbD
  cases x.toNat.testBit k <;> simp

/-- CMP's table of R67. -/
theorem condition_cmp (n : Nat) (x v : Word) :
    condition n 64 x.toNat v.toNat v.toNat = (match n with
      | 0 => x == v
      | 1 => x != v
      | 2 => decide (x.toInt < v.toInt)
      | 3 => decide (v.toInt ≤ x.toInt)
      | 4 => decide (x.toNat < v.toNat)
      | 5 => decide (v.toNat ≤ x.toNat)
      | 6 => x &&& v != 0#64
      | _ => x &&& v == 0#64) := by
  obtain ⟨h0, h1, h2, h3⟩ := condition_compares x v v.toNat
  have hm := mask_word_beq_zero x v
  split
  · exact h0
  · exact h1
  · exact h2
  · exact h3
  · rfl
  · rfl
  · exact congrArg (!·) hm
  · simpa [condition] using hm

/-- CMPI's table of R67: the last two conditions test bit v mod 64. -/
theorem condition_cmpi (n : Nat) (x v : Word) :
    condition n 64 x.toNat v.toNat (2 ^ bits v 5 0) = (match n with
      | 0 => x == v
      | 1 => x != v
      | 2 => decide (x.toInt < v.toInt)
      | 3 => decide (v.toInt ≤ x.toInt)
      | 4 => decide (x.toNat < v.toNat)
      | 5 => decide (v.toNat ≤ x.toNat)
      | 6 => x.getLsbD (v.toNat % 64)
      | _ => !x.getLsbD (v.toNat % 64)) := by
  obtain ⟨h0, h1, h2, h3⟩ := condition_compares x v (2 ^ bits v 5 0)
  have hm := mask_bit_beq_zero x (bits v 5 0)
  rw [← bits_low_six]
  split
  · exact h0
  · exact h1
  · exact h2
  · exact h3
  · rfl
  · rfl
  · exact (congrArg (!·) hm).trans (Bool.not_not _)
  · simpa [condition] using hm

/-! ## The words -/

/-- A word of the predicate table issues with the value of its row, and with the pair bit that its row names. -/
theorem exec_predicateWord_eq {i : Instr} {c : Ctl} {pd : BitVec 4} {pair : Bool} {f : Thread → Bool}
    (h : PredicateWord i c pd pair f) (s : State) :
    ∃ bit : BitVec 1, pair = (bit == 1#1) ∧ exec i s = issueWord i c (predBody pd bit f) s := by
  cases h
  case cmp cond a b pair =>
    refine ⟨pair, rfl, congrArg (fun g => issueWord _ c (predBody pd pair g) s) (funext fun th => ?_)⟩
    exact condition_cmp cond.toNat (th.reg a) (th.reg b)
  case cmpi cond a imm pair =>
    refine ⟨pair, rfl, congrArg (fun g => issueWord _ c (predBody pd pair g) s) (funext fun th => ?_)⟩
    exact condition_cmpi cond.toNat (th.reg a) (imm.signExtend 64)
  all_goals exact ⟨0#1, rfl, rfl⟩

/-- The value of a predicate word depends on the registers and the predicates alone. -/
theorem predicateWord_congr {i : Instr} {c : Ctl} {pd : BitVec 4} {pair : Bool} {f : Thread → Bool}
    (h : PredicateWord i c pd pair f) {x y : Thread} (hr : ∀ r, x.reg r = y.reg r) (hp : ∀ p, x.pred p = y.pred p) :
    f x = f y := by
  cases h <;> simp only [hr, hp]

/-- Settles O2: each row issues one predicate result, whose value reads the same at the issue as at the start of the
cycle. -/
theorem predicateWordsWriteTheirPredicate : Obligations.PredicateWordsWriteTheirPredicate := by
  intro i c pd pair f s hi h
  have hs := slot_of_issues h
  obtain ⟨bit, rfl, he⟩ := exec_predicateWord_eq hi s
  obtain ⟨t, ht, hrest⟩ := predBody_spec pd bit f h
    (predicateWord_congr hi (atIssue_reg s i c hs) (atIssue_pred s i c hs))
  exact ⟨t, he.trans ht, hrest⟩

end Sys2Proof.Machine
end

section
/-! SUPPORT. Words whose effect ends in a taken branch or in one fixed-latency result (R40, R52, R70). -/

namespace Sys2Proof.Machine

open Sys2Proof.Claims

/-! ## What a result leaves, and taken branches -/

/-- A thread whose values are those of the start of the cycle and one more result of a fixed latency reads that result from
its latency on, and every other register and every predicate as before (R52). -/
theorem reads_of_result {s t : State} {d : BitVec 5} {v : Word} {lat : Nat} (hl : 0 < lat)
    (hr : t.cur.regs = s.begin.cur.regs) (hq : t.cur.preds = s.begin.cur.preds)
    (hp : t.cur.pend = (s.begin.cur.result s.now d v lat).pend) :
    RegisterGets s t d lat v ∧ SameRegsBut d s t ∧ SamePreds s t := by
  have hreg := regAt_congr (a := t.cur) (b := s.begin.cur.result s.now d v lat) (hr.trans (result_regs ..).symm) hp
  refine ⟨?_, fun n r hne => ?_, fun n p => ?_⟩
  · exact (hreg _ d).trans (regAt_result_same _ _ _ _ hl)
  · exact (hreg n r).trans (regAt_result_ne _ _ _ _ _ hne)
  · exact (predAt_congr (hq.trans (result_preds ..).symm) hp n p).trans (predAt_result ..)

/-- What outlasts a region and an issue, after one more result than a word found at its issue, and what is then read. -/
theorem reads_of_lasting_result {i : Instr} {c : Ctl} {s t : State} {d : BitVec 5} {v : Word} {lat : Nat}
    (hs : s.focus.slot < 4) (hl : 0 < lat)
    (h : t.cur.lasting = ((s.atIssue i c).cur.result s.now d v lat).lasting) :
    RegisterGets s t d lat v ∧ SameRegsBut d s t ∧ SamePreds s t ∧ SameSpecials s t := by
  have b := Beside.atIssue i c hs
  obtain ⟨h1, h2, h3⟩ := reads_of_result (v := v) hl ((regs_of_lasting h).trans ((result_regs ..).trans b.regs))
    ((preds_of_lasting h).trans ((result_preds ..).trans b.preds))
    ((pend_of_lasting h).trans (by rw [result_pend, result_pend, b.pend]))
  exact ⟨h1, h2, h3, (specials_of_lasting h).trans ((result_specials ..).trans (atIssue_specials s i c hs))⟩

/-- A word whose effect is known at its issue is the issue of any body with that effect there. -/
theorem issueWord_congr {i : Instr} {c : Ctl} {s : State} {f g : State → Body} (h : issues i c s = true)
    (hb : f (s.atIssue i c) = g (s.atIssue i c)) : issueWord i c f s = issueWord i c g s := by
  rw [issueWord_of_issues f h, issueWord_of_issues g h, hb]

/-- What no context of a tile shows stands beside the thread in focus. -/
theorem Beside.of_ctx {s u v : State} (b : Beside s u) (hf : v.focus = u.focus) (hm : v.mem = u.mem)
    (hp : v.poison = u.poison) (hc : ∀ n, v.ctx n = u.ctx n) : Beside s v := by
  have e : v.cur = u.cur := by unfold State.cur State.thread; rw [hc, hf]
  exact ⟨hf.trans b.focus, hm.trans b.mem, hp.trans b.poison, sameUnits_trans b.units b.focus (sameUnits_of_ctx hc),
    (congrArg Thread.regs e).trans b.regs, (congrArg Thread.preds e).trans b.preds, (congrArg Thread.pend e).trans b.pend⟩

/-- A word that goes on to the next word from a state beside the one it found. -/
theorem doneBeside_spec {i : Instr} {c : Ctl} {s v : State} {body : State → Body} (h : issues i c s = true)
    (hb : body (s.atIssue i c) = .done v) (b : Beside s v) :
    ∃ t, issueWord i c body s = .next t ∧ Beside s t ∧ t.cur.lasting = v.cur.lasting ∧ t.cur.pc = v.cur.pc + 4#64 ∧
      ∃ own, t = v.moveOn (setTarget i) c own 1 (v.cur.pc + 4#64) := by
  have hs := slot_of_issues h
  rw [issueWord_of_issues _ h, hb]
  exact ⟨_, rfl, b.moveOn hs _ _ _ _ _, moveOn_lasting _ _ _ _ _ _ (b.slot hs), moveOn_pc _ _ _ _ _ _ (b.slot hs), _, rfl⟩

/-- A word that has no effect goes on to the next word. -/
theorem idleBody_spec {i : Instr} {c : Ctl} {s : State} {body : State → Body} (h : issues i c s = true)
    (hb : body (s.atIssue i c) = .done (s.atIssue i c)) :
    ∃ t, issueWord i c body s = .next t ∧ OnlyRegister s t 0#5 := by
  have hs := slot_of_issues h
  obtain ⟨t, ht, b, hl, hpc, -⟩ := doneBeside_spec h hb (Beside.atIssue i c hs)
  exact ⟨t, ht, b.onlyRegister (by rw [hpc, atIssue_pc s i c hs]) ((specials_of_lasting hl).trans (atIssue_specials s i c hs))⟩

/-- A word whose effect ends in a taken branch leaves its effect's state but for its thread's region and next issue, its
next word at the target (R40). -/
theorem takenBody_spec {i : Instr} {c : Ctl} {s v : State} {target : Word} {gap : Nat} {body : State → Body}
    (h : issues i c s = true) (hb : body (s.atIssue i c) = .taken v target gap) (hf : v.focus = s.focus) :
    ∃ t, issueWord i c body s = .next t ∧ t.cur.lasting = v.cur.lasting ∧ t.cur.pc = target ∧ t.mem = v.mem ∧
      t.poison = v.poison ∧ SameUnits v t := by
  have hv : v.focus.slot < 4 := by rw [hf]; exact slot_of_issues h
  refine ⟨_, issueWord_of_issues body h, ?_⟩
  rw [hb]
  exact ⟨moveOn_lasting _ _ _ _ _ _ hv, moveOn_pc _ _ _ _ _ _ hv, moveOn_mem .., moveOn_poison .., sameUnits_moveOn ..⟩

/-- A word that writes one result and takes a branch. -/
theorem takenResult_spec {i : Instr} {c : Ctl} {s : State} {body : State → Body} {d : BitVec 5} {v : Word} {lat : Nat}
    {target : Word} {gap : Nat} (h : issues i c s = true) (hl : 0 < lat)
    (hb : body (s.atIssue i c) = .taken ((s.atIssue i c).modCur fun th => th.result s.now d v lat) target gap) :
    ∃ t, issueWord i c body s = .next t ∧ t.cur.pc = target ∧ RegisterGets s t d lat v ∧ SameRegsBut d s t ∧
      SamePreds s t ∧ SameSpecials s t ∧ SameUnits s t ∧ SameMemory s t := by
  have hs := slot_of_issues h
  obtain ⟨t, ht, hlast, hpc, hm, hpo, hun⟩ := takenBody_spec h hb (by simp)
  rw [cur_modCur _ _ ((Beside.atIssue i c hs).slot hs)] at hlast
  obtain ⟨hget, hregs, hpreds, hspec⟩ := reads_of_lasting_result hs hl hlast
  refine ⟨t, ht, hpc, hget, hregs, hpreds, hspec, ?_, fun a => ?_, ?_⟩
  · exact sameUnits_trans (sameUnits_trans (sameUnits_atIssue s i c) (by simp) (sameUnits_modCur _ _)) (by simp) hun
  · rw [hm, modCur_mem, atIssue_mem]
  · rw [hpo, modCur_poison, atIssue_poison]

/-! ## Targets (R70) -/

theorem textLoc_congr {s u : State} (h : u.groups = s.groups) (tile gid : Nat) (sup : Bool) (pc : Word) (n : Nat) :
    u.textLoc tile gid sup pc n = s.textLoc tile gid sup pc n := by
  unfold State.textLoc State.group?
  rw [h]

/-- The target of a branch is looked at in the issue's state as in the one before it. -/
theorem atIssue_targetTrap {i : Instr} {c : Ctl} {s : State} (hs : s.focus.slot < 4) (target : Word) :
    (s.atIssue i c).targetTrap target = s.targetTrap target := by
  have hsp := atIssue_specials s i c hs
  unfold State.targetTrap
  rw [textLoc_congr (atIssue_groups ..), atIssue_focus, atIssue_gid s i c hs,
    show (s.atIssue i c).cur.sup = s.cur.sup from congrArg Specials.sup hsp]

theorem targetTrap_eq_none {s : State} {target : Word} (h : targetOk s target) : s.targetTrap target = none := by
  obtain ⟨hal, hloc⟩ := h
  simp [State.targetTrap, hal, Option.isSome_iff_ne_none.mp hloc]

theorem textTrap_causeWord (target : Word) : (textTrap target).causeWord = BitVec.ofNat 64 0x904 := by
  simp only [textTrap, Trap.causeWord]
  decide

theorem align_causeWord (v : Option Word) : ({ code := 0x02#6, tval := v } : Trap).causeWord = BitVec.ofNat 64 0x02 := by
  simp only [Trap.causeWord]
  decide

/-- A bad target gives a precise trap on the target, ALIGN or ACCESS. -/
theorem targetTrap_eq_some {s : State} {target : Word} (h : ¬targetOk s target) :
    ∃ t code, s.targetTrap target = some t ∧ t.style = .precise ∧ t.tval = some target ∧
      t.causeWord = BitVec.ofNat 64 code ∧
      bits (BitVec.ofNat 64 code) 5 0 = (if target.toNat % 4 = 0 then 4 else 2) := by
  by_cases hal : target.toNat % 4 = 0
  · have hloc : s.textLoc s.focus.tile s.cur.gid s.cur.sup target 4 = none := by
      rw [← Option.not_isSome_iff_eq_none]
      exact fun hx => h ⟨hal, hx⟩
    refine ⟨textTrap target, 0x904, by simp [State.targetTrap, hal, hloc], rfl, rfl, textTrap_causeWord target, ?_⟩
    rw [if_pos hal]
    rfl
  · refine ⟨{ code := 0x02#6, tval := some target }, 0x02, by simp [State.targetTrap, hal], rfl, rfl, align_causeWord _, ?_⟩
    rw [if_neg hal]
    rfl

/-- A branch to a good target is taken (R70). -/
theorem branchTo_of_targetOk {i : Instr} {c : Ctl} {s : State} {target : Word} (hs : s.focus.slot < 4)
    (h : targetOk s target) (gap : Nat) (f : Thread → Thread) :
    branchTo target gap f (s.atIssue i c) = .taken ((s.atIssue i c).modCur f) target gap := by
  unfold branchTo
  rw [atIssue_targetTrap hs, targetTrap_eq_none h]

/-! ## The branches of R71 and R72 -/

theorem result_zero (th : Thread) (now : Nat) (v : Word) (lat : Nat) : th.result now 0#5 v lat = th := if_pos rfl

/-- The effect of a branch with a link in d, s0 where it has none. -/
def linkBody (d : BitVec 5) (f : Thread → Word) (u : State) : Body :=
  branchTo (f u.cur) 2 (fun th => th.result u.now d (u.cur.pc + 4#64) 2) u

/-- A branch without a link is one whose link is in s0. -/
theorem linkBody_zero (f : Thread → Word) (u : State) : linkBody 0#5 f u = branchTo (f u.cur) 2 id u := by
  unfold linkBody
  rw [show (fun th : Thread => th.result u.now 0#5 (u.cur.pc + 4#64) 2) = id from funext fun _ => result_zero ..]

/-- Each branch of the table checks its target and then writes its link. -/
theorem exec_branchWord {i : Instr} {c : Ctl} {d : BitVec 5} {f : Thread → Word} (h : BranchWord i c d f) (s : State) :
    exec i s = issueWord i c (linkBody d f) s := by
  cases h with
  | br off => rw [funext (linkBody_zero _)]; rfl
  | call off => rfl
  | jr a => rw [funext (linkBody_zero _)]; rfl
  | jalr d a => rfl
  | ret => rw [funext (linkBody_zero _)]; rfl

/-- The target of a branch depends on the registers and the pc alone. -/
theorem branchWord_congr {i : Instr} {c : Ctl} {d : BitVec 5} {f : Thread → Word} (h : BranchWord i c d f) {x y : Thread}
    (hr : ∀ r, x.reg r = y.reg r) (hp : x.pc = y.pc) : f x = f y := by
  cases h <;> simp only [hr, hp]

theorem branchesGoToTheirTarget : BranchesGoToTheirTarget := by
  intro i c d f s hi h hok
  have hs := slot_of_issues h
  have hv : f (s.atIssue i c).cur = f s.begin.cur :=
    branchWord_congr hi (atIssue_reg s i c hs) (atIssue_cur_pc s i c hs)
  have hb : linkBody d f (s.atIssue i c) =
      .taken ((s.atIssue i c).modCur fun th => th.result s.now d (s.cur.pc + 4#64) 2) (f s.begin.cur) 2 := by
    rw [linkBody, hv, branchTo_of_targetOk hs hok, atIssue_now, atIssue_pc s i c hs]
  obtain ⟨t, ht, hrest⟩ := takenResult_spec h (by decide) hb
  exact ⟨t, (exec_branchWord hi s).trans ht, hrest⟩

/-- A word whose effect is a precise trap with a TVAL enters the handler, to return to the word. -/
theorem trapBody_enters {i : Instr} {c : Ctl} {s : State} {body : State → Body} {t : Trap} {v : Word} {code : Nat}
    (h : issues i c s = true) (hb : body (s.atIssue i c) = .trap (s.atIssue i c) t) (hh : hasHandler s)
    (hst : t.style = .precise) (hv : t.tval = some v) (hc : t.causeWord = BitVec.ofNat 64 code) :
    ∃ x, issueWord i c body s = .next x ∧ EntersHandler s x code s.cur.pc v t.taux := by
  have hs := slot_of_issues h
  rw [issueWord_of_issues _ h, hb]
  exact ⟨_, rfl, entersHandler_of_trapNow (Beside.atIssue i c hs) hs (atIssue_pc s i c hs) (atIssue_specials s i c hs)
    (atIssue_hasHandler i c hs hh) hst hv hc⟩

theorem branchesTrapOnBadTargets : BranchesTrapOnBadTargets := by
  intro i c d f s hi h hbad hsup htvec hclean
  have hs := slot_of_issues h
  have hv : f (s.atIssue i c).cur = f s.begin.cur :=
    branchWord_congr hi (atIssue_reg s i c hs) (atIssue_cur_pc s i c hs)
  obtain ⟨tr, code, htr, hst, hval, hcause, hbits⟩ := targetTrap_eq_some hbad
  have hb : linkBody d f (s.atIssue i c) = .trap (s.atIssue i c) tr := by
    rw [linkBody, hv, branchTo, atIssue_targetTrap hs, htr]
  obtain ⟨t, ht, hpc, hsup', htepc, htval, -, htc, -, -, -, -, -, hregs, hpreds, -, hmem⟩ :=
    trapBody_enters h hb ⟨hsup, htvec, hclean⟩ hst hval hcause
  exact ⟨t, (exec_branchWord hi s).trans ht, hpc, hsup', htepc, htval, by rw [htc, hbits], hregs, hpreds, hmem⟩

/-- Settles O3: a branch checks its target in the state of its issue, which holds the text of the state before it. -/
theorem branchesGoWhereTheySay : Obligations.BranchesGoWhereTheySay := ⟨branchesGoToTheirTarget, branchesTrapOnBadTargets⟩

/-! ## LOOP (R73) -/

/-- The effect of LOOP. -/
def loopBody (d : BitVec 5) (imm : BitVec 13) (u : State) : Body :=
  if u.cur.reg d = 0#64 then .done u
  else if u.cur.reg d = 1#64 then resultBody d 2 (fun th => th.reg d - 1#64) u
  else branchTo (relTarget u.cur.pc imm.toInt) 2 (fun th => th.result u.now d (u.cur.reg d - 1#64) 2) u

theorem exec_loop_eq (c : Ctl) (d : BitVec 5) (imm : BitVec 13) (s : State) :
    exec (.loop c d imm) s = issueWord (.loop c d imm) c (loopBody d imm) s := exec_loop c d imm s

/-- Settles O4: by s(d), LOOP ends with nothing written, with one result, or with that result and a taken branch. -/
theorem loopCountsDownAndBranches : Obligations.LoopCountsDownAndBranches := by
  intro c d imm s h v target hok
  have hs := slot_of_issues h
  have hv : (s.atIssue (.loop c d imm) c).cur.reg d = v := atIssue_reg s _ c hs d
  have hpc := atIssue_pc s (.loop c d imm) c hs
  rw [exec_loop_eq]
  rcases (by omega : v.toNat = 0 ∨ v.toNat = 1 ∨ 1 < v.toNat) with h0 | h1 | h2
  · have e : v = 0#64 := BitVec.eq_of_toNat_eq h0
    obtain ⟨t, ht, hp, hregs, hrest⟩ := idleBody_spec (body := loopBody d imm) h (by rw [loopBody, hv, if_pos e])
    have hall := regAt_of_sameRegsBut_zero hregs
    exact ⟨t, ht, by rw [hp, if_neg (by omega)], fun _ n => hall n d, fun hne => absurd e hne, fun n r _ => hall n r, hrest⟩
  · have e : v = 1#64 := BitVec.eq_of_toNat_eq h1
    have hne : v ≠ 0#64 := by rw [e]; decide
    have hb : loopBody d imm (s.atIssue (.loop c d imm) c) =
        resultBody d 2 (fun th => th.reg d - 1#64) (s.atIssue (.loop c d imm) c) := by
      rw [loopBody, hv, if_neg hne, if_pos e]
    obtain ⟨t, ht, hget, hp, hrest⟩ := resultBody_spec d (lat := 2) (fun th => th.reg d - 1#64) (by decide) h
    rw [hv] at hget
    exact ⟨t, (issueWord_congr h hb).trans ht, by rw [hp, if_neg (by omega)], fun h0 => absurd h0 hne, fun _ => hget, hrest⟩
  · have hne : v ≠ 0#64 := fun e => by rw [e] at h2; exact absurd h2 (by decide)
    have hne1 : v ≠ 1#64 := fun e => by rw [e] at h2; exact absurd h2 (by decide)
    have hb : loopBody d imm (s.atIssue (.loop c d imm) c) =
        .taken ((s.atIssue (.loop c d imm) c).modCur fun th => th.result s.now d (v - 1#64) 2) target 2 := by
      rw [loopBody, hv, if_neg hne, if_neg hne1, atIssue_now, hpc, relTarget, branchTo_of_targetOk hs (hok h2)]
    obtain ⟨t, ht, hp, hget, hrest⟩ := takenResult_spec h (by decide) hb
    exact ⟨t, ht, by rw [hp, if_pos h2], fun h0 => absurd h0 hne, fun _ => hget, hrest⟩

end Sys2Proof.Machine
end

section
/-! SUPPORT. The words of the divider (R61, R62). -/

namespace Sys2Proof.Machine

open Sys2Proof.Claims

/-! ## Quotients and remainders -/

/-- The one signed quotient that no word holds, of the least value by −1, wraps to the least value (R61). -/
theorem divide_signed (x y : Word) :
    divide true x y =
      (if y = 0#64 then BitVec.allOnes 64 else BitVec.ofInt 64 (x.toInt.tdiv y.toInt),
        if y = 0#64 then x else BitVec.ofInt 64 (x.toInt.tmod y.toInt), y == 0#64) := by
  unfold divide
  by_cases hy : y = 0#64
  · simp [hy]
  · by_cases hw : x = 0x8000000000000000#64 ∧ y = BitVec.allOnes 64
    · obtain ⟨rfl, rfl⟩ := hw
      rfl
    · rw [if_neg hy, if_pos rfl, if_neg (by simpa using hw), if_neg hy, if_neg hy, beq_false_of_ne hy]

theorem divide_unsigned (x y : Word) :
    divide false x y =
      (if y = 0#64 then BitVec.allOnes 64 else BitVec.ofNat 64 (x.toNat / y.toNat),
        if y = 0#64 then x else BitVec.ofNat 64 (x.toNat % y.toNat), y == 0#64) := by
  unfold divide
  by_cases hy : y = 0#64 <;> simp [hy]

/-- A word of the divider that finds it free issues as a division, whose value is that of its row. -/
theorem exec_divisionWord {i : Instr} {c : Ctl} {d a b : BitVec 5} {f : Word → Word → Word} {s : State}
    (h : DivisionWord i c d a b f) (hfree : s.dividerBusy = false) :
    ∃ signed quotient, exec i s = issueWord i c (divideBody signed quotient d a b) s ∧ ∀ x y,
      (if quotient then (divide signed x y).1 else (divide signed x y).2.1) = f x y ∧
        (divide signed x y).2.2 = (y == 0#64) := by
  cases h
  case div => exact ⟨true, true, if_neg (by simp [hfree]), fun x y => by simp [divide_signed]⟩
  case divu => exact ⟨false, true, if_neg (by simp [hfree]), fun x y => by simp [divide_unsigned]⟩
  case rem => exact ⟨true, false, if_neg (by simp [hfree]), fun x y => by simp [divide_signed]⟩
  case remu => exact ⟨false, false, if_neg (by simp [hfree]), fun x y => by simp [divide_unsigned]⟩

/-! ## The divider of a tile -/

/-- A thread replaced leaves every tile's divider. -/
theorem divider_setThread (s : State) (t k n : Nat) (th : Thread) :
    ((s.setThread t k th).tile n).divider = (s.tile n).divider := by
  unfold State.setThread State.modCtx
  by_cases h : n = t
  · rw [h, tile_modTile_same]
  · rw [tile_modTile_ne s _ h]

theorem divider_moveOn (s : State) (r : Option (BitVec 5)) (c : Ctl) (own : Bool) (g n : Nat) (pc : Word) :
    ((s.moveOn r c own g pc).tile n).divider = (s.tile n).divider := by
  have h := divider_setThread s s.focus.tile s.focus.slot n
  unfold State.moveOn
  simp only
  split
  · exact (divider_setThread _ _ _ n _).trans (h _)
  · exact h _

/-- The state in which the thread in focus has begun a division on its tile's divider. -/
def State.dividing (u : State) (q : Division) : State :=
  (u.modCur fun x => x.await { id := 0, dst := q.dst, src := .division, due := q.due }).modTile u.focus.tile fun x =>
    { x with divider := some q }

/-- A division of the thread in focus that begins in the cycle of `s`, with its result and whether its divisor is 0. -/
def State.division (s : State) (d : BitVec 5) (v : Word) (dz : Bool) : Division :=
  ⟨s.focus.slot, s.cur.gid, d, v, dz, s.now + 68⟩

theorem ctx_modTile_divider (s : State) (tile : Nat) (d : Option Division) (n : Nat) :
    (s.modTile tile fun x => { x with divider := d }).ctx n = s.ctx n := by
  unfold State.ctx
  by_cases h : n = tile
  · rw [h, tile_modTile_same]
  · rw [tile_modTile_ne s _ h]

theorem Beside.dividing {s u : State} (b : Beside s u) (h : s.focus.slot < 4) (q : Division) : Beside s (u.dividing q) :=
  (b.modCur h (fun x => x.await { id := 0, dst := q.dst, src := .division, due := q.due }) rfl rfl rfl).of_ctx rfl rfl rfl
    (ctx_modTile_divider _ _ _)

theorem dividing_cur (u : State) (q : Division) (h : u.focus.slot < 4) :
    (u.dividing q).cur = u.cur.await { id := 0, dst := q.dst, src := .division, due := q.due } := by
  exact (thread_modTile_divider _ _ _ _ _).trans
    (cur_modCur u (fun x => x.await { id := 0, dst := q.dst, src := .division, due := q.due }) h)

theorem dividing_divider (u : State) (q : Division) : ((u.dividing q).tile u.focus.tile).divider = some q := by
  unfold State.dividing
  rw [tile_modTile_same]

theorem awaits_of_mem {th : Thread} {o : Outstanding} (h : o ∈ th.outstanding) : th.awaits o.dst = (o.dst != 0#5) := by
  have : (th.outstanding.any fun x => x.dst == o.dst) = true := List.any_eq_true.mpr ⟨o, h, beq_self_eq_true _⟩
  rw [Thread.awaits, this, Bool.and_true]

/-- A thread that awaits one more result awaits its register. -/
theorem awaits_await (th : Thread) (o : Outstanding) : (th.await o).awaits o.dst = (o.dst != 0#5) :=
  awaits_of_mem (o := { o with id := th.nextLoad }) (List.mem_append_right _ (List.mem_singleton_self _))

theorem awaits_of_lasting {x y : Thread} (h : x.lasting = y.lasting) (r : BitVec 5) : x.awaits r = y.awaits r := by
  unfold Thread.awaits
  rw [outstanding_of_lasting h]

/-- Settles O5: a division awaits one more result, and beside that changes the divider of its tile. -/
theorem divisionsOccupyTheDivider : Obligations.DivisionsOccupyTheDivider := by
  intro i c d a b f s hi h hfree
  have hs := slot_of_issues h
  obtain ⟨signed, quotient, he, hval⟩ := exec_divisionWord hi hfree
  obtain ⟨hv, hz⟩ := hval (s.begin.cur.reg a) (s.begin.cur.reg b)
  have b0 := Beside.atIssue i c hs
  obtain ⟨q, hq⟩ : ∃ q, q = s.division d (f (s.begin.cur.reg a) (s.begin.cur.reg b)) (s.begin.cur.reg b == 0#64) := ⟨_, rfl⟩
  have hb : divideBody signed quotient d a b (s.atIssue i c) = .done ((s.atIssue i c).dividing q) := by
    simp only [divideBody, atIssue_reg s i c hs, hv, hz, atIssue_now, atIssue_focus, atIssue_gid s i c hs, State.dividing, hq,
      State.division]
  obtain ⟨t, ht, bt, hl, hpc, own, hown⟩ := doneBeside_spec h hb (b0.dividing hs q)
  have hdiv := dividing_divider (s.atIssue i c) q
  rw [atIssue_focus] at hdiv
  rw [dividing_cur _ _ (b0.slot hs)] at hl hpc
  subst hq
  refine ⟨t, _, he.trans ht, by rw [hown, divider_moveOn, hdiv], rfl, rfl, rfl, rfl, Nat.le_refl _, ?_, ?_, bt.regAt, bt.samePreds,
    ?_, bt.units, bt.sameMemory⟩
  · rw [awaits_of_lasting hl]
    exact awaits_await _ _
  · exact hpc.trans (congrArg (· + 4#64) (atIssue_pc s i c hs))
  · exact (specials_of_lasting hl).trans (atIssue_specials s i c hs)

end Sys2Proof.Machine
end

section
/-! SUPPORT. The words of traps: TRAP, TFENCE and ERET (R78, R223, R342). -/

namespace Sys2Proof.Machine

open Sys2Proof.Claims

/-! ## Traps that commit the open region -/

/-- Where a trap of group state that commits the open region has its handler return to (R223). -/
def State.trapReturn (u : State) (t : Trap) : Word := if t.style = .after then u.cur.pc + 4#64 else u.cur.pc

/-- The thread behind the marker of such a trap, its trap registers written (R342). -/
def State.committedTrap (u : State) (t : Trap) (v : Word) : Thread :=
  { (u.marker u.focus.tile u.focus.slot (u.trapReturn t)).cur.saveTrap t v (u.trapReturn t) 0#8 with
    trapReentry := u.cur.frontReentry.getD u.cur.reentry }

/-- The marker leaves the values of the thread, the order of its accesses, its place, and its special registers but for the
trap registers. -/
theorem committedTrap_eq (u : State) (t : Trap) (v : Word) (h : u.focus.slot < 4) :
    (u.committedTrap t v).regs = u.cur.regs ∧ (u.committedTrap t v).preds = u.cur.preds ∧
      (u.committedTrap t v).pend = u.cur.pend ∧ (u.committedTrap t v).trapsPoisoned = u.cur.trapsPoisoned ∧
      (u.committedTrap t v).pc = u.cur.pc ∧ (u.committedTrap t v).inflight.map (·.buf) = accesses u ∧
      (u.committedTrap t v).specials =
        { u.cur.specials with
          tcause := t.causeWord, tepc := u.trapReturn t, tval := v, taux := t.taux, tstate := Word.ofN (b2n u.cur.sup) } := by
  unfold State.committedTrap accesses
  rw [marker_cur u _ h]
  simp only [Thread.specials, Thread.saveTrap, Thread.openRegion, List.map_append, toInFlight_buf, BitVec.toNat_ofNat,
    Nat.zero_mod, Nat.mul_zero, Nat.zero_add, and_self]

/-- A trap of group state that discards nothing commits the open region, saves its registers, and enters or stops. -/
theorem takeTrap_committed {u : State} {t : Trap} {v : Word} (hsup : u.cur.sup = false) (hst : t.style ≠ .memory)
    (hv : t.tval = some v) :
    u.takeTrap u.focus.tile u.focus.slot t =
      ((u.marker u.focus.tile u.focus.slot (u.trapReturn t)).setCur (u.committedTrap t v)).enterOrStop u.focus.tile
        u.focus.slot t := by
  have hsup' : (u.thread u.focus.tile u.focus.slot).sup = false := hsup
  unfold State.takeTrap
  simp only [hsup', State.trapValue, hv, Bool.false_eq_true, if_false]
  cases hs : t.style with
  | memory => exact absurd hs hst
  | precise => simp only [State.committedTrap, State.trapReturn, hs]; rfl
  | after => simp only [State.committedTrap, State.trapReturn, hs]; rfl

/-- The state in front of the last step of such a trap has its thread's values. -/
theorem Beside.committed {s u : State} (b : Beside s u) (hs : s.focus.slot < 4) (t : Trap) (v : Word) :
    Beside s ((u.marker u.focus.tile u.focus.slot (u.trapReturn t)).setCur (u.committedTrap t v)) := by
  obtain ⟨hr, hp, hq, -⟩ := committedTrap_eq u t v (b.slot hs)
  exact (b.marker hs _).setCur hs (hr.trans b.regs) (hp.trans b.preds) (hq.trans b.pend)

theorem enterHandler_values (th : Thread) :
    th.enterHandler.regs = th.regs ∧ th.enterHandler.preds = th.preds ∧ th.enterHandler.pend = th.pend :=
  ⟨rfl, rfl, rfl⟩

/-- The entry of a handler, seen through the thread's special registers and its accesses. -/
theorem enterHandler_eq (th : Thread) (n : Nat) :
    let x : Thread := { th.enterHandler with earliest := n, waiting := false }
    x.pc = th.specials.tvec ∧ x.specials = { th.specials with sup := true } ∧ x.buffered = [] ∧ x.inflight = th.inflight :=
  ⟨rfl, rfl, rfl, rfl⟩

/-- A thread that takes such a trap and has a handler is in it (R342). -/
theorem trapNow_committed {s u : State} {t : Trap} {v : Word} (b : Beside s u) (hs : s.focus.slot < 4) (hh : hasHandler u)
    (hst : t.style ≠ .memory) (hv : t.tval = some v) :
    Beside s (u.trapNow t) ∧
      (u.trapNow t).cur = { (u.committedTrap t v).enterHandler with earliest := u.now + 1, waiting := false } := by
  obtain ⟨hsup, htvec, hbad⟩ := hh
  obtain ⟨hr, hp, hq, hc, -, -, hsp⟩ := committedTrap_eq u t v (b.slot hs)
  have hm : (u.committedTrap t v).tvec = u.cur.tvec := congrArg Specials.tvec hsp
  have b1 := b.committed hs t v
  have hcur := cur_setCur (u.marker u.focus.tile u.focus.slot (u.trapReturn t)) (u.committedTrap t v) (by simpa using b.slot hs)
  unfold State.trapNow
  rw [takeTrap_committed hsup hst hv]
  generalize (u.marker u.focus.tile u.focus.slot (u.trapReturn t)).setCur (u.committedTrap t v) = w at b1 hcur ⊢
  have hf : u.focus = w.focus := b.focus.trans b1.focus.symm
  have he : w.enterOrStop w.focus.tile w.focus.slot t = w.setCur (u.committedTrap t v).enterHandler := by
    unfold State.enterOrStop
    rw [show w.thread w.focus.tile w.focus.slot = _ from hcur]
    simp only [hm, hc, htvec, hbad, decide_false, Bool.or_self, Bool.false_eq_true, if_false]
    rfl
  rw [hf, he]
  obtain ⟨er, ep, eq⟩ := enterHandler_values (u.committedTrap t v)
  have b2 := b1.setCur hs (er.trans (hr.trans b.regs)) (ep.trans (hp.trans b.preds)) (eq.trans (hq.trans b.pend))
  refine ⟨b2.modCur hs (fun th => { th with earliest := u.now + 1, waiting := false }) rfl rfl rfl, ?_⟩
  rw [cur_modCur _ _ (b2.slot hs), cur_setCur w _ (b1.slot hs)]

/-- A word whose effect is a trap takes it (R342). -/
theorem issueWord_of_trap {i : Instr} {c : Ctl} {s v : State} {body : State → Body} {t : Trap} (h : issues i c s = true)
    (hb : body (s.atIssue i c) = .trap v t) : issueWord i c body s = .next (v.trapNow t) := by
  rw [issueWord_of_issues body h, hb]
  rfl

/-- A word whose effect is a trap behind it enters the handler, to return to the next word, its open region committed. -/
theorem trapAfter_enters {i : Instr} {c : Ctl} {s : State} {body : State → Body} {t : Trap} {v : Word} {code : Nat}
    (h : issues i c s = true) (hb : body (s.atIssue i c) = .trap (s.atIssue i c) t) (hh : hasHandler s)
    (hst : t.style = .after) (hv : t.tval = some v) (hc : t.causeWord = BitVec.ofNat 64 code) :
    ∃ x, issueWord i c body s = .next x ∧ EntersHandler s x code (s.cur.pc + 4#64) v t.taux ∧ x.cur.buffered = [] ∧
      x.cur.inflight.map (·.buf) = accesses s := by
  have hs := slot_of_issues h
  have b0 := Beside.atIssue i c hs
  have hsup : (s.atIssue i c).cur.sup = false := (atIssue_hasHandler i c hs hh).1
  obtain ⟨b, hcur⟩ := trapNow_committed b0 hs (atIssue_hasHandler i c hs hh) (by rw [hst]; nofun) hv
  obtain ⟨-, -, -, -, -, hacc, hsp⟩ := committedTrap_eq (s.atIssue i c) t v (b0.slot hs)
  obtain ⟨hpc', hsp', hbuf, hin⟩ := enterHandler_eq ((s.atIssue i c).committedTrap t v) ((s.atIssue i c).now + 1)
  rw [← hcur] at hpc' hsp' hbuf hin
  rw [hsp, atIssue_specials s i c hs, hsup, hc, State.trapReturn, if_pos hst, atIssue_pc s i c hs] at hpc' hsp'
  exact ⟨_, issueWord_of_trap h hb, ⟨hpc', congrArg Specials.sup hsp',
    congrArg Specials.tepc hsp', congrArg Specials.tval hsp', congrArg Specials.taux hsp', congrArg Specials.tcause hsp',
    congrArg Specials.tstate hsp', congrArg Specials.tvec hsp', congrArg Specials.flags hsp', congrArg Specials.evt hsp',
    congrArg Specials.status hsp', b.regAt, b.samePreds, b.units, b.sameMemory⟩, hbuf,
    (congrArg (List.map (·.buf)) hin).trans (hacc.trans (accesses_atIssue s i c hs))⟩

/-! ## Traps that stop their thread -/

@[simp] theorem log_focus (s : State) (e : Event) : (s.log e).focus = s.focus := by
  unfold State.log
  simp only
  split <;> rfl

/-- A thread that a trap stops keeps everything but that it runs (R342). -/
theorem stopThread_spec (u : State) (t : Trap) (h : u.focus.slot < 4) :
    let x := u.stopThread u.focus.tile u.focus.slot t
    x.focus = u.focus ∧ x.cur = { u.cur with status := .stopped, waiting := false } ∧ SameUnits u x := by
  have hf : (u.stopThread u.focus.tile u.focus.slot t).focus = u.focus := log_focus _ _
  refine ⟨hf, ?_, ?_⟩
  · exact (cur_congr (log_tiles _ _) (log_focus _ _)).trans (cur_setCur u _ h)
  · exact sameUnits_trans (sameUnits_setThread u _ _ _ rfl rfl) rfl (sameUnits_of_tiles (log_tiles _ _))

/-- The state in which a trap stops the thread in focus: of group state, with the trap saved behind a marker; of supervisor
state, as it stands (R342). -/
def State.stopping (u : State) (t : Trap) (v : Word) : State :=
  if u.cur.sup then u else (u.marker u.focus.tile u.focus.slot (u.trapReturn t)).setCur (u.committedTrap t v)

theorem Beside.stopping {s u : State} (b : Beside s u) (hs : s.focus.slot < 4) (t : Trap) (v : Word) :
    Beside s (u.stopping t v) := by
  unfold State.stopping
  split
  · exact b
  · exact b.committed hs t v

/-- What the thread in focus holds where a trap stops it. -/
theorem stopping_cur (u : State) (t : Trap) (v : Word) (h : u.focus.slot < 4) :
    (u.stopping t v).cur.pc = u.cur.pc ∧ (u.cur.sup = true → (u.stopping t v).cur = u.cur) := by
  unfold State.stopping
  split
  · exact ⟨rfl, fun _ => rfl⟩
  · next hsup =>
    refine ⟨?_, fun hx => absurd hx hsup⟩
    rw [cur_setCur (u.marker u.focus.tile u.focus.slot (u.trapReturn t)) _ (by simpa using h)]
    exact (committedTrap_eq u t v h).2.2.2.2.1

/-- A trap raised in supervisor state, or where TVEC is 0, stops the thread. -/
theorem takeTrap_stops {u : State} {t : Trap} {v : Word} (h : u.focus.slot < 4)
    (hno : u.cur.sup = true ∨ u.cur.tvec = 0#64) (hst : t.style ≠ .memory) (hv : t.tval = some v) :
    u.takeTrap u.focus.tile u.focus.slot t = (u.stopping t v).stopThread u.focus.tile u.focus.slot t := by
  cases hsup : u.cur.sup with
  | true =>
    have hsup' : (u.thread u.focus.tile u.focus.slot).sup = true := hsup
    simp [State.takeTrap, State.stopping, hsup, hsup']
  | false =>
    obtain ⟨-, -, -, -, -, -, hsp⟩ := committedTrap_eq u t v h
    have hm : (u.committedTrap t v).tvec = 0#64 :=
      (congrArg Specials.tvec hsp).trans (hno.resolve_left (by rw [hsup]; decide))
    have hcur : ((u.marker u.focus.tile u.focus.slot (u.trapReturn t)).setCur (u.committedTrap t v)).thread u.focus.tile
        u.focus.slot = u.committedTrap t v := thread_setThread_same _ _ _ h
    rw [takeTrap_committed hsup hst hv, State.stopping, if_neg (by rw [hsup]; decide), State.enterOrStop, hcur]
    simp [hm]

/-- A thread that a trap has stopped in a cycle. -/
def Thread.stopped (th : Thread) (now : Nat) : Thread :=
  { th with status := .stopped, waiting := false, earliest := now + 1 }

/-- A thread that has stopped keeps its values, its place and its trap registers. -/
theorem stopped_eq (th : Thread) (now : Nat) :
    (th.stopped now).status = .stopped ∧ (th.stopped now).pc = th.pc ∧
      (∀ n r, (th.stopped now).regAt n r = th.regAt n r) ∧ (∀ n p, (th.stopped now).predAt n p = th.predAt n p) ∧
      (th.stopped now).specials = { th.specials with status := .stopped } :=
  ⟨rfl, rfl, fun n r => regAt_congr (a := th.stopped now) (b := th) rfl rfl n r,
    fun n p => predAt_congr (a := th.stopped now) (b := th) rfl rfl n p, rfl⟩

/-- A thread that a trap stops, and what stands beside it. -/
theorem trapNow_stops {s u : State} {t : Trap} {v : Word} (b : Beside s u) (hs : s.focus.slot < 4)
    (hno : u.cur.sup = true ∨ u.cur.tvec = 0#64) (hst : t.style ≠ .memory) (hv : t.tval = some v) :
    (u.trapNow t).cur = (u.stopping t v).cur.stopped u.now ∧
      SameUnits s (u.trapNow t) := by
  have bw := b.stopping hs t v
  have hf : u.focus = (u.stopping t v).focus := b.focus.trans bw.focus.symm
  obtain ⟨hxf, hxc, hxu⟩ := stopThread_spec (u.stopping t v) t (bw.slot hs)
  rw [State.trapNow, takeTrap_stops (b.slot hs) hno hst hv, hf]
  refine ⟨?_, ?_⟩
  · rw [cur_modCur _ _ (by rw [hxf]; exact bw.slot hs), hxc]
    rfl
  · exact sameUnits_trans (sameUnits_trans bw.units bw.focus hxu) (hxf.trans bw.focus) (sameUnits_modCur _ _)

/-! ## TRAP -/

/-- The effect of TRAP. -/
def trapBody (a : BitVec 5) (u : State) : Body := .trap u { code := 0x0D#6, tval := some (u.cur.reg a), style := .after }

theorem exec_trap_eq (c : Ctl) (a : BitVec 5) (s : State) : exec (.trap c a) s = issueWord (.trap c a) c (trapBody a) s :=
  exec_trap c a s

theorem swTrap_causeWord (v : Option Word) :
    ({ code := 0x0D#6, tval := v, style := .after } : Trap).causeWord = BitVec.ofNat 64 0x0D := by
  simp only [Trap.causeWord]
  decide

theorem softwareTrapsEnterTheHandler : SoftwareTrapsEnterTheHandler := by
  intro c a s h hh
  have hb : trapBody a (s.atIssue (.trap c a) c) =
      .trap (s.atIssue (.trap c a) c) { code := 0x0D#6, tval := some (s.begin.cur.reg a), style := .after } := by
    rw [trapBody, atIssue_reg s _ c (slot_of_issues h)]
  exact exec_trap_eq c a s ▸ trapAfter_enters h hb hh rfl rfl (swTrap_causeWord _)

theorem trapsWithoutHandlerStopTheThread : TrapsWithoutHandlerStopTheThread := by
  intro c a s h hno
  have hs := slot_of_issues h
  have b0 := Beside.atIssue (.trap c a) c hs
  have hsp := atIssue_specials s (.trap c a) c hs
  have hno' : (s.atIssue (.trap c a) c).cur.sup = true ∨ (s.atIssue (.trap c a) c).cur.tvec = 0#64 :=
    hno.imp (congrArg Specials.sup hsp).trans (congrArg Specials.tvec hsp).trans
  have hb : trapBody a (s.atIssue (.trap c a) c) =
      .trap (s.atIssue (.trap c a) c) { code := 0x0D#6, tval := some (s.begin.cur.reg a), style := .after } := by
    rw [trapBody, atIssue_reg s _ c hs]
  obtain ⟨hcur, hun⟩ := trapNow_stops b0 hs hno' (t := { code := 0x0D#6, tval := some (s.begin.cur.reg a), style := .after })
    nofun rfl
  have bw := b0.stopping hs { code := 0x0D#6, tval := some (s.begin.cur.reg a), style := .after } (s.begin.cur.reg a)
  obtain ⟨hpc, hsup⟩ := stopping_cur (s.atIssue (.trap c a) c)
    { code := 0x0D#6, tval := some (s.begin.cur.reg a), style := .after } (s.begin.cur.reg a) (b0.slot hs)
  generalize (s.atIssue (.trap c a) c).stopping _ _ = w at hcur bw hpc hsup
  obtain ⟨hst, hpc', hregs, hpreds, hspec⟩ := stopped_eq w.cur (s.atIssue (.trap c a) c).now
  rw [← hcur] at hst hpc' hregs hpreds hspec
  refine ⟨_, (exec_trap_eq c a s).trans (issueWord_of_trap h hb), hst, hpc'.trans (hpc.trans (atIssue_pc s _ c hs)),
    fun n r => (hregs n r).trans (bw.regAt n r), fun n p => (hpreds n p).trans (bw.samePreds n p), fun hx => ?_, hun⟩
  have e : w.cur.specials = s.cur.specials := by rw [hsup ((congrArg Specials.sup hsp).trans hx), hsp]
  rw [e] at hspec
  exact ⟨congrArg Specials.tcause hspec, congrArg Specials.tepc hspec, congrArg Specials.tval hspec⟩

/-- Settles O19: TRAP is a trap behind its word, taken where a handler stands, and else a stop. -/
theorem softwareTrapsEnterOrStop : Obligations.SoftwareTrapsEnterOrStop :=
  ⟨softwareTrapsEnterTheHandler, trapsWithoutHandlerStopTheThread⟩

/-! ## TFENCE -/

/-- The effect of TFENCE. -/
def tfenceBody (u : State) : Body :=
  if u.cur.flagsPending then .hold u
  else if u.cur.flags &&& u.cur.trapen = 0#8 then .done u
  else .trap u { code := 0x0C#6, tval := some ((u.cur.flags &&& u.cur.trapen).setWidth 64), style := .after }

theorem exec_tfence_eq (c : Ctl) (s : State) : exec (.tfence c) s = issueWord (.tfence c) c tfenceBody s := exec_tfence c s

theorem tfence_causeWord (v : Option Word) :
    ({ code := 0x0C#6, tval := v, style := .after } : Trap).causeWord = BitVec.ofNat 64 0x0C := by
  simp only [Trap.causeWord]
  decide

/-- Settles O20: TFENCE holds its thread, has no effect, or is a trap behind its word, by the flags at its issue. -/
theorem trapFenceTrapsOnEnabledFlags : Obligations.TrapFenceTrapsOnEnabledFlags := by
  intro c s h f
  have hs := slot_of_issues h
  have hsp := atIssue_specials s (.tfence c) c hs
  have hf : (s.atIssue (.tfence c) c).cur.flags &&& (s.atIssue (.tfence c) c).cur.trapen = f :=
    congrArg₂ (· &&& ·) (congrArg Specials.flags hsp) (congrArg Specials.trapen hsp)
  have hp : (s.atIssue (.tfence c) c).cur.flagsPending = true ↔ divides s := by
    rw [atIssue_flagsPending s _ c hs, flagsPending_iff_divides]
  rw [exec_tfence_eq]
  refine ⟨fun hd => ?_, fun hd h0 => ?_, fun hd h0 hh => ?_⟩
  · obtain ⟨t, ht, hw, -⟩ := heldWord_waits (body := tfenceBody) h (by rw [tfenceBody, if_pos (hp.2 hd)])
      (Beside.atIssue _ c hs) (atIssue_pc s _ c hs) hsp
    exact ⟨t, ht, hw⟩
  · exact idleBody_spec h (by rw [tfenceBody, if_neg (mt hp.1 hd), hf, if_pos h0])
  · obtain ⟨t, ht, henter, -⟩ := trapAfter_enters (body := tfenceBody) h
      (by rw [tfenceBody, if_neg (mt hp.1 hd), hf, if_neg h0]) hh rfl rfl (tfence_causeWord _)
    exact ⟨t, ht, henter⟩

/-! ## ERET -/

/-- An ERET that issues does so in supervisor state. -/
theorem sup_of_issues_eret {c : Ctl} {s : State} (h : issues (.eret c) c s = true) : s.begin.cur.sup = true := by
  by_contra hn
  rw [Bool.not_eq_true] at hn
  simp only [issues, Bool.and_eq_true, Option.isNone_iff_eq_none] at h
  obtain ⟨⟨⟨-, hg⟩, -⟩, -⟩ := h
  have hi : s.begin.cur.illegal (.eret c) = true := by simp [Thread.illegal, hn]
  simp [Thread.guardTrap, hi] at hg

/-- ERET writes nothing that it reads, so it forms no region of its own. -/
theorem ownRegion_eret (th : Thread) (c : Ctl) : th.ownRegion (.eret c) c = false := by
  have hu : uses (.eret c) = {} := rfl
  simp [Thread.ownRegion, hu, selfUpdate]

theorem eret_values (th : Thread) :
    th.eret.regs = th.regs ∧ th.eret.preds = th.preds ∧ th.eret.pend = th.pend ∧
      th.eret.specials = { th.specials with sup := bit th.tstate 0 && th.sup } := by
  unfold Thread.eret
  split
  · next h =>
    rw [h, Bool.true_and]
    exact ⟨rfl, rfl, rfl, rfl⟩
  · next h =>
    rw [Bool.eq_false_iff.mpr h, Bool.false_and]
    exact ⟨rfl, rfl, rfl, rfl⟩

/-- Returning to group state, ERET opens a region at TEPC (R342). -/
theorem eret_region (th : Thread) (h : bit th.tstate 0 = false) :
    th.eret.resume = th.tepc ∧ th.eret.reentry = th.tstate.extractLsb' 8 8 ∧ th.eret.buffered = [] := by
  unfold Thread.eret
  rw [if_neg (by rw [h]; decide)]
  refine ⟨rfl, BitVec.eq_of_toNat_eq ?_, rfl⟩
  show (BitVec.ofNat 8 (bits th.tstate 15 8)).toNat = _
  rw [BitVec.toNat_ofNat, BitVec.extractLsb'_toNat, Nat.shiftRight_eq_div_pow, bits]
  exact Nat.mod_mod _ _

theorem exec_eret_eq (c : Ctl) (s : State) :
    exec (.eret c) s = issueWord (.eret c) c (fun u => .taken (u.modCur Thread.eret) u.cur.tepc 2) s := exec_eret c s

/-- Settles O21: ERET changes its thread alone, and no marker stands behind it. -/
theorem returnFromTrapResumesAtTepc : Obligations.ReturnFromTrapResumesAtTepc := by
  intro c s h
  have hs := slot_of_issues h
  have b0 := Beside.atIssue (.eret c) c hs
  have hsp := atIssue_specials s (.eret c) c hs
  have hsup : s.cur.sup = true := (congrArg Specials.sup (begin_cur_specials s hs)).symm.trans (sup_of_issues_eret h)
  rw [exec_eret_eq, issueWord_of_issues _ h, ownRegion_eret]
  obtain ⟨hr, hp, hq, hspec⟩ := eret_values (s.atIssue (.eret c) c).cur
  have b1 := b0.modCur hs Thread.eret hr hp hq
  have hcur := cur_modCur (s.atIssue (.eret c) c) Thread.eret (b0.slot hs)
  have hmove := moveOn_cur_of_shared ((s.atIssue (.eret c) c).modCur Thread.eret) (setTarget (.eret c)) c 2
    (s.atIssue (.eret c) c).cur.tepc (b1.slot hs)
  have b2 := b1.moveOn hs (setTarget (.eret c)) c false 2 (s.atIssue (.eret c) c).cur.tepc
  have htepc : (s.atIssue (.eret c) c).cur.tepc = s.cur.tepc := congrArg Specials.tepc hsp
  have htst : (s.atIssue (.eret c) c).cur.tstate = s.cur.tstate := congrArg Specials.tstate hsp
  have hsp2 : (((s.atIssue (.eret c) c).modCur Thread.eret).moveOn (setTarget (.eret c)) c false 2
      (s.atIssue (.eret c) c).cur.tepc).cur.specials = { s.cur.specials with sup := bit s.cur.tstate 0 } := by
    rw [specials_of_lasting (moveOn_lasting _ _ _ _ _ _ (b1.slot hs)), hcur, hspec, hsp, htst,
      show (s.atIssue (.eret c) c).cur.sup = true from (congrArg Specials.sup hsp).trans hsup, Bool.and_true]
  refine ⟨_, rfl, ?_, congrArg Specials.sup hsp2, fun h0 => ?_, b2.regAt, b2.samePreds, ?_, b2.units, b2.sameMemory⟩
  · exact (moveOn_pc _ _ _ _ _ _ (b1.slot hs)).trans htepc
  · obtain ⟨h1, h2, h3⟩ := eret_region (s.atIssue (.eret c) c).cur (by rw [htst]; exact h0)
    rw [htepc] at h1
    rw [htst] at h2
    simp only [Body.finish]
    rw [hmove, hcur]
    exact ⟨h1, h2, h3⟩
  · exact congrArg (fun x : Specials => { x with sup := s.cur.sup }) hsp2

end Sys2Proof.Machine
end

section
/-! SUPPORT. The beginning of an engine command: the token unit, FPUT and FGET (R89, R277 to R282). -/

namespace Sys2Proof.Machine

open Sys2Proof.Claims

/-! ## The end of a command (R275) -/

/-- What depends on no thread, a thread replaced leaves. -/
theorem ctx_setThread_keeps {α : Type} (g : Context → α)
    (hg : ∀ (c : Context) (l : Vector Thread 4), g { c with threads := l } = g c) (s : State) (tile slot : Nat) (th : Thread)
    (n : Nat) : g ((s.setThread tile slot th).ctx n) = g (s.ctx n) := by
  rw [ctx_setThread]
  split
  · next h => rw [hg, h]
  · rfl

/-- What depends on no thread, a reply leaves. -/
theorem ctx_replyTo {α : Type} (g : Context → α)
    (hg : ∀ (c : Context) (l : Vector Thread 4), g { c with threads := l } = g c) (s : State) (tile : Nat) (c : Cmd) (v : Word)
    (n : Nat) : g ((s.replyTo tile c v).ctx n) = g (s.ctx n) := by
  unfold State.replyTo
  split
  · rfl
  · dsimp only
    split
    · exact ctx_setThread_keeps g hg _ _ _ _ _
    · rfl

/-- The state in which a command of a thread has gone, its flags are posted, and a failed one has replied. -/
def State.closed (s : State) (tile : Nat) (c : Cmd) (st : TokState) : State :=
  if st.failed then ((s.modCtx tile (·.withoutCmd c st)).postFlags tile c.slot c.gid c.flags).replyTo tile c 0#64
  else (s.modCtx tile (·.withoutCmd c st)).postFlags tile c.slot c.gid c.flags

theorem endCmd_of_thread {s : State} {tile : Nat} {c : Cmd} (st : TokState) (cause : BitVec 6) (ha : c.armed = false) :
    s.endCmd tile c st cause = (s.closed tile c st).moveToken tile c st cause := by
  rw [endCmd_eq, ha, if_neg Bool.false_ne_true]
  rfl

/-- What depends on no thread is after the close of a command what it is once the command has gone. -/
theorem ctx_closed {α : Type} (g : Context → α)
    (hg : ∀ (c : Context) (l : Vector Thread 4), g { c with threads := l } = g c) (s : State) (tile : Nat) (c : Cmd)
    (st : TokState) (n : Nat) :
    g ((s.closed tile c st).ctx n) = g ((s.modCtx tile (·.withoutCmd c st)).ctx n) := by
  unfold State.closed
  split
  · rw [ctx_replyTo g hg, ctx_postFlags g hg]
  · rw [ctx_postFlags g hg]

theorem token_closed (s : State) (tile : Nat) (c : Cmd) (st : TokState) (n k : Nat) :
    (s.closed tile c st).token n k = s.token n k := by
  refine (ctx_closed (fun x => vget x.tokens k {}) (fun _ _ => rfl) s tile c st n).trans ?_
  unfold State.token
  by_cases hn : n = tile
  · rw [hn, ctx_modCtx_same]
    rfl
  · rw [ctx_modCtx_ne s _ hn]

theorem cmds_closed (s : State) (tile : Nat) (c : Cmd) (st : TokState) :
    ∀ x ∈ ((s.closed tile c st).ctx tile).cmds, x.id ≠ c.id := by
  intro x hx
  rw [ctx_closed (·.cmds) fun _ _ => rfl, ctx_modCtx_same] at hx
  exact bne_iff_ne.mp (List.mem_filter.mp hx).2

theorem moveToken_cause {s : State} {tile : Nat} {c : Cmd} (st : TokState) (cause : BitVec 6) {k : Nat}
    (hp : produced c.b = some k) (hown : (s.token tile k).owner = some c.id) :
    ((s.moveToken tile c st cause).token tile k).cause = cause := by
  unfold State.moveToken
  rw [hp]
  dsimp only
  rw [token_modToken_same s _ _ (produced_lt hp), if_pos hown]

/-- A command of a thread that ends with its own token has ended in that state and for that cause. -/
theorem endCmd_ends {s : State} {tile : Nat} {c : Cmd} (st : TokState) (cause : BitVec 6) (ha : c.armed = false)
    (hown : ∀ k, produced c.b = some k → (s.token tile k).owner = some c.id) :
    Ended s (s.endCmd tile c st cause) tile c st ∧
      ∀ k, produced c.b = some k → ((s.endCmd tile c st cause).token tile k).cause = cause := by
  have htok := token_closed s tile c st
  rw [endCmd_of_thread st cause ha]
  have hown' : ∀ k, produced c.b = some k → ((s.closed tile c st).token tile k).owner = some c.id := fun k hk => by
    rw [htok]
    exact hown k hk
  obtain ⟨⟨hturn, hstay⟩, hcmds⟩ := moveToken_turns (s.closed tile c st) tile c st cause hown'
  refine ⟨⟨fun x hx => ?_, hturn, fun n k h => (hstay n k h).trans (htok n k)⟩, fun k hk => moveToken_cause st cause hk (hown' k hk)⟩
  obtain ⟨y, hy, e⟩ := hcmds x hx
  rw [e]
  exact cmds_closed s tile c st y hy

theorem pool_moveToken (s : State) (tile : Nat) (c : Cmd) (st : TokState) (cause : BitVec 6) (n : Nat) :
    ((s.moveToken tile c st cause).ctx n).pool = (s.ctx n).pool := by
  unfold State.moveToken
  split
  · rfl
  · unfold State.modToken
    by_cases hn : n = tile
    · rw [hn, ctx_modCtx_same]
      rfl
    · rw [ctx_modCtx_ne s _ hn]

/-- The end of a thread's command leaves the accumulators of its tile. -/
theorem endCmd_acc {s : State} {tile : Nat} {c : Cmd} (st : TokState) (cause : BitVec 6) (ha : c.armed = false) :
    ((s.endCmd tile c st cause).ctx tile).pool.acc = (s.ctx tile).pool.acc := by
  rw [endCmd_of_thread st cause ha, pool_moveToken, ctx_closed (·.pool) fun _ _ => rfl, ctx_modCtx_same]
  show (if c.armed then _ else (s.ctx tile).pool.endOwned c.id : Pool).acc = _
  rw [ha]
  rfl

/-- What of the thread itself a new thread keeps, the state with it in its slot keeps of every thread. -/
theorem thread_setThread_keeps {α : Type} (π : Thread → α) (s : State) (tile slot : Nat) (th : Thread)
    (h : π th = π (s.thread tile slot)) (n j : Nat) : π ((s.setThread tile slot th).thread n j) = π (s.thread n j) := by
  by_cases hnj : n = tile ∧ j = slot
  · obtain ⟨rfl, rfl⟩ := hnj
    by_cases hj : j < 4
    · rw [thread_setThread_same s n th hj, h]
    · unfold State.setThread State.thread vset
      rw [ctx_modCtx_same, Vector.setIfInBounds_eq_of_size_le (Nat.le_of_not_lt hj)]
  · rw [thread_setThread_ne s th hnj]

/-- What depends not on a thread's flags, the posting of a command's flags leaves. -/
theorem thread_postFlags_keeps {α : Type} (π : Thread → α) (hf : ∀ th f, π { th with flags := f } = π th) (s : State)
    (tile slot gid : Nat) (f : BitVec 8) (n j : Nat) :
    π ((s.postFlags tile slot gid f).thread n j) = π (s.thread n j) := by
  unfold State.postFlags
  dsimp only
  split
  · exact thread_setThread_keeps π s tile slot _ (hf _ _) n j
  · rfl

/-- What depends on neither the flags nor the token wait of a thread, the end of a command that has not failed leaves. -/
theorem thread_endCmd_keeps {α : Type} (π : Thread → α) (hw : ∀ th w, π { th with twait := w } = π th)
    (hf : ∀ th f, π { th with flags := f } = π th) (s : State) (tile : Nat) (c : Cmd) (cause : BitVec 6) (ha : c.armed = false)
    (n j : Nat) : π ((s.endCmd tile c .visible cause).thread n j) = π (s.thread n j) := by
  have hmove : ∀ u : State, π ((u.moveToken tile c .visible cause).thread n j) = π (u.thread n j) := fun u => by
    unfold State.moveToken
    split
    · rfl
    · exact thread_modToken_keeps π hw u _ _ _ n j
  rw [endCmd_of_thread _ _ ha, hmove]
  exact (thread_postFlags_keeps π hf _ _ _ _ _ n j).trans
    (congrArg π (modCtx_keeps (f := (·.withoutCmd c .visible)) (fun x => vget x.threads j {}) (fun _ => rfl) s tile n))

/-! ## The reply of a command (R47, R278) -/

/-- A reply to a thread that still is the group's is in its register. -/
theorem reg_replyTo {s : State} {tile : Nat} {c : Cmd} (v : Word) {d : BitVec 5} (hd : c.reply = some d)
    (hslot : c.slot < 4) (hgid : (s.thread tile c.slot).gid = c.gid) :
    ((s.replyTo tile c v).thread tile c.slot).reg d = if d = 0#5 then 0#64 else v := by
  unfold State.replyTo
  rw [hd]
  dsimp only
  rw [if_pos ((settle_gid _ _).trans hgid), thread_setThread_same s _ _ hslot]
  exact reg_setReg_same _ d v

theorem token_replyTo (s : State) (tile : Nat) (c : Cmd) (v : Word) (n k : Nat) :
    (s.replyTo tile c v).token n k = s.token n k :=
  ctx_replyTo (fun x => vget x.tokens k {}) (fun _ _ => rfl) s tile c v n

/-- A command that ends after what left every token has ended. -/
theorem endCmd_ends_after {s u : State} {tile : Nat} {c : Cmd} (st : TokState) (cause : BitVec 6) (hst : Stands s tile c)
    (htok : ∀ n k, u.token n k = s.token n k) : Ended s (u.endCmd tile c st cause) tile c st := by
  obtain ⟨-, -, ha, hown⟩ := hst
  obtain ⟨⟨hgone, hturn, hstay⟩, -⟩ := endCmd_ends (s := u) st cause ha fun k hk => by
    rw [htok]
    exact hown k hk
  exact ⟨hgone, hturn, fun n k h => (hstay n k h).trans (htok n k)⟩

/-- A command that replies and ends: its reply is in d, it has ended, and W and memory are as before. -/
theorem replyTo_endCmd {s : State} {tile : Nat} {c : Cmd} (v : Word) {d : BitVec 5} (hst : Stands s tile c)
    (hd : c.reply = some d) (hslot : c.slot < 4) (hgid : (s.thread tile c.slot).gid = c.gid) :
    let t := (s.replyTo tile c v).endCmd tile c .visible 0#6
    Ended s t tile c .visible ∧ (t.thread tile c.slot).reg d = (if d = 0#5 then 0#64 else v) ∧ CommandsOnly s t := by
  have ⟨_, _, ha, _⟩ := hst
  refine ⟨endCmd_ends_after .visible 0#6 hst (token_replyTo s tile c v), ?_,
    (CommandsOnly.replyTo s tile c v).trans (CommandsOnly.endCmd _ tile c _ _)⟩
  rw [thread_endCmd_keeps (·.reg d) (fun _ _ => rfl) (fun _ _ => rfl) _ _ _ _ ha]
  exact reg_replyTo v hd hslot hgid

/-! ## TRESET (R281, R282) -/

/-- A token that TRESET has freed. -/
def TokenSlot.freed (t : TokenSlot) : TokenSlot :=
  { t with state := .free, cause := 0#6, frozen := false, owner := none, poisoned := false }

/-- A token after a TRESET that names it: FREE where it was final. -/
def TokenSlot.reset (t : TokenSlot) : TokenSlot := if t.seen.final then t.freed else t

theorem TokenSlot.reset_state (t : TokenSlot) : t.reset.state = if t.seen.final then .free else t.state := by
  unfold TokenSlot.reset
  split <;> rfl

/-- The state with one token of a tile FREE, where it was final. -/
def State.freeFinal (tile : Nat) (s : State) (k : Nat) : State :=
  if (s.token tile k).seen.final then s.modToken tile k TokenSlot.freed else s

theorem tokenReset_eq (s : State) (tile : Nat) (c : Cmd) :
    s.tokenReset tile c =
      (((List.range 64).filter fun k => bit c.a k).foldl (State.freeFinal tile) s).endCmd tile c .visible 0#6 := rfl

theorem commandsOnly_freeFinal (tile : Nat) (s : State) (k : Nat) : CommandsOnly s (s.freeFinal tile k) := by
  unfold State.freeFinal
  split
  · exact .modToken s tile k _
  · exact .refl s

theorem token_freeFinal_same (s : State) (tile : Nat) {k : Nat} (hk : k < 64) :
    (s.freeFinal tile k).token tile k = (s.token tile k).reset := by
  unfold State.freeFinal TokenSlot.reset
  split
  · exact token_modToken_same s tile _ hk
  · rfl

theorem token_freeFinal_ne (s : State) {tile k n j : Nat} (h : n ≠ tile ∨ j ≠ k) :
    (s.freeFinal tile k).token n j = s.token n j := by
  unfold State.freeFinal
  split
  · exact token_modToken_ne s _ h
  · rfl

theorem token_foldl_freeFinal_of_notMem (tile : Nat) {n j : Nat} : ∀ (l : List Nat) (s : State), n ≠ tile ∨ j ∉ l →
    (l.foldl (State.freeFinal tile) s).token n j = s.token n j
  | [], _, _ => rfl
  | k :: l, s, h => by
    rw [List.foldl_cons, token_foldl_freeFinal_of_notMem tile l _ (h.imp_right fun h => (mt (List.mem_cons_of_mem k) h)),
      token_freeFinal_ne s (h.imp_right fun h => (List.ne_of_not_mem_cons h))]

theorem token_foldl_freeFinal_of_mem (tile : Nat) {j : Nat} (hj : j < 64) : ∀ (l : List Nat) (s : State), l.Nodup → j ∈ l →
    (l.foldl (State.freeFinal tile) s).token tile j = (s.token tile j).reset
  | k :: l, s, hl, hmem => by
    obtain ⟨hk, hl⟩ := List.nodup_cons.mp hl
    rw [List.foldl_cons]
    rcases List.mem_cons.mp hmem with rfl | hmem
    · rw [token_foldl_freeFinal_of_notMem tile l _ (.inr hk), token_freeFinal_same s tile hj]
    · rw [token_foldl_freeFinal_of_mem tile hj l _ hl hmem,
        token_freeFinal_ne s (.inr (ne_of_mem_of_not_mem hmem hk))]

theorem mem_named_iff {w : Word} {k : Nat} (hk : k < 64) :
    k ∈ (List.range 64).filter (fun k => bit w k) ↔ w.getLsbD k = true := by
  simp [bit, hk]

/-- A TRESET that does not name its own token frees what it names and is final, and turns its own token VISIBLE. -/
theorem tokenReset_spec {s : State} {tile : Nat} {c : Cmd} (hst : Stands s tile c)
    (hnot : ∀ k, produced c.b = some k → c.a.getLsbD k = false) :
    let t := s.tokenReset tile c
    (∀ k, produced c.b = some k → (t.token tile k).state = .visible) ∧
    (∀ k, k < 64 → c.a.getLsbD k = true →
      (t.token tile k).state = if (s.token tile k).seen.final then .free else (s.token tile k).state) ∧
    (∀ k, k < 64 → c.a.getLsbD k = false → produced c.b ≠ some k → t.token tile k = s.token tile k) ∧ SameMemory s t := by
  obtain ⟨-, -, ha, hown⟩ := hst
  have hin (k : Nat) (hk : k < 64) := token_foldl_freeFinal_of_mem tile hk ((List.range 64).filter fun k => bit c.a k) s
    (List.nodup_range.filter fun k => bit c.a k)
  have hout (k : Nat) (hk : k < 64) (h : c.a.getLsbD k = false) :=
    token_foldl_freeFinal_of_notMem tile (n := tile) ((List.range 64).filter fun k => bit c.a k) s
      (.inr (mt (mem_named_iff hk).mp (ne_true_of_eq_false h)))
  have hmem : CommandsOnly s (((List.range 64).filter fun k => bit c.a k).foldl (State.freeFinal tile) s) :=
    AgreeIn.foldl _ (commandsOnly_freeFinal tile) _ s
  rw [tokenReset_eq]
  generalize ((List.range 64).filter fun k => bit c.a k).foldl (State.freeFinal tile) s = u at *
  obtain ⟨⟨-, hturn, hstay⟩, -⟩ := endCmd_ends (s := u) .visible 0#6 ha fun k hk => by
    rw [hout k (produced_lt hk) (hnot k hk)]
    exact hown k hk
  refine ⟨fun k hk => (hturn k hk).1, fun k hk h => ?_, fun k hk h hp => ?_, (hmem.trans (CommandsOnly.endCmd u tile c _ _)).sameMemory⟩
  · rw [hstay tile k (.inr fun hp => by simp [hnot k hp] at h), hin k hk ((mem_named_iff hk).mpr h), TokenSlot.reset_state]
  · rw [hstay tile k (.inr hp), hout k hk h]

/-! ## TQUERY (R282) -/

/-- The fields of the word of TQUERY. -/
theorem query_fields {x : TokenSlot} (hp : x.poisoned = false) :
    x.query.toNat % 256 = x.state.code ∧ x.query.toNat / 2 ^ 8 % 256 = x.cause.toNat ∧ x.query.getLsbD 16 = x.frozen ∧
      x.query.toNat / 2 ^ 17 % 128 = x.func.toNat ∧ x.query.toNat / 2 ^ 32 = x.prog % 2 ^ 32 := by
  have hcode : x.state.code < 7 := by cases x.state <;> decide
  have hcause : x.cause.toNat < 64 := x.cause.isLt
  have hfunc : x.func.toNat < 128 := x.func.isLt
  have hq : x.query.toNat = (2 ^ 32 * x.prog + 2 ^ 17 * x.func.toNat + 2 ^ 16 * b2n x.frozen + 2 ^ 8 * x.cause.toNat +
      x.state.code) % 2 ^ 64 := by
    unfold TokenSlot.query TokenSlot.causeSeen TokenSlot.seen
    rw [hp]
    rfl
  have hfrozen : b2n x.frozen < 2 := by cases x.frozen <;> decide
  refine ⟨by omega, by omega, ?_, by omega, by omega⟩
  have h16 : x.query.toNat / 2 ^ 16 % 2 = b2n x.frozen := by omega
  rw [BitVec.getLsbD, Nat.testBit_eq_decide_div_mod_eq, h16]
  cases x.frozen <;> rfl

/-! ## The beginning (R277) -/

/-- A command that its engine begins next, with a consumed token failed, ends FAULTED; with its tokens satisfied and its
engine free it starts. -/
theorem commandBegin_of_beginsNext {s : State} {tile : Nat} {c : Cmd} (hb : BeginsNext s tile c) :
    exec (.engineCommandBegin tile c.id) s = .next (s.commandBegin tile c) ∧
    (c.upstream = true → s.commandBegin tile c = s.endCmd tile c .faulted 0x09#6) ∧
    (c.upstream = false → c.satisfied = 7#3 → s.engineFree tile c = true → s.commandBegin tile c = s.commandStart tile c) := by
  obtain ⟨⟨htile, hcmd, -, -⟩, hstage, hstop, hhead⟩ := hb
  have hgo : (decide (c.stage ≠ .waiting) || (s.tile tile).stopped || !s.atHead tile c) = false := by
    rw [hstage, hstop, hhead]
    rfl
  refine ⟨?_, fun hup => ?_, fun hup hsat hfree => ?_⟩
  · show withCmd tile c.id (fun c => s.commandBegin tile c) s = _
    unfold withCmd
    rw [if_neg (by omega), hcmd]
  · unfold State.commandBegin
    rw [hgo, hup, if_neg Bool.false_ne_true, if_pos rfl]
  · have hwait : (!c.decided || !s.engineFree tile c) = false := by
      unfold Cmd.decided
      rw [hsat, hfree]
      rfl
    unfold State.commandBegin
    rw [hgo, hup, if_neg Bool.false_ne_true, if_neg Bool.false_ne_true, hwait, if_neg Bool.false_ne_true]

/-- An engine without a queue, FGO's excepted, is free. -/
theorem engineFree_of_func {s : State} {tile : Nat} {c : Cmd} (hq : queueOf c.func = none) (hf : c.func ≠ 0x31#7) :
    s.engineFree tile c = true := by
  unfold State.engineFree
  rw [hq]
  simp [hf]

section starts

variable {s : State} {tile : Nat} {c : Cmd}

theorem commandStart_tjoin (hf : c.func = 0x38#7) : s.commandStart tile c = s.endCmd tile c .visible 0#6 := by
  unfold State.commandStart
  rw [hf]
  rfl

theorem commandStart_treset (hf : c.func = 0x39#7) : s.commandStart tile c = s.tokenReset tile c := by
  unfold State.commandStart
  rw [hf]
  rfl

theorem commandStart_tquery (hf : c.func = 0x3A#7) : s.commandStart tile c = s.tokenQuery tile c := by
  unfold State.commandStart
  rw [hf]
  rfl

theorem commandStart_fput (hf : c.func = 0x33#7) : s.commandStart tile c = s.fputBegin tile c := by
  unfold State.commandStart
  rw [hf]
  rfl

theorem commandStart_fget (hf : c.func = 0x34#7) : s.commandStart tile c = s.fgetBegin tile c := by
  unfold State.commandStart
  rw [hf]
  rfl

end starts

/-! ## FPUT and FGET (R89) -/

theorem wKey_eq_of_win {s t : State} {p : TeId} (h : (t.tile p.1).win = (s.tile p.1).win) (m : Nat) :
    t.wKey p m = s.wKey p m := by
  unfold State.wKey
  rw [h]

/-- A word of W that is not the one written keeps its value. -/
theorem readW_writeW_other (s : State) {p q : TeId} {n m : Nat} (v : W32) (h : s.wKey q m ≠ s.wKey p n ∨ q.1 ≠ p.1) :
    (s.writeW p n v).readW q m = s.readW q m := by
  by_cases hq : q.1 = p.1
  · have hk : s.wKey q m ≠ s.wKey p n := h.resolve_right (not_not_intro hq)
    unfold State.readW
    rw [wKey_eq_of_win ((WordsOnly.writeW s p n v).tileKeeps (·.win) (fun _ => rfl) q.1)]
    unfold State.writeW
    rw [hq, tile_modTile_same]
    exact get_set_ne _ _ _ hk
  · unfold State.readW State.wKey State.writeW
    rw [tile_modTile_ne s _ hq]

theorem fputBegin_spec {s : State} {tile : Nat} {c : Cmd} {p : TeId} {n : Nat} (hst : Stands s tile c)
    (hw : s.wTarget tile c = some (p, n)) :
    let t := s.fputBegin tile c
    Ended s t tile c .visible ∧ t.readW p n = BitVec.ofNat 32 (c.b.toNat % 2 ^ 32) ∧
      (∀ q m, s.wKey q m ≠ s.wKey p n ∨ q.1 ≠ p.1 → t.readW q m = s.readW q m) ∧ SameMemory s t := by
  have hlow : low c.b = c.b.toNat % 2 ^ 32 := by simp [low, bits]
  have ht : s.fputBegin tile c = (s.writeW p n (BitVec.ofNat 32 (low c.b))).endCmd tile c .visible 0#6 := by
    unfold State.fputBegin
    rw [hw]
  have hwords := WordsOnly.writeW s p n (BitVec.ofNat 32 (low c.b))
  rw [ht]
  have hend := CommandsOnly.endCmd (s.writeW p n (BitVec.ofNat 32 (low c.b))) tile c .visible 0#6
  refine ⟨endCmd_ends_after _ _ hst hwords.token, ?_, fun q m h => ?_, fun a => ?_, ?_⟩
  · rw [readW_commandsOnly hend, readW_writeW_same, hlow]
  · rw [readW_commandsOnly hend, readW_writeW_other s _ h]
  · exact (hend.sameMemory.1 a).trans (hwords.sameMemory.1 a)
  · exact hend.poison.trans hwords.poison

theorem rejectCmd_spec {s : State} {tile : Nat} {c : Cmd} (hst : Stands s tile c) :
    Ended s (s.rejectCmd tile c) tile c .faulted ∧ (∀ q m, (s.rejectCmd tile c).readW q m = s.readW q m) ∧
      SameMemory s (s.rejectCmd tile c) :=
  have h := CommandsOnly.endCmd s tile c .faulted 0x0A#6
  ⟨endCmd_ends_after _ _ hst fun _ _ => rfl, readW_commandsOnly h, h.sameMemory⟩

theorem fputBegin_of_none {s : State} {tile : Nat} {c : Cmd} (hw : s.wTarget tile c = none) :
    s.fputBegin tile c = s.rejectCmd tile c := by
  unfold State.fputBegin
  rw [hw]

theorem fgetBegin_of_none {s : State} {tile : Nat} {c : Cmd} (hw : s.wTarget tile c = none) :
    s.fgetBegin tile c = s.rejectCmd tile c := by
  unfold State.fgetBegin
  rw [hw]

theorem fgetBegin_of_some {s : State} {tile : Nat} {c : Cmd} {p : TeId} {n : Nat} (hw : s.wTarget tile c = some (p, n))
    (hbad : s.wBad p n = false) :
    s.fgetBegin tile c = (s.replyTo tile c ((s.readW p n).setWidth 64)).endCmd tile c .visible 0#6 := by
  unfold State.fgetBegin
  rw [hw]
  dsimp only
  rw [hbad, if_neg Bool.false_ne_true]

/-- Settles O40: the command's engine begins it by the equation of its function, and each function is told by what it does
before the command ends. -/
theorem enginesBeginCommands : Obligations.EnginesBeginCommands := by
  intro tile c s hb
  obtain ⟨hexec, hfail, hstart⟩ := commandBegin_of_beginsNext hb
  obtain ⟨hst, -⟩ := hb
  dsimp only
  rw [hexec]
  refine ⟨fun hup _ => ?_, fun hup hsat => ?_⟩
  · rw [hfail hup]
    obtain ⟨-, -, ha, hown⟩ := hst
    obtain ⟨hended, hcause⟩ := endCmd_ends (s := s) .faulted 0x09#6 ha hown
    have hcmd := CommandsOnly.endCmd s tile c .faulted 0x09#6
    exact ⟨_, rfl, hended, hcause, hcmd.teAt, endCmd_acc _ _ ha, hcmd.sameMemory⟩
  have hgo {f : BitVec 7} (hf : c.func = f) (hq : queueOf f = none) (hne : f ≠ 0x31#7) :
      s.commandBegin tile c = s.commandStart tile c :=
    hstart hup hsat (engineFree_of_func (hf ▸ hq) (hf ▸ hne))
  refine ⟨fun hf => ?_, fun hf hnot => ?_, fun d hd hslot hgid hf hp => ?_, fun p n hw => ⟨fun hf => ?_,
    fun d hd hslot hgid hf hbad => ?_⟩, fun hf hw => ?_⟩
  · rw [hgo hf rfl (by decide), commandStart_tjoin hf]
    exact ⟨_, rfl, endCmd_ends_after _ _ hst fun _ _ => rfl, (CommandsOnly.endCmd s tile c _ _).sameMemory⟩
  · rw [hgo hf rfl (by decide), commandStart_treset hf]
    exact ⟨_, rfl, tokenReset_spec hst hnot⟩
  · rw [hgo hf rfl (by decide), commandStart_tquery hf]
    have hk : bits c.a 5 0 = c.a.toNat % 64 := by simp [bits]
    unfold State.tokenQuery
    rw [hk]
    obtain ⟨hended, hreg, hcmd⟩ := replyTo_endCmd (s.token tile (c.a.toNat % 64)).query hst hd hslot hgid
    obtain ⟨hstate, hcause, hfrozen, hfunc, hprog⟩ := query_fields hp
    exact ⟨_, _, rfl, hended, hreg, hstate, hcause, hfrozen, hfunc, hprog, hcmd.sameMemory⟩
  · rw [hgo hf rfl (by decide), commandStart_fput hf]
    exact ⟨_, rfl, fputBegin_spec hst hw⟩
  · rw [hgo hf rfl (by decide), commandStart_fget hf, fgetBegin_of_some hw hbad]
    obtain ⟨hended, hreg, hcmd⟩ := replyTo_endCmd ((s.readW p n).setWidth 64) hst hd hslot hgid
    exact ⟨_, rfl, hended, hreg, readW_commandsOnly hcmd, hcmd.sameMemory⟩
  · refine ⟨_, rfl, ?_⟩
    rcases hf with hf | hf
    · rw [hgo hf rfl (by decide), commandStart_fput hf, fputBegin_of_none hw]
      exact rejectCmd_spec hst
    · rw [hgo hf rfl (by decide), commandStart_fget hf, fgetBegin_of_none hw]
      exact rejectCmd_spec hst

end Sys2Proof.Machine
end

section
/-! SUPPORT. LDLIT and LDPRM (R66, R101): what a load that awaits its value leaves, and where it takes its bytes. -/

namespace Sys2Proof.Machine

open Sys2Proof.Claims

/-! ## Words that leave one result outstanding -/

theorem atIssue_far (s : State) (i : Instr) (c : Ctl) : (s.atIssue i c).pkg.far = s.pkg.far := by
  unfold State.atIssue State.enter
  dsimp only
  split
  · rfl
  · split <;> rfl

theorem await_values (th : Thread) (o : Outstanding) :
    (th.await o).outstanding = th.outstanding ++ [{ o with id := th.nextLoad }] ∧ (th.await o).pc = th.pc ∧
      (th.await o).specials = th.specials ∧ (th.await o).regs = th.regs ∧ (th.await o).preds = th.preds ∧
      (th.await o).pend = th.pend := ⟨rfl, rfl, rfl, rfl, rfl, rfl⟩

/-- A state whose thread in focus awaits one more result stands beside the same state. -/
theorem Beside.await {s u : State} (b : Beside s u) (h : s.focus.slot < 4) (o : Outstanding) :
    Beside s (u.modCur (·.await o)) := by
  obtain ⟨-, -, -, hr, hp, hq⟩ := await_values u.cur o
  exact b.modCur h _ hr hp hq

/-- A word whose effect is that the thread of its issue awaits one more result leaves that result outstanding, and nothing
else. -/
theorem awaitBody_spec {i : Instr} {c : Ctl} {s v : State} {body : State → Body} {o : Outstanding} (h : issues i c s = true)
    (hb : body (s.atIssue i c) = .done v) (b : Beside s v) (hv : v.cur = (s.atIssue i c).cur.await o) :
    ∃ t, issueWord i c body s = .next t ∧ Awaits s t { o with id := (s.atIssue i c).cur.nextLoad } ∧
      ∀ n r, t.cur.regAt n r = s.begin.cur.regAt n r := by
  have hs := slot_of_issues h
  obtain ⟨t, ht, bt, hl, hpc, -⟩ := doneBeside_spec h hb b
  obtain ⟨hout, hpc', hsp, -⟩ := await_values (s.atIssue i c).cur o
  rw [hv] at hl hpc
  refine ⟨t, ht, ⟨(outstanding_of_lasting hl).trans (hout.trans ?_), ?_, bt.samePreds,
    (specials_of_lasting hl).trans (hsp.trans (atIssue_specials s i c hs)), bt.units, bt.sameMemory⟩, bt.regAt⟩
  · rw [atIssue_outstanding s i c hs]
  · rw [hpc, hpc', atIssue_pc s i c hs]

/-! ## LDLIT (R66) -/

theorem readBytes_eq (m : Memory) : ∀ (n l : Nat), m.readBytes l n = (List.range n).map fun j => m.read (l + j)
  | 0, _ => rfl
  | n + 1, l => by
    rw [Memory.readBytes, readBytes_eq m n (l + 1), List.range_succ_eq_map, List.map_cons, List.map_map]
    refine congrArg (m.read l :: ·) (List.map_congr_left fun j _ => ?_)
    show m.read (l + 1 + j) = m.read (l + (j + 1))
    rw [Nat.add_right_comm, Nat.add_assoc]

/-- The result that LDLIT awaits. -/
def literal (s : State) (d : BitVec 5) (l : Nat) : Outstanding :=
  { id := 0, dst := d, src := .value, value := some (Word.ofN (s.mem.readLe l 8)), space := .sp, due := s.now + 6 }

/-- The effect of LDLIT. -/
def literalBody (d : BitVec 5) (imm : BitVec 13) (s : State) : Body :=
  let addr := (s.cur.pc &&& ~~~7#64) + BitVec.ofInt 64 (8 * imm.toInt)
  match s.textLoc s.focus.tile s.cur.gid s.cur.sup addr 8 with
  | none => .trap s (textTrap addr)
  | some l => .done (s.modCur fun th => th.await (literal s d l))

theorem exec_ldlit_eq (c : Ctl) (d : BitVec 5) (imm : BitVec 13) (s : State) :
    exec (.ldlit c d imm) s = issueWord (.ldlit c d imm) c (literalBody d imm) s := exec_ldlit c d imm s

theorem literalLoadsReadTheText : LiteralLoadsReadTheText := by
  intro c d imm s l h hl
  have hs := slot_of_issues h
  have b := Beside.atIssue (.ldlit c d imm) c hs
  have hsp := atIssue_specials s (.ldlit c d imm) c hs
  have hb : literalBody d imm (s.atIssue (.ldlit c d imm) c) =
      .done ((s.atIssue (.ldlit c d imm) c).modCur fun th => th.await (literal s d l)) := by
    unfold literalBody
    dsimp only
    rw [textLoc_congr (atIssue_groups ..), atIssue_focus, atIssue_gid s _ c hs, atIssue_pc s _ c hs,
      show (s.atIssue (.ldlit c d imm) c).cur.sup = s.cur.sup from congrArg Specials.sup hsp, hl]
    simp only [literal, atIssue_mem, atIssue_now]
  obtain ⟨t, ht, haw, hregs⟩ := awaitBody_spec h hb (b.await hs _) (cur_modCur _ _ (b.slot hs))
  refine ⟨t, _, (exec_ldlit_eq c d imm s).trans ht, haw, rfl, ?_, hregs⟩
  rw [← readBytes_eq]
  rfl

/-! ## LDPRM outside its window (R101) -/

/-- A thread with one more flag. -/
def Thread.raised (th : Thread) (f : BitVec 8) : Thread := { th with flags := th.flags ||| f }

/-- PB or PN is posted in the flags of the thread in focus, which keeps everything else (R338). -/
theorem postParam_cur (u : State) (f : BitVec 8) (win : Nat) (off : Word) (h : u.focus.slot < 4) :
    (u.postParam f win off).focus = u.focus ∧ (u.postParam f win off).cur = u.cur.raised f := by
  have hcur := cur_modCur u (·.raised f) h
  unfold State.postParam
  dsimp only
  split
  · exact ⟨rfl, hcur⟩
  · split
    · exact ⟨rfl, hcur⟩
    · exact ⟨log_focus _ _, (cur_congr (log_tiles _ _) (log_focus _ _)).trans hcur⟩

/-- The zero that LDPRM awaits. -/
def zeroOutstanding (d : BitVec 5) (now : Nat) : Outstanding :=
  { id := 0, dst := d, src := .value, value := some 0#64, due := now + 6 }

theorem zeroLoad_cur (d : BitVec 5) (u : State) (h : u.focus.slot < 4) :
    (zeroLoad d u).focus = u.focus ∧ (zeroLoad d u).cur = u.cur.await (zeroOutstanding d u.now) :=
  ⟨rfl, cur_modCur u (fun x => x.await (zeroOutstanding d u.now)) h⟩

theorem raised_await_values (th : Thread) (f : BitVec 8) (o : Outstanding) :
    let x := (th.raised f).await o
    x.regs = th.regs ∧ x.preds = th.preds ∧ x.pend = th.pend ∧
      x.outstanding = th.outstanding ++ [{ o with id := th.nextLoad }] ∧ x.pc = th.pc ∧
      x.specials.flags = th.specials.flags ||| f := ⟨rfl, rfl, rfl, rfl, rfl, rfl⟩

/-- A word that posts PB or PN leaves a zero outstanding, and goes on. -/
theorem postBody_spec {i : Instr} {c : Ctl} {s : State} {body : State → Body} {d : BitVec 5} {f : BitVec 8} {win : Nat}
    {off : Word} (h : issues i c s = true)
    (hb : body (s.atIssue i c) = .done (zeroLoad d ((s.atIssue i c).postParam f win off))) :
    ∃ t x, issueWord i c body s = .next t ∧ t.cur.outstanding = s.cur.outstanding ++ [x] ∧ x.dst = d ∧ x.value = some 0#64 ∧
      t.cur.flags = s.cur.flags ||| f ∧ t.cur.pc = s.cur.pc + 4#64 ∧
      (∀ n r, t.cur.regAt n r = s.begin.cur.regAt n r) ∧ SamePreds s t := by
  have hs := slot_of_issues h
  have b := Beside.atIssue i c hs
  have hsp := congrArg Specials.flags (atIssue_specials s i c hs)
  obtain ⟨hf, hcur⟩ := postParam_cur (s.atIssue i c) f win off (b.slot hs)
  obtain ⟨hzf, hz⟩ := zeroLoad_cur d ((s.atIssue i c).postParam f win off) (by rw [hf]; exact b.slot hs)
  obtain ⟨t, ht, hl, hpc, -⟩ := doneBody_spec h hb (hzf.trans (hf.trans b.focus))
  obtain ⟨hregs, hpreds, hpend, hout, hpc', hflags⟩ := raised_await_values (s.atIssue i c).cur f
    (zeroOutstanding d ((s.atIssue i c).postParam f win off).now)
  rw [← hcur, ← hz] at hregs hpreds hpend hout hpc' hflags
  have hr := (regs_of_lasting hl).trans (hregs.trans b.regs)
  have hq := (pend_of_lasting hl).trans (hpend.trans b.pend)
  have hp := (preds_of_lasting hl).trans (hpreds.trans b.preds)
  refine ⟨t, { zeroOutstanding d ((s.atIssue i c).postParam f win off).now with id := (s.atIssue i c).cur.nextLoad }, ht,
    (outstanding_of_lasting hl).trans (hout.trans ?_), rfl, rfl, ?_, ?_, fun n r => regAt_congr hr hq n r,
    fun n p => predAt_congr hp hq n p⟩
  · rw [atIssue_outstanding s i c hs]
  · exact (congrArg Specials.flags (specials_of_lasting hl)).trans (hflags.trans (congrArg (· ||| f) hsp))
  · rw [hpc, hpc', atIssue_pc s i c hs]

/-! ## Where a load takes its bytes (R98) -/

/-- With no access to a space buffered, memory gives every byte of it. -/
theorem byteSource_of_none {space : Space} (place : Nat) : ∀ {bufs : List Buffered}, (∀ b ∈ bufs, b.space ≠ space) →
    byteSource space place bufs = .memory
  | [], _ => rfl
  | b :: bs, h => by
    rw [byteSource, if_neg (h b List.mem_cons_self)]
    exact byteSource_of_none place fun x hx => h x (List.mem_cons_of_mem b hx)

theorem byteSources_of_none {space : Space} {bufs : List Buffered} (h : ∀ b ∈ bufs, b.space ≠ space) : ∀ (n place : Nat),
    byteSources space bufs place n = List.replicate n .memory
  | 0, _ => rfl
  | n + 1, place => by
    rw [byteSources, byteSource_of_none place h, byteSources_of_none h n (place + 1), List.replicate_succ]

theorem not_contains_atomic (n : Nat) : (List.replicate n ByteSource.memory).contains .atomic = false := by
  simp

theorem forwarded_memory (n : Nat) : forwarded (List.replicate n .memory) = List.replicate n none := by
  simp [forwarded]

/-- Where nothing is forwarded, the bytes are those of memory. -/
theorem mergeBytes_none : ∀ (ms : List Byte), mergeBytes (List.replicate ms.length none) ms = ms
  | [] => rfl
  | m :: ms => by
    rw [List.length_cons, List.replicate_succ, mergeBytes, mergeBytes_none ms]

@[simp] theorem length_loadBytes (s : State) (tile gid : Nat) (space : Space) : ∀ (n place : Nat),
    (s.loadBytes tile gid space place n).length = n
  | 0, _ => rfl
  | n + 1, place => congrArg (· + 1) (length_loadBytes s tile gid space n (place + 1))

/-- The last checks of a read ask only whether some byte comes from memory. -/
theorem readFault_congr (s : State) (tile gid : Nat) (space : Space) (place : Nat) {l k : List (Option Byte)}
    (h : l.any Option.isNone = k.any Option.isNone) :
    s.readFault tile gid space place l = s.readFault tile gid space place k := by
  unfold State.readFault State.loadPoisoned
  rw [h]

theorem seenByte_congr {s u : State} (hm : u.mem = s.mem) (hf : u.pkg.far = s.pkg.far) (tile loc : Nat) :
    u.seenByte tile loc = s.seenByte tile loc := by
  unfold State.seenByte State.farByte
  rw [hm, hf]

theorem loadBytes_g_congr {s u : State} (hm : u.mem = s.mem) (hf : u.pkg.far = s.pkg.far) (tile gid : Nat) :
    ∀ (n place : Nat), u.loadBytes tile gid .g place n = s.loadBytes tile gid .g place n
  | 0, _ => rfl
  | n + 1, place => by
    rw [State.loadBytes, State.loadBytes, loadBytes_g_congr hm hf tile gid n (place + 1)]
    exact congrArg (· :: _) (seenByte_congr hm hf tile place)

theorem resolve_far {s s' : State} {b : TlbId} {tile gid : Nat} {space : Space} {addr : Word} {size place : Nat}
    {need : Need} (h : s.resolve b tile gid space addr size need = .ok (place, s')) : s'.pkg.far = s.pkg.far :=
  resolve_keeps (·.pkg.far) (fun u b l => by cases b <;> rfl) (fun u d l => by unfold State.fillWalker; split <;> rfl) h

/-! ## The result of a load (R53, R95) -/

theorem Beside.takeBank {s u : State} (b : Beside s u) (bank : Option Nat) (gid n : Nat) :
    Beside s (u.takeBank bank gid n).2 := by
  obtain ⟨k, hk⟩ := takeBank_eq u bank gid n
  rw [hk]
  exact b.of_ctx rfl rfl rfl fun _ => rfl

theorem Beside.noteRead {s u : State} (b : Beside s u) (tile place n : Nat) : Beside s (u.noteRead tile place n) := by
  obtain ⟨l, hl⟩ := noteRead_eq u tile place n
  rw [hl]
  exact b.of_ctx rfl rfl rfl fun _ => rfl

theorem cur_takeBank (u : State) (bank : Option Nat) (gid n : Nat) :
    (u.takeBank bank gid n).2.cur = u.cur := by
  obtain ⟨k, hk⟩ := takeBank_eq u bank gid n
  rw [hk]
  rfl

theorem cur_noteRead (u : State) (tile place n : Nat) : (u.noteRead tile place n).cur = u.cur := by
  obtain ⟨l, hl⟩ := noteRead_eq u tile place n
  rw [hl]
  rfl

theorem ctx_send (u : State) (tile slot : Nat) (space : Space) (place : Nat) (load : Payload) (n : Nat) :
    (u.send tile slot space place load).ctx n = u.ctx n := by
  unfold State.send
  split
  · rfl
  · exact ctx_present _ _ _ _

theorem cur_send (u : State) (tile slot : Nat) (space : Space) (place : Nat) (load : Payload) :
    (u.send tile slot space place load).cur = u.cur := by
  unfold State.cur State.thread
  rw [ctx_send, send_focus]

/-- The result that a read performed at once leaves outstanding, after a wait for its bank. -/
def State.readOutstanding (u : State) (space : Space) (d : BitVec 5) (place : Nat) (addr v : Word) (net : Bool)
    (wait : Nat) : Outstanding :=
  { id := 0
    dst := d
    src := .load
    value := some v
    space := space
    place := place
    due := u.now + latencyOf u.focus.tile space place + wait
    inNet := net && space != .sp
    va := addr }

theorem awaitRead_eq (u : State) (space : Space) (d : BitVec 5) (place : Nat) (addr v : Word) (net : Bool) :
    u.awaitRead space d place addr v net =
      let q := (if net && space == .g then u.noteRead u.focus.tile place 8 else u).takeBank (u.readBank space place net)
        u.cur.gid u.cur.replayEnd
      let x := q.2.modCur (·.await (u.readOutstanding space d place addr v net q.1))
      if net then x.send u.focus.tile u.focus.slot space place (.load u.focus.tile u.focus.slot u.cur.nextLoad) else x := rfl

/-- A read that is performed at once leaves its value outstanding in its register. -/
theorem awaitRead_spec {s u : State} (b : Beside s u) (h : s.focus.slot < 4) (space : Space) (d : BitVec 5) (place : Nat)
    (addr v : Word) (net : Bool) :
    Beside s (u.awaitRead space d place addr v net) ∧
      ∃ wait, (u.awaitRead space d place addr v net).cur = u.cur.await (u.readOutstanding space d place addr v net wait) := by
  rw [awaitRead_eq]
  dsimp only
  obtain ⟨w, hw⟩ : ∃ w, w = if net && space == .g then u.noteRead u.focus.tile place 8 else u := ⟨_, rfl⟩
  have hbw : Beside s w ∧ w.cur = u.cur := by
    rw [hw]
    split
    · exact ⟨b.noteRead _ _ _, cur_noteRead _ _ _ _⟩
    · exact ⟨b, rfl⟩
  rw [← hw]
  have bq := hbw.1.takeBank (u.readBank space place net) u.cur.gid u.cur.replayEnd
  have cq := (cur_takeBank w (u.readBank space place net) u.cur.gid u.cur.replayEnd).trans hbw.2
  generalize w.takeBank (u.readBank space place net) u.cur.gid u.cur.replayEnd = q at *
  have bx := bq.await h (u.readOutstanding space d place addr v net q.1)
  have cx := cur_modCur q.2 (·.await (u.readOutstanding space d place addr v net q.1)) (bq.slot h)
  rw [cq] at cx
  generalize q.2.modCur (·.await (u.readOutstanding space d place addr v net q.1)) = x at *
  split
  · exact ⟨bx.of_ctx (send_focus ..) (send_mem ..) (send_poison ..) (ctx_send x _ _ _ _ _), q.1, (cur_send ..).trans cx⟩
  · exact ⟨bx, q.1, cx⟩

/-! ## LDPRM in its window (R101) -/

theorem Beside.resolve {s u v : State} (b : Beside s u) {t : TlbId} {tile gid : Nat} {space : Space} {addr : Word}
    {size place : Nat} {need : Need} (h : u.resolve t tile gid space addr size need = .ok (place, v)) : Beside s v :=
  b.of_ctx (resolve_focus h) (resolve_mem h) (resolve_poison h) (resolve_ctx h)

/-- An address that resolves is a multiple of its access's size (R92). -/
theorem aligned_of_resolve {s v : State} {t : TlbId} {tile gid : Nat} {space : Space} {addr : Word} {size place : Nat}
    {need : Need} (h : s.resolve t tile gid space addr size need = .ok (place, v)) : addr.toNat % size = 0 := by
  by_contra hne
  rw [State.resolve, if_pos hne] at h
  cases h

/-- What a resolved address changes of no state, the resolved addresses of several bytes change of none. -/
theorem resolveEach_keeps {α : Type} (f : State → α) (hf : ∀ (u : State) (b : TlbId) (l : List Leaf), f (u.setTlb b l) = f u)
    (hw : ∀ (u : State) (d : Nat) (l : List Leaf), f (u.fillWalker d l) = f u) {s : State} {addr : Word} :
    ∀ {n : Nat} {ps : List Nat} {u : State}, s.resolveEach addr n = .ok (ps, u) → f u = f s ∧ ps.length = n
  | 0, _, _, h => by
    cases h
    exact ⟨rfl, rfl⟩
  | n + 1, ps, u, h => by
    unfold State.resolveEach at h
    split at h
    · cases h
    · next qs v hv =>
      obtain ⟨hkeep, hlen⟩ := resolveEach_keeps f hf hw hv
      cases hr : v.resolve (.tile s.focus.tile) s.focus.tile s.cur.gid .g (addr + Word.ofN n) 1 needLoad with
      | error e => rw [hr] at h; cases h
      | ok r =>
        rw [hr] at h
        cases h
        exact ⟨(resolve_keeps f hf hw hr).trans hkeep, by simp [hlen]⟩

/-- The result that a read behind its thread's earlier accesses leaves outstanding. -/
def QueuedRead.outstanding (q : QueuedRead) (space : Space) (d : BitVec 5) (addr : Word) (after : Nat) : Outstanding :=
  { id := 0, dst := d, src := .load, space := space, place := q.places.headD 0, va := addr,
    queued := some { q with after := after } }

/-- A read of G that stands behind earlier accesses, or is performed at once, leaves one result outstanding in its
register: its places, or its value. -/
theorem readBody_spec {s u : State} (b : Beside s u) (h : s.focus.slot < 4) (wait : Bool) (d : BitVec 5) (q : QueuedRead)
    (place : Nat) (addr v : Word) (net : Bool) :
    ∃ w x, (if wait then .done (u.queueRead .g d addr q) else .done (u.awaitRead .g d place addr v net) : Body) = .done w ∧
      Beside s w ∧ w.cur = u.cur.await x ∧ x.dst = d ∧ x.value = (if wait then none else some v) ∧
      x.queued.map (·.places) = if wait then some q.places else none := by
  cases wait with
  | true =>
    have bw := b.await h (q.outstanding .g d addr u.cur.nextSid)
    have cw := cur_modCur u (fun x => x.await (q.outstanding .g d addr x.nextSid)) (b.slot h)
    have hw : u.queueRead .g d addr q = u.modCur fun x => x.await (q.outstanding .g d addr x.nextSid) := rfl
    exact ⟨_, _, rfl, bw, hw ▸ cw, rfl, rfl, rfl⟩
  | false =>
    obtain ⟨bw, wait, cw⟩ := awaitRead_spec b h .g d place addr v net
    exact ⟨_, _, rfl, bw, cw, rfl, rfl, rfl⟩

/-- A load of 8 bytes of G, none of them buffered, takes them from memory as its tile sees it. -/
theorem loadBody_g_spec {s u v : State} (b : Beside s u) (hs : s.focus.slot < 4) (hfar : u.pkg.far = s.pkg.far)
    (hgid : u.cur.gid = s.cur.gid) {d : BitVec 5} {o : Word × Word × Word} {addr : Word} {place : Nat}
    (hnone : ∀ x ∈ u.cur.buffered, x.space ≠ .g)
    (hres : u.resolve (.tile s.focus.tile) s.focus.tile s.cur.gid .g addr 8 needLoad = .ok (place, v))
    (hfault : v.readFault s.focus.tile s.cur.gid .g place [none] = none) :
    ∃ w x, loadBody .g d o addr 8 false 0#32 id u = .done w ∧ Beside s w ∧ w.cur = u.cur.await x ∧ x.dst = d ∧
      x.value = (if u.cur.mustWait .g then none
        else some (BitVec.ofNat 64 (leNat (s.loadBytes s.focus.tile s.cur.gid .g place 8)))) ∧
      x.queued.map (·.places) = if u.cur.mustWait .g then some (placesFrom place 8) else none := by
  have hcur := resolve_cur hres
  have bv := (b.resolve hres).modCur hs id rfl rfl rfl
  have cv : (v.modCur id).cur = u.cur := (cur_modCur v id ((b.resolve hres).slot hs)).trans hcur
  have hsrcs : byteSources .g v.cur.buffered.reverse place 8 = List.replicate 8 .memory :=
    byteSources_of_none (fun x hx => hnone x (hcur ▸ List.mem_reverse.mp hx)) 8 place
  have hbytes : (v.modCur id).loadBytes (v.modCur id).focus.tile (v.modCur id).cur.gid .g place 8 =
      s.loadBytes s.focus.tile s.cur.gid .g place 8 := by
    rw [bv.focus, cv, hgid]
    exact loadBytes_g_congr (u := v.modCur id) bv.mem ((resolve_far hres).trans hfar) _ _ _ _
  have hmerge : mergeBytes (List.replicate 8 none) (s.loadBytes s.focus.tile s.cur.gid .g place 8) =
      s.loadBytes s.focus.tile s.cur.gid .g place 8 := by
    simpa using mergeBytes_none (s.loadBytes s.focus.tile s.cur.gid .g place 8)
  obtain ⟨w, x, hw, hrest⟩ := readBody_spec bv hs (u.cur.mustWait .g) d
    { places := placesFrom place 8, taken := List.replicate 8 none, signed := false } place addr
    (BitVec.ofNat 64 (leNat (s.loadBytes s.focus.tile s.cur.gid .g place 8))) true
  rw [cv] at hrest
  refine ⟨w, x, ?_, hrest⟩
  unfold loadBody
  dsimp only
  rw [b.focus, hgid, hres]
  dsimp only
  rw [hsrcs, not_contains_atomic, if_neg Bool.false_ne_true, forwarded_memory, hcur, hgid,
    readFault_congr v _ _ _ _ (l := List.replicate 8 none) (k := [none]) rfl, hfault]
  refine Eq.trans ?_ hw
  unfold State.startLoad
  rw [hbytes, hmerge]
  rfl

/-- The places that memory gives are all of them where nothing is buffered. -/
theorem fromMemory_eq {bufs : List Buffered} (h : ∀ b ∈ bufs, b.space ≠ .g) (ps : List Nat) :
    (((ps.zip (ps.map fun p => byteSource .g p bufs)).filter fun x => x.2 == .memory).map (·.1)) = ps := by
  induction ps with
  | nil => rfl
  | cons p ps ih =>
    rw [List.map_cons, List.zip_cons_cons, List.filter_cons, byteSource_of_none p h]
    exact congrArg (p :: ·) ih

/-- A load of 8 bytes of G at any address, none of them buffered, takes each from memory at its own place. -/
theorem unalignedBody_spec {s u v : State} (b : Beside s u) (hs : s.focus.slot < 4) (hfar : u.pkg.far = s.pkg.far)
    (hgid : u.cur.gid = s.cur.gid) {d : BitVec 5} {o : Word × Word × Word} {addr : Word} {ps : List Nat}
    (hnone : ∀ x ∈ u.cur.buffered, x.space ≠ .g) (hres : u.resolveEach addr 8 = .ok (ps, v))
    (hfault : v.readFaults s.focus.tile s.cur.gid ps = none) :
    ∃ w x, unalignedBody d o addr 0#32 u = .done w ∧ Beside s w ∧ w.cur = u.cur.await x ∧ x.dst = d ∧
      x.value = (if u.cur.mustWait .g then none
        else some (BitVec.ofNat 64 (leNat (ps.map fun p => s.seenByte s.focus.tile p)))) ∧
      x.queued.map (·.places) = if u.cur.mustWait .g then some ps else none := by
  have hkeep {α : Type} (f : State → α) (hf : ∀ (u : State) (b : TlbId) (l : List Leaf), f (u.setTlb b l) = f u)
      (hw : ∀ (u : State) (d : Nat) (l : List Leaf), f (u.fillWalker d l) = f u) : f v = f u :=
    (resolveEach_keeps f hf hw hres).1
  have hlen : ps.length = 8 := (resolveEach_keeps (·.now) (by simp) (by simp) hres).2
  have hfocus : v.focus = u.focus := hkeep (·.focus) (by simp) (by simp)
  have hmem : v.mem = u.mem := hkeep (·.mem) (by simp) (by simp)
  have hpoison : v.poison = u.poison := hkeep (·.poison) (by simp) (by simp)
  have hctx (n : Nat) : v.ctx n = u.ctx n := hkeep (·.ctx n) (fun u b l => setTlb_ctx u b l n) (by simp)
  have hvfar : v.pkg.far = s.pkg.far :=
    (hkeep (·.pkg.far) (fun u b l => by cases b <;> rfl) fun u d l => by unfold State.fillWalker; split <;> rfl).trans hfar
  have bv := b.of_ctx hfocus hmem hpoison hctx
  have hcur : v.cur = u.cur := by
    unfold State.cur State.thread
    rw [hctx, hfocus]
  have hbuf : ∀ x ∈ v.cur.buffered.reverse, x.space ≠ .g := fun x hx => hnone x (hcur ▸ List.mem_reverse.mp hx)
  have hsrcs : (ps.map fun p => byteSource .g p v.cur.buffered.reverse) = List.replicate 8 .memory := by
    rw [← hlen, ← List.map_const']
    exact List.map_congr_left fun p _ => byteSource_of_none p hbuf
  have hbytes : mergeBytes (List.replicate 8 none) (ps.map fun p => v.seenByte s.focus.tile p) =
      ps.map fun p => s.seenByte s.focus.tile p := by
    have h := mergeBytes_none (ps.map fun p => v.seenByte s.focus.tile p)
    rw [List.length_map, hlen] at h
    exact h.trans (List.map_congr_left fun p _ => seenByte_congr bv.mem hvfar _ p)
  obtain ⟨w, x, hw, hrest⟩ := readBody_spec bv hs (u.cur.mustWait .g) d
    { places := ps, taken := List.replicate 8 none } (ps.headD 0) addr
    (BitVec.ofNat 64 (leNat (ps.map fun p => s.seenByte s.focus.tile p)))
    (!((ps.zip (List.replicate 8 ByteSource.memory)).filter fun x => x.2 == .memory).isEmpty)
  rw [hcur] at hrest
  refine ⟨w, x, ?_, hrest⟩
  unfold unalignedBody
  rw [hres]
  dsimp only
  rw [fromMemory_eq hbuf, hsrcs, not_contains_atomic, if_neg Bool.false_ne_true, b.focus, hcur, hgid, hfault,
    forwarded_memory, hbytes]
  exact hw

/-- LDPRM by its offset and its window. -/
theorem paramBody_cases {d a : BitVec 5} {off : BitVec 6} {win : BitVec 2} {c : Ctl} {s : State}
    (h : issues (.ldprm c d a off win) c s = true) :
    let u := s.atIssue (.ldprm c d a off win) c
    let o := s.begin.cur.reg a + BitVec.ofNat 64 (8 * off.toNat)
    let base := vget s.cur.pwbase win.toNat 0#64
    let lim := vget s.cur.pwlim win.toNat 0#32
    (lim = 0#32 → paramBody d a off win u = .done (zeroLoad d (u.postParam flagPN win.toNat o))) ∧
    (lim ≠ 0#32 → o.toNat % 8 = 0 → lim.toNat < o.toNat + 8 →
      paramBody d a off win u = .done (zeroLoad d (u.postParam flagPB win.toNat o))) ∧
    (lim ≠ 0#32 → o.toNat % 8 = 0 → o.toNat + 8 ≤ lim.toNat → ∃ l,
      paramBody d a off win u =
        if (base + o).toNat % 8 = 0 then loadBody .g d l (base + o) 8 false 0#32 id u
        else unalignedBody d l (base + o) 0#32 u) := by
  have hs := slot_of_issues h
  have ho := atIssue_operands a 0#5 0#5 h
  have hsp := atIssue_specials s (.ldprm c d a off win) c hs
  have hbase : (s.atIssue (.ldprm c d a off win) c).cur.pwbase = s.cur.pwbase := congrArg Specials.pwbase hsp
  have hlim : (s.atIssue (.ldprm c d a off win) c).cur.pwlim = s.cur.pwlim := congrArg Specials.pwlim hsp
  dsimp only
  unfold paramBody
  dsimp only
  rw [ho, hbase, hlim]
  refine ⟨fun h0 => if_pos h0, fun h0 hal hout => ?_, fun h0 hal hin =>
    ⟨(s.begin.cur.reg a, s.begin.cur.reg 0#5, s.begin.cur.reg 0#5), ?_⟩⟩
  · rw [if_neg h0, if_neg (not_not_intro hal), if_pos hout]
  · rw [if_neg h0, if_neg (not_not_intro hal), if_neg (Nat.not_lt.mpr hin)]

theorem parameterLoadsStayInTheirWindow : ParameterLoadsStayInTheirWindow := by
  intro c d a off win s h i o base lim
  have hs := slot_of_issues h
  have b := Beside.atIssue i c hs
  have hfar := atIssue_far s i c
  have hgid := atIssue_gid s i c hs
  obtain ⟨hunbound, hbeyond, hin⟩ := paramBody_cases h
  refine ⟨fun hout => ?_, fun h0 hal hlim hnone => ⟨fun place v hres hfault => ?_, fun hmis ps v hres hfault => ?_⟩⟩
  · by_cases h0 : lim = 0#32
    · rw [if_pos h0]
      exact postBody_spec h (hunbound h0)
    · rw [if_neg h0]
      obtain ⟨hal, hlt⟩ := hout.resolve_left h0
      exact postBody_spec h (hbeyond h0 hal hlt)
  · obtain ⟨l, hbody⟩ := hin h0 hal hlim
    have hal8 : (base + o).toNat % 8 = 0 := aligned_of_resolve hres
    rw [if_pos hal8] at hbody
    obtain ⟨w, x, hw, bw, cw, hdst, hval, hq⟩ := loadBody_g_spec (d := d) (o := l) b hs hfar hgid hnone hres hfault
    obtain ⟨t, ht, haw, hregs⟩ := awaitBody_spec h (hbody.trans hw) bw cw
    exact ⟨t, _, ht, haw, hdst, hval, hq, hregs⟩
  · obtain ⟨l, hbody⟩ := hin h0 hal hlim
    rw [if_neg hmis] at hbody
    obtain ⟨w, x, hw, bw, cw, hdst, hval, hq⟩ := unalignedBody_spec (d := d) (o := l) b hs hfar hgid hnone hres hfault
    obtain ⟨t, ht, haw, hregs⟩ := awaitBody_spec h (hbody.trans hw) bw cw
    exact ⟨t, _, ht, haw, hdst, hval, hq, hregs⟩

/-- Settles O8: LDLIT and LDPRM each leave one result outstanding, whose bytes memory gives where none is buffered. -/
theorem literalAndParameterLoadsRead : Obligations.LiteralAndParameterLoadsRead :=
  ⟨literalLoadsReadTheText, parameterLoadsStayInTheirWindow⟩

end Sys2Proof.Machine
end

section
/-! SUPPORT. BSEL's search of its table (R74, R75). -/

namespace Sys2Proof.Machine

open Sys2Proof.Claims

/-! ## The entries of a bucket table (R74) -/

/-- The table at a base of a state's scratchpad holds an entry: its bucket and its offset in 8 unpoisoned bytes. -/
structure State.EntryAt (u : State) (base : Word) (j bucket offset : Nat) : Prop where
  bucket_lt : bucket < 2 ^ 32
  offset_lt : offset < 2 ^ 32
  resolves : u.resolve (.tile u.focus.tile) u.focus.tile u.cur.gid .sp (base + Word.ofN (8 * j)) 8 needLoad =
    .ok (base.toNat + 8 * j, u)
  clean : u.placePoisoned u.focus.tile u.cur.gid .sp (base.toNat + 8 * j) = false
  bytes : u.loadBytes u.focus.tile u.cur.gid .sp (base.toNat + 8 * j) 8 = leBytes 4 bucket ++ leBytes 4 offset

theorem leNat_take_entry {x : Nat} (y : Nat) (h : x < 2 ^ 32) : leNat ((leBytes 4 x ++ leBytes 4 y).take 4) = x := by
  rw [List.take_append_of_le_length (by simp), List.take_of_length_le (by simp), leNat_leBytes]
  omega

theorem leNat_drop_entry (x : Nat) {y : Nat} (h : y < 2 ^ 32) : leNat ((leBytes 4 x ++ leBytes 4 y).drop 4) = y := by
  rw [List.drop_append_of_le_length (by simp), List.drop_of_length_le (by simp), List.nil_append, leNat_leBytes]
  omega

/-- What the search makes of one entry, with nothing of the scratchpad buffered. -/
theorem searchBuckets_entry {u : State} {dim base : Word} {i bucket offset : Nat} (prev n : Nat)
    (hnone : ∀ x ∈ u.cur.buffered, x.space ≠ .sp) (he : u.EntryAt base i bucket offset) :
    u.searchBuckets dim base prev i (n + 1) =
      if bucket = 0xFFFFFFFF then .found i 0#64 0#64 (toInt offset 32)
      else if 0 < i && bucket ≤ prev then .bucket (base + Word.ofN (8 * i))
      else if dim.toNat ≤ bucket then .found i (Word.ofN (bucket - dim.toNat)) (padMask (bucket - dim.toNat)) (toInt offset 32)
      else u.searchBuckets dim base bucket (i + 1) n := by
  obtain ⟨hb, ho, hres, hclean, hbytes⟩ := he
  have hsrcs : byteSources .sp u.cur.buffered.reverse (base.toNat + 8 * i) 8 = List.replicate 8 .memory :=
    byteSources_of_none (fun x hx => hnone x (List.mem_reverse.mp hx)) 8 _
  have hmerge : mergeBytes (List.replicate 8 none) (leBytes 4 bucket ++ leBytes 4 offset) =
      leBytes 4 bucket ++ leBytes 4 offset := by
    simpa using mergeBytes_none (leBytes 4 bucket ++ leBytes 4 offset)
  conv => lhs; unfold State.searchBuckets
  dsimp only
  rw [hres]
  dsimp only
  rw [hsrcs, not_contains_atomic, if_neg Bool.false_ne_true, forwarded_memory, State.loadPoisoned, hclean, Bool.and_false,
    if_neg Bool.false_ne_true, hbytes, hmerge, leNat_take_entry _ hb, leNat_drop_entry _ ho]

/-- The result of a search that ends at entry k. -/
def bucketFound (k excess : Nat) (offset : Nat) : BucketResult :=
  .found k (Word.ofN excess) (padMask excess) (toInt offset 32)

/-- The search ends at the first entry that is not below the dimension or that ends the table. -/
theorem searchBuckets_found {u : State} {dim base : Word} {k : Nat} {bucket offset : Nat → Nat}
    (hnone : ∀ x ∈ u.cur.buffered, x.space ≠ .sp) (he : ∀ j, j ≤ k → u.EntryAt base j (bucket j) (offset j))
    (hbelow : ∀ j, j < k → bucket j < dim.toNat ∧ bucket j ≠ 0xFFFFFFFF)
    (hrise : ∀ j, j < k → bucket (j + 1) = 0xFFFFFFFF ∨ bucket j < bucket (j + 1))
    (hend : bucket k = 0xFFFFFFFF ∨ dim.toNat ≤ bucket k) :
    ∀ (m i n prev : Nat), i + m = k → m < n → (0 < i → bucket i = 0xFFFFFFFF ∨ prev < bucket i) →
      u.searchBuckets dim base prev i n = bucketFound k (if bucket k = 0xFFFFFFFF then 0 else bucket k - dim.toNat) (offset k)
  | _, _, 0, _, _, hn, _ => absurd hn (Nat.not_lt_zero _)
  | 0, i, n + 1, prev, hi, _, hprev => by
    obtain rfl : i = k := hi
    rw [searchBuckets_entry prev n hnone (he i (Nat.le_refl i))]
    by_cases hf : bucket i = 0xFFFFFFFF
    · rw [if_pos hf, if_pos hf]
      rfl
    · have hr : ¬(decide (0 < i) && decide (bucket i ≤ prev)) = true := by
        simp only [Bool.and_eq_true, decide_eq_true_eq, not_and]
        exact fun h0 => Nat.not_le.mpr ((hprev h0).resolve_left hf)
      rw [if_neg hf, if_neg hr, if_pos (hend.resolve_left hf), if_neg hf]
      rfl
  | m + 1, i, n + 1, prev, hi, hn, hprev => by
    have hik : i < k := by omega
    obtain ⟨hlow, hf⟩ := hbelow i hik
    have hr : ¬(decide (0 < i) && decide (bucket i ≤ prev)) = true := by
      simp only [Bool.and_eq_true, decide_eq_true_eq, not_and]
      exact fun h0 => Nat.not_le.mpr ((hprev h0).resolve_left hf)
    rw [searchBuckets_entry prev n hnone (he i hik.le), if_neg hf, if_neg hr, if_neg (Nat.not_le.mpr hlow)]
    exact searchBuckets_found hnone he hbelow hrise hend m (i + 1) n (bucket i) (by omega) (by omega) fun _ => hrise i hik

/-! ## The table in the window of its thread -/

theorem window?_congr {s u : State} (h : u.groups = s.groups) (gid tile : Nat) : u.window? gid tile = s.window? gid tile := by
  unfold State.window? State.group?
  rw [h]

theorem partOf_congr {s u : State} (h : u.groups = s.groups) (hp : u.parts = s.parts) (gid : Nat) :
    u.partOf gid = s.partOf gid := by
  unfold State.partOf State.group? State.part?
  rw [h, hp]

theorem placePoisoned_congr {s u : State} (h : u.groups = s.groups) (hp : u.poison = s.poison) (tile gid : Nat)
    (space : Space) (place : Nat) : u.placePoisoned tile gid space place = s.placePoisoned tile gid space place := by
  unfold State.placePoisoned State.poisonedAt
  rw [locOf_congr h, hp]

theorem loadBytes_sp_congr {s u : State} (h : u.groups = s.groups) (hm : u.mem = s.mem) (tile gid : Nat) :
    ∀ (n place : Nat), u.loadBytes tile gid .sp place n = s.loadBytes tile gid .sp place n
  | 0, _ => rfl
  | n + 1, place => by
    have hb : u.byteAt tile gid .sp place = s.byteAt tile gid .sp place := by
      show u.mem.read (u.locOf tile gid .sp place) = s.mem.read (s.locOf tile gid .sp place)
      rw [locOf_congr h, hm]
    rw [State.loadBytes, State.loadBytes, hb, loadBytes_sp_congr h hm tile gid n (place + 1)]

/-- An aligned address in a group's window resolves to its place there (R92). -/
theorem resolve_sp {u : State} {b : TlbId} {tile gid size : Nat} {addr : Word} {need : Need} {w : Window}
    (hal : addr.toNat % size = 0) (hpart : (u.partOf gid).isSome = true) (hw : u.window? gid tile = some w)
    (hlt : addr.toNat < w.size) : u.resolve b tile gid .sp addr size need = .ok (addr.toNat, u) := by
  obtain ⟨p, hp⟩ := Option.isSome_iff_exists.mp hpart
  unfold State.resolve
  rw [if_neg (not_not_intro hal), hp]
  dsimp only
  rw [hw]
  dsimp only
  rw [if_pos hlt]

theorem toNat_entry {base : Word} {j n : Nat} (h : base.toNat + 8 * j < n) (hn : n ≤ 2 ^ 21) :
    (base + Word.ofN (8 * j)).toNat = base.toNat + 8 * j := by
  rw [BitVec.toNat_add]
  show (base.toNat + 8 * j % 2 ^ 64) % 2 ^ 64 = _
  omega

/-- What a thread's window holds at an aligned base, a state beside it finds there as an entry of the table. -/
theorem entryAt_of_window {s u : State} (b : Beside s u) (hgid : u.cur.gid = s.cur.gid) (hgroups : u.groups = s.groups)
    (hparts : u.parts = s.parts) {base : Word} {j bucket offset : Nat} {w : Window}
    (hpart : (s.partOf s.cur.gid).isSome = true) (hw : s.window? s.cur.gid s.focus.tile = some w)
    (hal : base.toNat % 8 = 0) (hlt : base.toNat + 8 * j < w.size) (hsize : w.size ≤ 2 ^ 21) (hb : bucket < 2 ^ 32)
    (ho : offset < 2 ^ 32) (hclean : s.placePoisoned s.focus.tile s.cur.gid .sp (base.toNat + 8 * j) = false)
    (hbytes : s.loadBytes s.focus.tile s.cur.gid .sp (base.toNat + 8 * j) 8 = leBytes 4 bucket ++ leBytes 4 offset) :
    u.EntryAt base j bucket offset := by
  have hn := toNat_entry hlt hsize
  refine ⟨hb, ho, ?_, ?_, ?_⟩
  · rw [b.focus, hgid]
    refine (resolve_sp (by omega) ?_ ((window?_congr hgroups _ _).trans hw) (by omega)).trans (by rw [hn])
    rw [partOf_congr hgroups hparts]
    exact hpart
  · rw [b.focus, hgid, placePoisoned_congr hgroups b.poison]
    exact hclean
  · rw [b.focus, hgid, loadBytes_sp_congr hgroups b.mem]
    exact hbytes

/-! ## BSEL (R74, R75) -/

/-- A thread after BSEL: PADM written, and its result on its way. -/
def Thread.selected (th : Thread) (now : Nat) (d : BitVec 5) (excess lat : Nat) : Thread :=
  { th with padm := padMask excess
            pend := if d = 0#5 then th.pend else th.pend ++ [⟨d.toNat, Word.ofN excess, now + lat⟩]
            producers := th.producers.filter fun q => q.reg != d.toNat }

/-- The special registers of a thread with another PADM. -/
def Specials.withPadm (x : Specials) (m : Word) : Specials := { x with padm := m }

theorem selected_values (th : Thread) (now : Nat) (d : BitVec 5) (excess lat : Nat) :
    let x := th.selected now d excess lat
    x.regs = th.regs ∧ x.preds = th.preds ∧ x.pend = (th.result now d (Word.ofN excess) (lat + 1)).pend ∧
      x.specials = th.specials.withPadm (padMask excess) := by
  refine ⟨rfl, rfl, ?_, rfl⟩
  rw [result_pend]
  rfl

theorem takeBanks_beside {s u : State} (b : Beside s u) (gid step d : Nat) (l : List Nat) :
    let q := (u.takeBanks gid step d l).2
    Beside s q ∧ q.cur = u.cur ∧ q.groups = u.groups := by
  obtain ⟨k, hk⟩ := takeBanks_eq u gid step d l
  dsimp only
  rw [hk]
  exact ⟨b.of_ctx rfl rfl rfl fun _ => rfl, rfl, rfl⟩

theorem toInt_word32 (v : Nat) : toInt v 32 = (BitVec.ofNat 32 v).toInt := by
  rw [BitVec.toInt_eq_toNat_cond, BitVec.toNat_ofNat]
  unfold toInt
  split <;> split <;> omega

theorem targetTrap_congr {s u : State} (hg : u.groups = s.groups) (hf : u.focus = s.focus) (hc : u.cur = s.cur)
    (target : Word) : u.targetTrap target = s.targetTrap target := by
  unfold State.targetTrap
  rw [textLoc_congr hg, hf, hc]

theorem branchTo_of_no_trap {u : State} {target : Word} (h : u.targetTrap target = none) (gap : Nat)
    (f : Thread → Thread) : branchTo target gap f u = .taken (u.modCur f) target gap := by
  unfold branchTo
  rw [h]

/-- A search that ends at an entry branches by its offset, once the result has gone to d and PADM. -/
theorem bselBody_found {d a b : BitVec 5} {u : State} {k excess offset : Nat} {dim base : Word}
    (ho : u.cur.operands a b d = (dim, base, u.cur.reg d)) (hwait : u.cur.mustWait .sp = false) (hal : base.toNat % 8 = 0)
    (hfound : u.searchBuckets dim base 0 0 64 = bucketFound k excess offset) :
    let q := u.takeBanks u.cur.gid 1 0 (u.bselBanks base (k / 8 + 1))
    bselBody d a b u = branchTo (relTarget u.cur.pc (BitVec.ofNat 32 offset).toInt) (8 + k / 8 + q.1)
      (·.selected u.now d excess (7 + k / 8 + q.1)) q.2 := by
  unfold bselBody
  dsimp only
  rw [ho, hwait, if_neg Bool.false_ne_true, if_neg (not_not_intro hal), hfound]
  dsimp only [bucketFound]
  rw [toInt_word32]
  simp only [Thread.selected, Nat.add_assoc]

/-- Settles O15: the search ends at entry k, and BSEL then writes its result and takes the branch. -/
theorem bucketSelectBranchesToTheBucket : Obligations.BucketSelectBranchesToTheBucket := by
  intro c d a b s k bucket offset w i u dim base h hk hal hwait hnone hpart hw hin hsize hentry hbelow hrise hend excess target
    wait hok
  have hs := slot_of_issues h
  have bu : Beside s u := Beside.atIssue i c hs
  have hgid : u.cur.gid = s.cur.gid := atIssue_gid s i c hs
  have hgroups : u.groups = s.groups := atIssue_groups s i c
  have ho : u.cur.operands a b d = (s.begin.cur.reg a, s.begin.cur.reg b, u.cur.reg d) :=
    (atIssue_operands a b d h).trans (by rw [← atIssue_reg s i c hs d])
  have he : ∀ j, j ≤ k → u.EntryAt (s.begin.cur.reg b) j (bucket j) (offset j) := fun j hj => by
    obtain ⟨hclean, hb, ho, hbytes⟩ := hentry j hj
    exact entryAt_of_window bu hgid hgroups (atIssue_parts s i c) hpart hw hal (by omega) hsize hb ho hclean hbytes
  have hfound := searchBuckets_found hnone he hbelow hrise hend k 0 64 0 (Nat.zero_add k) hk nofun
  have hbody := bselBody_found ho hwait hal hfound
  obtain ⟨bq, hqcur, hqgroups⟩ := takeBanks_beside bu u.cur.gid 1 0 (u.bselBanks (s.begin.cur.reg b) (k / 8 + 1))
  have hqwait : (u.takeBanks u.cur.gid 1 0 (u.bselBanks (s.begin.cur.reg b) (k / 8 + 1))).1 = wait := by rw [hgid]
  generalize u.takeBanks u.cur.gid 1 0 (u.bselBanks (s.begin.cur.reg b) (k / 8 + 1)) = q at *
  have hnotrap : q.2.targetTrap target = none := by
    rw [targetTrap_congr (s := u) hqgroups (bq.focus.trans bu.focus.symm) hqcur, atIssue_targetTrap hs, targetTrap_eq_none hok]
  have htaken : bselBody d a b u =
      .taken (q.2.modCur (·.selected s.now d excess (7 + k / 8 + wait))) target (8 + k / 8 + wait) := by
    rw [hbody, hqwait, atIssue_now, atIssue_pc s i c hs]
    exact branchTo_of_no_trap hnotrap _ _
  obtain ⟨t, ht, hl, hpc, hmem, hpoison, hunits⟩ := takenBody_spec h htaken bq.focus
  obtain ⟨hregs, hpreds, hpend, hspec⟩ := selected_values q.2.cur s.now d excess (7 + k / 8 + wait)
  rw [cur_modCur _ _ (bq.slot hs)] at hl
  generalize q.2.cur.selected s.now d excess (7 + k / 8 + wait) = x at *
  have hlat : 7 + k / 8 + wait + 1 = 8 + k / 8 + wait := by omega
  obtain ⟨hget, hbut, hsame⟩ := reads_of_result (s := s) (t := t) (d := d) (v := Word.ofN excess) (lat := 8 + k / 8 + wait)
    (by omega) ((regs_of_lasting hl).trans (hregs.trans bq.regs)) ((preds_of_lasting hl).trans (hpreds.trans bq.preds))
    ((pend_of_lasting hl).trans (hpend.trans (by rw [hlat, result_pend, result_pend, bq.pend])))
  have hsp : t.cur.specials = s.cur.specials.withPadm (padMask excess) := by
    rw [specials_of_lasting hl, hspec, hqcur, atIssue_specials s i c hs]
  refine ⟨t, ht, hpc, congrArg Specials.padm hsp, hget, hbut, hsame, by rw [hsp]; rfl, ?_, fun n => ?_, ?_⟩
  · exact sameUnits_trans (sameUnits_trans bq.units bq.focus (sameUnits_modCur _ _)) bq.focus hunits
  · rw [hmem, modCur_mem, bq.mem]
  · rw [hpoison, modCur_poison, bq.poison]

end Sys2Proof.Machine
end

section
/-! SUPPORT. A MERGE of two beats, which FLOAD refuses (R148, R178) but a statement about every term of the model
includes: its control may select another source in each beat, so the shape that beat 0 gives does not name all that the
firing reads (R141, R145, R181). -/

namespace Sys2Proof.Machine

open Sys2Proof.Claims

/-- A MERGE that nothing stops fires whole (R145, R181). -/
theorem exec_merge_of_fires {t : Trig} {f : Comp} {s : State} {sh : Shape} (h : fires .merge t f s sh) :
    exec (.merge t f) s = .next (s.fireAll s.focusTe t f sh (mergeWork t f)) :=
  fireCompute_of_fires (fun _ => mergeWork t f) h

/-- A trigger of two beats on INT32 that tests nothing. -/
def twoBeats : Trig := ⟨0#16, 0#16, 0#6, 1#5, 0#7, 7#3, 0#2, 7#3⟩

/-- MERGE of the immediate 1 and w[1] into w[1] by the control in n, with PUPD of p0 by the lowest bit of the data. -/
def mergeIntoW : Comp := ⟨24#5, 6#5, 24#5, 0#5, 0#6, 1#1, 0#4, 5#3, 0#2, 0#8, 0#1, 1#12⟩

/-- The reset state, but with TE (0, 0) of tile 0 running, w[0] to w[7] in its window, and in n the controls 1 and 0. -/
def mergeState : State :=
  State.reset.setTe 0 0 0
    { started := true, scrLim := 8#14
      queues := vset (Vector.replicate 6 []) 0 [⟨1#32, 7#3, 0#2, 0#8, none, false⟩, ⟨0#32, 7#3, 0#2, 0#8, none, false⟩] }

/-- The shape of the firing: of its data, the source that the control of beat 0 selects. -/
def mergeShape : Shape :=
  { srcs := [0, 6], data := [(6, 7#3)], names := [6, 24, 0], dests := [24], pushes := 1, deq := [0] }

/-- FLOAD refuses the slot, and would take it with one beat (R148, R178). -/
theorem mergeIntoW_refused_for_its_beats :
    (Instr.merge twoBeats mergeIntoW).wf = false ∧
      (Instr.merge { twoBeats with beatsM1 := 0#5 } mergeIntoW).wf = true := by decide

theorem mergeIntoW_fires : fires .merge twoBeats mergeIntoW mergeState mergeShape :=
  ⟨by decide, by decide, by decide, by decide⟩

/-- Beat 0 passes the immediate into w[1], and beat 1 reads it there, so the firing sets p0. -/
theorem mergeIntoW_sets_p0 :
    ((mergeState.fireAll mergeState.focusTe twoBeats mergeIntoW mergeShape (mergeWork twoBeats mergeIntoW)).teAt
      mergeState.focusTe).p = 1#16 := by decide

/-- Refutes O29 by a term outside `Instr.wf`, which the statement does not ask for: no source of the shape of
`mergeIntoW` is in W, so `steady` holds, and yet beat 1 reads the word that beat 0 has written. The statement takes the
last value from the state before the firing, where w[1] is 0, and so has p0 clear; the model sets it. -/
theorem not_elementsUpdatePredicatesAndLap : ¬ Obligations.ElementsUpdatePredicatesAndLap := by
  unfold Obligations.ElementsUpdatePredicatesAndLap
  intro h
  have hsteady : ∀ c ∈ mergeShape.srcs, c < 16 ∨ 24 < c := by decide
  obtain ⟨u, hu, hp, -⟩ := h _ _ _ _ _ mergeState mergeShape (.merge twoBeats mergeIntoW) mergeIntoW_fires
    (.inr (.inl hsteady))
  have hrun := Host.Outcome.next.inj ((exec_merge_of_fires mergeIntoW_fires).symm.trans hu)
  rw [← hrun, mergeIntoW_sets_p0] at hp
  exact absurd hp (by decide)

end Sys2Proof.Machine
end

section
/-! SUPPORT. The instruction of each compute-form slot as the firing of the work that its row of the table gives (R142, R155 to
R165, R178 to R186), and the slots that are not ready (R143). -/

namespace Sys2Proof.Machine

open Sys2Proof.Claims

/-! ## The values of the integer slots -/

/-- The two's complement of all bits of a value is the value's own. -/
theorem toInt_toNat {n : Nat} (v : BitVec n) : toInt v.toNat n = v.toInt := by
  have hlt := v.isLt
  have hn : n = 0 ∨ 2 ^ n = 2 * 2 ^ (n - 1) := by
    cases n with
    | zero => exact .inl rfl
    | succ n => exact .inr (by rw [Nat.add_sub_cancel, pow_succ, mul_comm])
  rw [BitVec.toInt_eq_toNat_cond]
  unfold toInt
  rw [Nat.mod_eq_of_lt hlt]
  rcases hn with rfl | hn
  · simp
  · push_cast
    split <;> split <;> omega

/-- The high half of a signed product (R155). -/
theorem mulh_eq (a b : W32) :
    BitVec.ofInt 32 (a.toInt * b.toInt / 2 ^ 32) = (a.signExtend 64 * b.signExtend 64).extractLsb' 32 32 := by
  have h : a.signExtend 64 * b.signExtend 64 = BitVec.ofInt 64 (a.toInt * b.toInt) := by
    rw [BitVec.ofInt_mul]
    rfl
  rw [h]
  apply BitVec.eq_of_toNat_eq
  rw [BitVec.extractLsb'_toNat, BitVec.toNat_ofInt, BitVec.toNat_ofInt, Nat.shiftRight_eq_div_pow]
  omega

/-- The high half of an unsigned product (R155). -/
theorem mulhu_eq (a b : W32) :
    w32 (a.toNat * b.toNat / 2 ^ 32) = (a.setWidth 64 * b.setWidth 64).extractLsb' 32 32 := by
  apply BitVec.eq_of_toNat_eq
  have ha := a.isLt
  have hb := b.isLt
  have hab : a.toNat * b.toNat < 2 ^ 64 := by
    calc a.toNat * b.toNat < 2 ^ 32 * 2 ^ 32 := Nat.mul_lt_mul'' ha hb
      _ = 2 ^ 64 := by norm_num
  rw [BitVec.extractLsb'_toNat, BitVec.toNat_mul, BitVec.toNat_setWidth, BitVec.toNat_setWidth, Nat.shiftRight_eq_div_pow,
    Nat.mod_eq_of_lt (a := a.toNat) (by omega), Nat.mod_eq_of_lt (a := b.toNat) (by omega), Nat.mod_eq_of_lt hab]
  rfl

/-- The integer conditions of R156 on two values of one width. -/
theorem condition_toNat (k : Nat) {n : Nat} (x v : BitVec n) :
    condition k n x.toNat v.toNat v.toNat = (match k with
      | 0 => x == v
      | 1 => x != v
      | 2 => decide (x.toInt < v.toInt)
      | 3 => decide (v.toInt ≤ x.toInt)
      | 4 => decide (x.toNat < v.toNat)
      | 5 => decide (v.toNat ≤ x.toNat)
      | 6 => x &&& v != 0#n
      | _ => x &&& v == 0#n) := by
  have he : (x.toNat == v.toNat) = (x == v) := by simp [← BitVec.toNat_inj, beq_eq_beq]
  have hm : ((x.toNat &&& v.toNat) == 0) = (x &&& v == 0#n) := by
    rw [← BitVec.toNat_and, Bool.eq_iff_iff, beq_iff_eq, beq_iff_eq, ← BitVec.toNat_inj]
    simp
  split
  · exact he
  · exact congrArg (!·) he
  · simp only [condition, toInt_toNat]
  · simp only [condition, toInt_toNat]
  · rfl
  · rfl
  · exact congrArg (!·) hm
  · simpa [condition] using hm

/-- A byte lane of a word as an integer (R157). -/
theorem toInt_lane_int8 (a : W32) (i : Nat) : toInt (lane .int8 a i) 8 = (a.extractLsb' (8 * i) 8).toInt := by
  rw [← toInt_toNat, BitVec.extractLsb'_toNat, Nat.shiftRight_eq_div_pow]
  rfl

/-- DOT4 as a sum of four products (R157). -/
theorem dot4Value_eq (a b c : W32) :
    dot4Value a b c = c + (BitVec.ofInt 32 ((a.extractLsb' 0 8).toInt * (b.extractLsb' 0 8).toInt) +
      BitVec.ofInt 32 ((a.extractLsb' 8 8).toInt * (b.extractLsb' 8 8).toInt) +
      BitVec.ofInt 32 ((a.extractLsb' 16 8).toInt * (b.extractLsb' 16 8).toInt) +
      BitVec.ofInt 32 ((a.extractLsb' 24 8).toInt * (b.extractLsb' 24 8).toInt)) := by
  have hr : List.range 4 = [0, 1, 2, 3] := rfl
  unfold dot4Value
  rw [hr]
  simp only [List.map_cons, List.map_nil, List.sum_cons, List.sum_nil, toInt_lane_int8, BitVec.ofInt_add,
    Nat.mul_zero, Nat.mul_one, Nat.reduceMul, add_zero, add_assoc]

/-- The field of `n` bits at a position of a word (R157). -/
theorem toNat_field (a : W32) (pos : Nat) {n : Nat} (hn : n ≤ 32) :
    ((a >>> pos) &&& BitVec.ofNat 32 (2 ^ n - 1)).toNat = a.toNat / 2 ^ pos % 2 ^ n := by
  have hp : 2 ^ n ≤ 2 ^ 32 := Nat.pow_le_pow_right (by decide) hn
  have h0 : 0 < 2 ^ n := Nat.two_pow_pos n
  rw [BitVec.toNat_and, BitVec.toNat_ushiftRight, BitVec.toNat_ofNat, Nat.mod_eq_of_lt (a := 2 ^ n - 1) (by omega),
    Nat.and_two_pow_sub_one_eq_mod, Nat.shiftRight_eq_div_pow]

/-- A value of `n` bits read as two's complement: less 2^n where its top bit is set. -/
theorem ofInt_toInt_field (v : W32) {n : Nat} (hn : 0 < n) (h : v.toNat < 2 ^ n) :
    BitVec.ofInt 32 (toInt v.toNat n) = if v.getLsbD (n - 1) then v - BitVec.ofNat 32 (2 ^ n) else v := by
  have h2 : 2 ^ n = 2 * 2 ^ (n - 1) := by rw [← pow_succ']; congr 1; omega
  have ht : v.getLsbD (n - 1) = decide (2 ^ (n - 1) ≤ v.toNat) := by
    rw [BitVec.getLsbD, Nat.testBit_eq_decide_div_mod_eq, decide_eq_decide]
    constructor
    · intro e
      by_contra hlt
      rw [Nat.div_eq_of_lt (by omega)] at e
      omega
    · intro e
      rw [Nat.div_eq_of_lt_le (k := 1) (by omega) (by omega)]
  have hv : BitVec.ofInt 32 (v.toNat : Int) = v := by rw [BitVec.ofInt_natCast, BitVec.ofNat_toNat, BitVec.setWidth_eq]
  unfold toInt
  rw [Nat.mod_eq_of_lt h, ht]
  by_cases hc : v.toNat < 2 ^ (n - 1)
  · rw [if_pos hc, if_neg (by simpa using hc), hv]
  · rw [if_neg hc, if_pos (by simpa using hc), sub_eq_add_neg, BitVec.ofInt_add, hv, BitVec.ofInt_neg, BitVec.sub_eq_add_neg,
      ← BitVec.ofInt_natCast]
    norm_cast

/-- BFX as a shift, a mask and the extension by the field's top bit (R157). -/
theorem bfxValue_eq (a b : W32) :
    bfxValue a b = (let n := min (b.toNat / 32 % 32 + 1) (32 - b.toNat % 32)
      let v := (a >>> (b.toNat % 32)) &&& BitVec.ofNat 32 (2 ^ n - 1)
      if b.getLsbD 10 && v.getLsbD (n - 1) then v - BitVec.ofNat 32 (2 ^ n) else v) := by
  have hn : min (b.toNat / 32 % 32 + 1) (32 - b.toNat % 32) ≤ 32 ∧ 0 < min (b.toNat / 32 % 32 + 1) (32 - b.toNat % 32) := by
    omega
  unfold bfxValue
  dsimp only
  generalize min (b.toNat / 32 % 32 + 1) (32 - b.toNat % 32) = n at hn
  have hv := toNat_field a (b.toNat % 32) hn.1
  generalize (a >>> (b.toNat % 32)) &&& BitVec.ofNat 32 (2 ^ n - 1) = v at hv
  rw [← hv]
  cases b.getLsbD 10 with
  | false => simp [w32]
  | true => 
    rw [if_pos rfl, Bool.true_and]
    exact ofInt_toInt_field v hn.2 (hv ▸ Nat.mod_lt _ (Nat.two_pow_pos n))

/-- HASH as a shift (R157). -/
theorem hashValue_eq (a b : W32) :
    hashValue a b = (let k := min (b.toNat % 64) 32; if k = 0 then 0#32 else (a * 0x9E3779B1#32) >>> (32 - k)) := by
  unfold hashValue
  dsimp only
  generalize a * 0x9E3779B1#32 = v
  have hv (j : Nat) : w32 (v.toNat / 2 ^ j) = v >>> j := by
    apply BitVec.eq_of_toNat_eq
    rw [BitVec.toNat_ushiftRight, Nat.shiftRight_eq_div_pow]
    unfold w32
    rw [BitVec.toNat_ofNat, Nat.mod_eq_of_lt ((Nat.div_le_self _ _).trans_lt v.isLt)]
  rw [hv]

/-- MAX by a strict comparison: equal values are one value. -/
theorem max_eq_of_lt {α β : Type} [LinearOrder β] {g : α → β} (hg : Function.Injective g) {a b : α} :
    (if g a ≤ g b then b else a) = if g a < g b then b else a := by
  rcases lt_trichotomy (g a) (g b) with h | h | h
  · rw [if_pos h.le, if_pos h]
  · rw [if_pos h.le, if_neg h.not_lt, hg h]
  · rw [if_neg h.not_ge, if_neg h.not_gt]

/-- MIN with the comparison turned round. -/
theorem ite_le_eq {α β : Type} [LinearOrder α] (x y : α) (a b : β) : (if x ≤ y then a else b) = if y < x then b else a := by
  simp only [← not_lt, ite_not]

/-! ## The instruction of a slot is the firing of its work -/

/-- An instruction that fires one operation fires any that gives the same values. -/
theorem exec_of_fireValue {i : Instr} {k : Form} {t : Trig} {f : Comp} {g h : W32 → W32 → W32 → W32 × BitVec 8} {s : State}
    (e : exec i s = fireValue k t f g s) (hg : ∀ a b c, g a b c = h a b c) :
    exec i s = fireCompute k t f (fun _ => valueWork f t.fmt h) s := by
  have hgh : g = h := funext fun a => funext fun b => funext fun c => hg a b c
  rw [e, hgh]
  rfl

/-- An instruction that fires one work fires any that does the same. -/
theorem exec_of_fireCompute {i : Instr} {k : Form} {t : Trig} {f : Comp} {v w : TE → Work} {s : State}
    (e : exec i s = fireCompute k t f v s) (hv : ∀ x, v x = w x) : exec i s = fireCompute k t f w s := by
  rw [e, funext hv]

/-- A choice by a value that is not 0, with its branches turned round. -/
theorem ite_bne_zero {α : Type} (v : W32) (a b : α) : (if v != 0#32 then a else b) = if v = 0#32 then b else a := by
  simp only [bne_iff_ne, ne_eq, ite_not]

/-- Each compute-form instruction fires the work that its row of the table gives (R142, R155 to R165, R178 to R186). -/
theorem exec_computeSlot {i : Instr} {t : Trig} {f : Comp} {k : Form} {w : Bool → TE → Work}
    (h : ComputeSlot i t f k w) (s : State) :
    exec i s = fireCompute k t f (w (ftzOf s s.focus.tile)) s := by
  cases h
  case teMulh => exact exec_of_fireValue (exec_teMulh t f s) fun a b _ => congrArg (·, 0#8) (mulh_eq a b)
  case teMulhu => exact exec_of_fireValue (exec_teMulhu t f s) fun a b _ => congrArg (·, 0#8) (mulhu_eq a b)
  case teMin => exact exec_of_fireValue (exec_teMin t f s) fun _ _ _ => congrArg (·, 0#8) (ite_le_eq _ _ _ _)
  case teMax => exact exec_of_fireValue (exec_teMax t f s) fun a b _ => congrArg (·, 0#8) (max_eq_of_lt fun _ _ => BitVec.toInt_inj.mp)
  case teMinu => exact exec_of_fireValue (exec_teMinu t f s) fun _ _ _ => congrArg (·, 0#8) (ite_le_eq _ _ _ _)
  case teMaxu => exact exec_of_fireValue (exec_teMaxu t f s) fun a b _ => congrArg (·, 0#8) (max_eq_of_lt fun _ _ => BitVec.eq_of_toNat_eq)
  case teCmp =>
    refine exec_of_fireValue (exec_teCmp t f s) fun a b _ => congrArg (·, 0#8) ?_
    rw [condition_toNat]
    unfold b2n
    exact apply_ite w32 _ 1 0
  case sel => exact exec_of_fireValue (exec_sel t f s) fun a b c => by rw [ite_bne_zero]
  case dot4 => exact exec_of_fireValue (exec_dot4 t f s) fun a b c => by rw [dot4Value_eq]
  case teBfx => exact exec_of_fireValue (exec_teBfx t f s) fun a b _ => by rw [bfxValue_eq]
  case hash => exact exec_of_fireValue (exec_hash t f s) fun a b _ => by rw [hashValue_eq]
  case steer =>
    refine exec_of_fireCompute (exec_steer t f s) fun _ => ?_
    unfold steerWork passed
    simp only [ite_bne_zero, apply_ite BitVec.toNat]
  case merge =>
    refine exec_of_fireCompute (exec_merge t f s) fun _ => ?_
    unfold mergeWork passed
    simp only [ite_bne_zero]
  case gate =>
    refine exec_of_fireCompute (exec_gate t f s) fun _ => ?_
    unfold gateWork passed
    simp only [ite_bne_zero]
  case xcmp =>
    refine exec_of_fireCompute (exec_xcmp t f s) fun _ => ?_
    unfold xcmpWork
    simp only [condition_toNat] <;> rfl
  all_goals rfl

theorem exec_memorySlot {i : Instr} {t : Trig} {m : MemF} {k : ChainOp} (h : MemorySlot i t m k) (s : State) :
    exec i s = fireMemory t m k s := by
  cases h <;> rfl

/-! ## Slots that are not ready -/

/-- A slot whose TE does not run or that is not ready passes no test of its firing (R143). -/
theorem not_ready {s : State} {p : TeId} {t : Trig} {sh : Shape} (held : Bool)
    (h : s.teRuns p = false ∨ s.slotReady p t sh = false) : ¬(s.teRuns p && held && s.slotReady p t sh) = true := by
  rcases h with h | h <;> simp [h]

/-- Settles O33: a slot of either form tests that its TE runs and that it is ready before it does anything, and a form
without a shape is not ready. -/
theorem unreadySlotsDoNothing : Obligations.UnreadySlotsDoNothing := by
  unfold Obligations.UnreadySlotsDoNothing
  refine fun i t s => ⟨fun f k w hi h => ?_, fun m k hi h => ?_⟩
  · rw [exec_computeSlot hi]
    unfold fireCompute
    dsimp only
    split
    · rfl
    · next sh hsh => exact if_neg (not_ready _ (h sh hsh))
  · rw [exec_memorySlot hi]
    unfold fireMemory
    exact if_neg (not_ready _ h)

end Sys2Proof.Machine
end

section
/-! SUPPORT. Two firings that leave other than the statements about W and about the rest of the machine say: the MERGE of two
beats above (R145, R181), and a token that meets a full queue because its sender's count was corrupted (R191, R351, R352). -/

namespace Sys2Proof.Machine

open Sys2Proof.Claims

/-! ## The W word that a MERGE of two beats leaves -/

/-- Beat 0 passes the immediate into w[1], and beat 1 reads it there and passes it on. -/
theorem mergeIntoW_writes_w :
    (mergeState.fireAll mergeState.focusTe twoBeats mergeIntoW mergeShape (mergeWork twoBeats mergeIntoW)).readW
      mergeState.focusTe 1 = 1#32 := by decide

/-- Refutes O28 by the term of `not_elementsUpdatePredicatesAndLap`: no source of the shape of `mergeIntoW` is in W, so
`steady` holds, and the statement takes the last value for w[1] from the state before the firing, where it is 0; the model
leaves the 1 that beat 0 wrote. -/
theorem not_elementsWriteTheirRegisters : ¬ Obligations.ElementsWriteTheirRegisters := by
  unfold Obligations.ElementsWriteTheirRegisters
  intro h
  have hsteady : ∀ c ∈ mergeShape.srcs, c < 16 ∨ 24 < c := by decide
  obtain ⟨u, hu, -, hw⟩ := h _ _ _ _ _ mergeState mergeShape (.merge twoBeats mergeIntoW) mergeIntoW_fires
    (.inr (.inl hsteady))
  have hrun := Host.Outcome.next.inj ((exec_merge_of_fires mergeIntoW_fires).symm.trans hu)
  have h1 := hw 1
  rw [← hrun, mergeIntoW_writes_w] at h1
  exact absurd h1 (by decide)

/-! ## A token that finds no slot -/

/-- A trigger of one beat on INT32 that tests nothing. -/
def oneBeat : Trig := { twoBeats with beatsM1 := 0#5 }

/-- MOV of an immediate to output e. -/
def moveEast : Comp := ⟨1#5, 6#5, 7#5, 7#5, 0#6, 0#1, 0#4, 0#3, 0#2, 0#8, 0#1, 1#12⟩

/-- A group whose rectangle is TEs (0, 0) and (1, 0) of tile 0. -/
def pairGroup : Group :=
  { gid := 1, part := 0, plot := 0, graph := 0, node := 0, index := 0, level := 0, unitTile := 0, members := [0]
    memberMask := 1#16, tokmask := 0#64, windows := [], texts := [], rects := [⟨0, 0, 0, 0, 2, 1⟩], slots := [], entries := [] }

/-- The reset state, but with TE (0, 0) of tile 0 running and in.w of TE (1, 0) full, of which the count of TE (0, 0) knows
nothing; three errors of their link stand in its window, and the package ring has room. -/
def fullQueueState : State :=
  { (State.reset.setTe 0 0 0 { started := true }).setTe 0 1 0
      { queues := vset (Vector.replicate 6 []) 3 (List.replicate 4 ⟨0#32, 7#3, 0#2, 0#8, none, false⟩) } with
    groups := [pairGroup]
    pkg := { ring := { size := 64 }, corrected := [⟨linkUnitOf (0, 0, 0) 1, [0, 0, 0]⟩] } }

/-- The shape of the firing: of its one beat's token to output e. -/
def moveShape : Shape := { srcs := [6], data := [(6, 7#3)], names := [6], dests := [1], pushes := 1, deq := [] }

/-- FLOAD takes the slot (R148). -/
theorem moveEast_wf : (Instr.teMov oneBeat moveEast).wf = true := by decide

theorem moveEast_fires : fires .src1 oneBeat moveEast fullQueueState moveShape :=
  ⟨by decide, by decide, by decide, by decide⟩

/-- The token of the firing finds no slot and is dropped; the fourth error in the window makes the fault lasting, and its
record, of cause LINK with bit 6, stands in the ring from address 0 on (R191, R351, R352). -/
theorem moveEast_logs :
    (fullQueueState.fireAll fullQueueState.focusTe oneBeat moveEast moveShape
      (valueWork moveEast oneBeat.fmt fun a _ _ => (a, 0#8))).mem.read 8 = 0x53#8 := by decide

/-- Refutes O30: a firing whose output's free-slot count was corrupted drops its token, and where that is the fourth error of
the link in the window of R351 the record of R352 changes memory, of which the statement says that it stays. -/
theorem not_elementsDequeueAndLeaveTheRest : ¬ Obligations.ElementsDequeueAndLeaveTheRest := by
  unfold Obligations.ElementsDequeueAndLeaveTheRest
  intro h
  obtain ⟨u, hu, hstays, -⟩ := h _ _ _ _ _ fullQueueState moveShape (.teMov oneBeat moveEast) moveEast_fires
  obtain ⟨-, -, -, ⟨hmem, -⟩, -⟩ := hstays
  have hrun := Host.Outcome.next.inj ((fireCompute_of_fires (fun _ => valueWork moveEast oneBeat.fmt fun a _ _ => (a, 0#8))
    moveEast_fires).symm.trans ((exec_computeSlot (.teMov oneBeat moveEast) fullQueueState).symm.trans hu))
  have h8 := hmem 8
  rw [← hrun, moveEast_logs] at h8
  exact absurd h8 (by decide)

end Sys2Proof.Machine
end

section
/-! SUPPORT. What a dequeue leaves of its TE, of the other TEs and of all other units, and the memory-form slots (R143, R172,
R194, R213, R214). -/

namespace Sys2Proof.Machine

open Sys2Proof.Claims

/-! ## What one dequeue does -/

/-- The TE with the head of an input queue gone and its flags gathered (R134). -/
def TE.dequeued (e : TE) (ch : Nat) (x : Token) (rest : List Token) : TE :=
  { e.setQueue ch rest with flags := e.flags ||| (x.flags &&& 0x1F#8) }

/-- A dequeue finds its queue empty, or it takes the head, whose slot is returned or kept with the token (R172, R226). -/
theorem dequeue_cases (s : State) (p : TeId) (ch : Nat) :
    ((s.teAt p).queue ch = [] ∧ s.dequeue p ch = s) ∨
      ∃ x rest, (s.teAt p).queue ch = x :: rest ∧
        (s.dequeue p ch = (s.modTeAt p fun e => e.dequeued ch x rest).returnSlot p ch ∨
          s.dequeue p ch = (s.modTeAt p fun e => e.dequeued ch x rest).modTeAt p fun e =>
            { e with taken := e.taken ++ [(ch, x)] }) := by
  unfold State.dequeue
  split
  · next h => exact .inl ⟨h, rfl⟩
  · next x rest h =>
    refine .inr ⟨x, rest, h, ?_⟩
    dsimp only
    split
    · split
      · exact .inl rfl
      · exact .inr rfl
    · exact .inl rfl

/-- A slot returned changes a count of free slots alone (R172). -/
theorem returnSlot_sansCredit (s : State) (p : TeId) (ch : Nat) (q : TeId) :
    ((s.returnSlot p ch).teAt q).sansCredit = (s.teAt q).sansCredit := by
  unfold State.returnSlot
  split
  · rfl
  · split
    · rfl
    · exact teAt_modTeAt_keeps TE.sansCredit s _ q _ fun _ => rfl

theorem returnSlot_groups (s : State) (p : TeId) (ch : Nat) : (s.returnSlot p ch).groups = s.groups := by
  unfold State.returnSlot
  split
  · rfl
  · split <;> rfl

/-! ## What dequeues leave -/

/-- The TE without what a dequeue changes: its queues, the live-in tokens it keeps, its flags and its free-slot counts. -/
def TE.sansQueues (e : TE) : TE := { e.sansCredit with queues := Vector.replicate 6 [], taken := [], flags := 0#8 }

/-- Only the queues of the TE `p`, with what goes with them, and counts of free slots differ. -/
structure DequeuesOnly (p : TeId) (s t : State) : Prop where
  fabric : FabricOnly s t
  groups : t.groups = s.groups
  own : (t.teAt p).sansQueues = (s.teAt p).sansQueues
  others : ∀ q, OtherTe p q → (t.teAt q).sansCredit = (s.teAt q).sansCredit

namespace DequeuesOnly

variable {p : TeId} {s t u : State}

theorem refl (s : State) : DequeuesOnly p s s := ⟨AgreeIn.refl s, rfl, rfl, fun _ _ => rfl⟩

theorem trans (h : DequeuesOnly p s t) (k : DequeuesOnly p t u) : DequeuesOnly p s u :=
  ⟨h.fabric.trans k.fabric, k.groups.trans h.groups, k.own.trans h.own, fun q hq => (k.others q hq).trans (h.others q hq)⟩

theorem modTeAt (s : State) (f : TE → TE) (hf : ∀ e, (f e).sansQueues = e.sansQueues) : DequeuesOnly p s (s.modTeAt p f) :=
  ⟨FabricOnly.modTeAt s p f, rfl, by rw [teAt_modTeAt_same, hf], fun q hq => by rw [teAt_modTeAt_other s f hq]⟩

theorem returnSlot (s : State) (ch : Nat) : DequeuesOnly p s (s.returnSlot p ch) :=
  ⟨FabricOnly.returnSlot s p ch, returnSlot_groups s p ch,
    congrArg (fun e : TE => { e with queues := Vector.replicate 6 [], taken := [], flags := 0#8 })
      (returnSlot_sansCredit s p ch p),
    fun q _ => returnSlot_sansCredit s p ch q⟩

theorem dequeue (s : State) (ch : Nat) : DequeuesOnly p s (s.dequeue p ch) := by
  rcases dequeue_cases s p ch with ⟨-, h⟩ | ⟨x, rest, -, h | h⟩ <;> rw [h]
  · exact refl s
  · exact trans (modTeAt s (·.dequeued ch x rest) fun _ => rfl) (returnSlot _ ch)
  · exact trans (modTeAt s (·.dequeued ch x rest) fun _ => rfl)
      (modTeAt _ (fun e => { e with taken := e.taken ++ [(ch, x)] }) fun _ => rfl)

theorem dequeues (p : TeId) : ∀ (l : List Nat) (s : State), DequeuesOnly p s (l.foldl (fun a ch => a.dequeue p ch) s)
  | [], s => refl s
  | ch :: l, s => (dequeue s ch).trans (dequeues p l _)

theorem dequeueBeats (p : TeId) (l : List Nat) : ∀ (n : Nat) (s : State), DequeuesOnly p s (s.dequeueBeats p l n)
  | 0, s => refl s
  | n + 1, s => (dequeues p l s).trans (dequeueBeats p l n _)

/-- What depends on neither queues nor what goes with them stands in the TE itself. -/
theorem keeps (h : DequeuesOnly p s t) {α : Type} (g : TE → α) (hg : ∀ e, g e = g e.sansQueues) :
    g (t.teAt p) = g (s.teAt p) := by
  rw [hg, hg (s.teAt p), h.own]

end DequeuesOnly

/-! ## The queues after dequeues -/

theorem queue_of_sansCredit {a b : TE} (h : a.sansCredit = b.sansCredit) (ch : Nat) : a.queue ch = b.queue ch :=
  (congrArg (TE.queue · ch) h :)

theorem queue_eq_nil (e : TE) {ch : Nat} (h : 6 ≤ ch) : e.queue ch = [] := by
  simp [TE.queue, vget, Nat.not_lt.mpr h]

/-- A dequeue takes the head of its queue and leaves the others (R145). -/
theorem queue_dequeue (s : State) (p : TeId) (ch k : Nat) :
    ((s.dequeue p ch).teAt p).queue k = ((s.teAt p).queue k).drop (if ch = k then 1 else 0) := by
  have hset (x : Token) (rest : List Token) (h : (s.teAt p).queue ch = x :: rest) :
      ((s.teAt p).dequeued ch x rest).queue k = ((s.teAt p).queue k).drop (if ch = k then 1 else 0) := by
    have hch : ch < 6 := by
      by_contra hn
      rw [queue_eq_nil _ (by omega)] at h
      cases h
    by_cases hk : ch = k
    · subst hk
      rw [if_pos rfl, h]
      exact queue_setQueue_same (s.teAt p) rest hch
    · rw [if_neg hk]
      exact queue_setQueue_ne (s.teAt p) rest (Ne.symm hk)
  rcases dequeue_cases s p ch with ⟨h, e⟩ | ⟨x, rest, h, e | e⟩ <;> rw [e]
  · split
    · next hk => rw [← hk, h]; rfl
    · rfl
  · rw [queue_of_sansCredit (returnSlot_sansCredit _ p ch p), teAt_modTeAt_same]
    exact hset x rest h
  · rw [teAt_modTeAt_same, teAt_modTeAt_same]
    exact hset x rest h

theorem queue_dequeues (p : TeId) (k : Nat) : ∀ (l : List Nat) (s : State),
    ((l.foldl (fun a ch => a.dequeue p ch) s).teAt p).queue k = ((s.teAt p).queue k).drop (l.count k)
  | [], _ => rfl
  | ch :: l, s => by
    rw [List.foldl_cons, queue_dequeues p k l, queue_dequeue, List.drop_drop, List.count_cons]
    simp only [beq_iff_eq]
    rw [Nat.add_comm]

theorem queue_dequeueBeats (p : TeId) (k : Nat) (l : List Nat) : ∀ (n : Nat) (s : State),
    ((s.dequeueBeats p l n).teAt p).queue k = ((s.teAt p).queue k).drop (n * l.count k)
  | 0, s => by rw [Nat.zero_mul]; rfl
  | n + 1, s => by
    unfold State.dequeueBeats
    rw [queue_dequeueBeats p k l n, queue_dequeues, List.drop_drop, Nat.succ_mul, Nat.add_comm]

theorem mem_deqList {d : BitVec 6} {ch : Nat} : ch ∈ deqList d ↔ ch < 6 ∧ d.getLsbD ch = true := by
  unfold deqList
  rw [List.mem_filter]
  refine and_congr_left fun _ => ?_
  simp only [List.mem_cons, List.not_mem_nil, or_false]
  omega

theorem count_deqList {d : BitVec 6} {ch : Nat} (h : ch < 6) : (deqList d).count ch = if d.getLsbD ch then 1 else 0 := by
  have hn : (deqList d).Nodup := List.Nodup.filter _ (by decide)
  split
  · next hd => exact List.count_eq_one_of_mem hn (mem_deqList.mpr ⟨h, hd⟩)
  · next hd => exact List.count_eq_zero_of_not_mem fun hm => hd (mem_deqList.mp hm).2

/-! ## The other units -/

/-- Two TEs of one fabric at two places are two TEs. -/
theorem otherTe_of_ne {p q : TeId} (hp : p.2.2 < 10) (hq : q.2.2 < 10) (h : q ≠ p) : OtherTe p q := by
  obtain ⟨a, b, c⟩ := p
  obtain ⟨a', b', c'⟩ := q
  unfold OtherTe teKey
  by_contra hn
  simp only [not_or, not_not] at hn hp hq
  exact h (by rw [hn.1, show b' = b by omega, show c' = c by omega])

theorem FabricOnly.pool {s t : State} (h : FabricOnly s t) (n : Nat) : (t.ctx n).pool = (s.ctx n).pool :=
  h.tileKeeps (·.ctx.pool) (fun _ => rfl) n

/-- A state that differs in its fabric alone, and at other TEs in counts of free slots alone, leaves what is no firing's own. -/
theorem stays_of_fabricOnly {p : TeId} {s t : State} (hp : p.2.2 < 10) (h : FabricOnly s t)
    (hq : ∀ q, OtherTe p q → (t.teAt q).sansCredit = (s.teAt q).sansCredit) : stays s t p := by
  refine ⟨h.thread, h.pool, h.token, h.sameMemory, fun q hne hr => ?_⟩
  have e := hq q (otherTe_of_ne hp hr hne)
  exact ⟨(congrArg TE.snapshot e :), (congrArg TE.flags e :), (congrArg TE.slots e :), (congrArg TE.outM e :), h.readW q⟩

/-! ## Memory-form slots -/

/-- A memory-form slot that nothing stops fires (R143, R144). -/
theorem fireMemory_of_fires {t : Trig} {m : MemF} {k : ChainOp} {s : State} (h : firesChain t m s) :
    fireMemory t m k s = .next (s.fireChain s.focusTe t m k s.focus.teSlot) := by
  obtain ⟨-, -, -, hruns, hheld, hready, hpoison, hformat⟩ := h
  have hstop : s.chainStop s.focusTe s.focus.teSlot t (memShape t m) = none := by
    simp [State.chainStop, hpoison, hformat]
  simp [fireMemory, hruns, hheld, hready, hstop]

/-- What a selector of a memory-form slot reads in a beat (R141). -/
theorem memSource_eq (e : TE) (d : BitVec 6) (b sel : Nat) : memSource e (deqList d) b sel = chainRead e d b sel := by
  unfold memSource chainRead chanToken
  by_cases h : sel < 6
  · have hc : (deqList d).contains sel = d.getLsbD sel := by
      rw [Bool.eq_iff_iff, List.contains_iff_mem, mem_deqList]
      exact and_iff_right h
    rw [if_pos h, if_pos h, hc]
  · rw [if_neg h, if_neg h]
    simp only [Bool.and_eq_true, decide_eq_true_eq]

/-- The offset that a beat forms (R214). -/
theorem chainOffset_eq (m : MemF) (e : TE) (b : Nat) :
    chainOffset m e (deqList m.deq) b = chainRead e m.deq b m.addr.toNat + BitVec.ofNat 32
      ((m.off8.toNat + if m.addr.toNat < 6 ∧ m.deq.getLsbD m.addr.toNat = true then 0 else b) * 2 ^ m.size.toNat) := by
  unfold chainOffset
  rw [memSource_eq]
  simp only [Bool.and_eq_true, decide_eq_true_eq, List.contains_iff_mem, mem_deqList, ← and_assoc, and_self]

/-- The state in which the accesses of a firing stand at out.m, with a slot of in.m reserved for each (R143, R194). -/
def State.chainSent (s : State) (p : TeId) (reqs : List ChainReq) : State :=
  (((s.count 1 p.1 0).countBy 1 p.1 1 reqs.length).fresh.2).modTeAt p fun x =>
    { x with outM := x.outM ++ reqs, reservedM := x.reservedM + reqs.length }

/-- The accesses of the beats of a firing, in their order (R194). -/
def State.chainReqs (s : State) (p : TeId) (t : Trig) (m : MemF) (k : ChainOp) (slot : Nat) : List ChainReq :=
  (List.range (beatsOf t)).map fun b =>
    chainReq t m k (s.teAt p) (deqList m.deq) s.nextId slot (s.instanceOf p).isSome b

theorem chainReqs_length (s : State) (p : TeId) (t : Trig) (m : MemF) (k : ChainOp) (slot : Nat) :
    (s.chainReqs p t m k slot).length = beatsOf t := by
  unfold State.chainReqs
  rw [List.length_map, List.length_range]

/-- A memory-form firing sends its accesses and then dequeues (R145, R194). -/
theorem fireChain_eq (s : State) (p : TeId) (t : Trig) (m : MemF) (k : ChainOp) (slot : Nat) :
    s.fireChain p t m k slot =
      (s.chainSent p (s.chainReqs p t m k slot)).dequeueBeats p (deqList m.deq) (beatsOf t) := by
  unfold State.chainSent
  rw [chainReqs_length]
  rfl

theorem teAt_chainSent (s : State) (p : TeId) (reqs : List ChainReq) :
    (s.chainSent p reqs).teAt p =
      { s.teAt p with outM := (s.teAt p).outM ++ reqs, reservedM := (s.teAt p).reservedM + reqs.length } := by
  have h : (((s.count 1 p.1 0).countBy 1 p.1 1 reqs.length).fresh.2).teAt p = s.teAt p := teAt_congr (fun _ => rfl) p
  unfold State.chainSent
  rw [teAt_modTeAt_same, h]

theorem FabricOnly.chainSent (s : State) (p : TeId) (reqs : List ChainReq) : FabricOnly s (s.chainSent p reqs) :=
  AgreeIn.trans (t := ((s.count 1 p.1 0).countBy 1 p.1 1 reqs.length).fresh.2) (AgreeIn.of_tiles rfl rfl rfl rfl)
    (FabricOnly.modTeAt _ p _)

theorem teAt_chainSent_other (s : State) {p q : TeId} (reqs : List ChainReq) (h : OtherTe p q) :
    (s.chainSent p reqs).teAt q = s.teAt q :=
  teAt_modTeAt_other _ _ h

/-- The access of a beat (R194, R213, R214). -/
theorem getElem?_chainReqs {s : State} {p : TeId} {t : Trig} {m : MemF} {k : ChainOp} {slot b : Nat} {r : ChainReq}
    (h : (s.chainReqs p t m k slot)[b]? = some r) :
    r = chainReq t m k (s.teAt p) (deqList m.deq) s.nextId slot (s.instanceOf p).isSome b := by
  unfold State.chainReqs at h
  rw [List.getElem?_map, Option.map_eq_some_iff] at h
  obtain ⟨j, hj, rfl⟩ := h
  obtain ⟨hb, hj⟩ := List.getElem?_eq_some_iff.mp hj
  rw [← hj, List.getElem_range]

/-- Settles O36: the accesses join out.m before the dequeues, which leave all but queues, flags and counts of free slots. -/
theorem chainSlotsSendTheirAccesses : Obligations.ChainSlotsSendTheirAccesses := by
  unfold Obligations.ChainSlotsSendTheirAccesses
  intro i t m k s hi hf p e
  have hrow : p.2.2 < 10 := hf.2.2.1
  have hlen := chainReqs_length s p t m k s.focus.teSlot
  have hte := teAt_chainSent s p (s.chainReqs p t m k s.focus.teSlot)
  have hd := DequeuesOnly.dequeueBeats p (deqList m.deq) (beatsOf t) (s.chainSent p (s.chainReqs p t m k s.focus.teSlot))
  refine ⟨_, s.chainReqs p t m k s.focus.teSlot, (exec_memorySlot hi s).trans ((fireMemory_of_fires hf).trans
    (congrArg _ (fireChain_eq s p t m k _))), ?_, hlen, ?_, fun b r hr => ?_, fun ch hch => ?_, ?_, ?_⟩
  · rw [hd.keeps TE.outM fun _ => rfl, hte]
  · rw [hd.keeps TE.reservedM fun _ => rfl, hte, ← hlen]
  · obtain rfl := getElem?_chainReqs hr
    exact ⟨rfl, rfl, rfl, rfl, rfl, rfl, rfl, rfl, rfl, rfl, rfl, rfl, memSource_eq _ _ _ _, chainOffset_eq _ _ _⟩
  · rw [queue_dequeueBeats, hte, count_deqList hch]
    show (e.queue ch).drop _ = _
    split
    · rw [Nat.mul_one]
    · rw [Nat.mul_zero, List.drop_zero]
  · rw [hd.keeps TE.snapshot fun _ => rfl, hte]
    rfl
  · exact stays_of_fabricOnly hrow ((FabricOnly.chainSent s p _).trans hd.fabric) fun q hq =>
      (hd.others q hq).trans (congrArg _ (teAt_chainSent_other s _ hq))

end Sys2Proof.Machine
end

section
/-! SUPPORT. The traffic of a firing (R142, R145, R149, R166, R171, R172, R191): what the tokens, the dequeues and the requests
of its beats leave of the machine, and the induction over its beats. -/

namespace Sys2Proof.Machine

open Sys2Proof.Claims

/-! ## Errors of links -/

/-- The tile without its retirement. -/
def Tile.sansRetired (x : Tile) : Tile := { x with retired := false }

theorem log_groups (s : State) (e : Event) : (s.log e).groups = s.groups := by
  unfold State.log
  dsimp only
  split <;> rfl

/-- The retirement of a unit marks tiles as retired, and nothing else of them (R351). -/
theorem tile_retireUnit (s : State) (u : CounterId) (n : Nat) :
    ((s.retireUnit u).tile n).sansRetired = (s.tile n).sansRetired := by
  have hfold (a : Nat) (l : List Nat) (v : State) :
      AgreeIn Tile.sansRetired v (l.foldl (fun x i => x.modTile (a + i) fun t => { t with retired := true }) v) :=
    AgreeIn.foldl _ (fun v i => AgreeIn.modTile v (a + i) _ rfl) l v
  unfold State.retireUnit
  dsimp only
  rw [tile_congr (log_tiles _ _)]
  refine Eq.trans ?_ ((hfold (retiredTiles u).1 (List.range (retiredTiles u).2) s).tiles n)
  unfold State.lastingCode
  split <;> rfl

theorem retireUnit_groups (s : State) (u : CounterId) : (s.retireUnit u).groups = s.groups := by
  have hfold (a : Nat) (l : List Nat) (v : State) :
      (l.foldl (fun x i => x.modTile (a + i) fun t => { t with retired := true }) v).groups = v.groups := by
    induction l generalizing v with
    | nil => rfl
    | cons i l ih => exact ih _
  unfold State.retireUnit
  dsimp only
  rw [log_groups]
  refine Eq.trans ?_ (hfold (retiredTiles u).1 (List.range (retiredTiles u).2) s)
  unfold State.lastingCode
  split <;> rfl

theorem tile_correctedEvent (s : State) (u : CounterId) (n : Nat) :
    ((s.correctedEvent u).tile n).sansRetired = (s.tile n).sansRetired := by
  unfold State.correctedEvent
  dsimp only
  split
  · exact tile_retireUnit _ u n
  · rfl

theorem correctedEvent_groups (s : State) (u : CounterId) : (s.correctedEvent u).groups = s.groups := by
  unfold State.correctedEvent
  dsimp only
  split
  · exact retireUnit_groups _ u
  · rfl

theorem ctx_correctedEvent (s : State) (u : CounterId) (n : Nat) : (s.correctedEvent u).ctx n = s.ctx n :=
  (congrArg Tile.ctx (tile_correctedEvent s u n) :)

theorem teAt_correctedEvent (s : State) (u : CounterId) (q : TeId) : (s.correctedEvent u).teAt q = s.teAt q :=
  teAt_congr (fun n => congrArg Context.tes (ctx_correctedEvent s u n)) q

theorem readW_correctedEvent (s : State) (u : CounterId) (q : TeId) (a : Nat) :
    (s.correctedEvent u).readW q a = s.readW q a :=
  (congrArg (fun x : Tile => x.w.get 0#32 (8192 * teKey q.2.1 q.2.2 + (x.win.wbase + a) % 8192))
    (tile_correctedEvent s u q.1) :)

/-! ## What does not depend on the traffic -/

/-- The TE without its queues and what counts and gathers their tokens. -/
def TE.sansTraffic (e : TE) : TE := { e.sansQueues with overflowed := Vector.replicate 4 0, ctlTokens := 0 }

/-- What of a state depends neither on tokens and their counts, nor on the collectors, the images and the errors of links. -/
structure TrafficFree {α : Type} (g : State → α) : Prop where
  te : ∀ (u : State) (q : TeId) (h : TE → TE), (∀ e, (h e).sansTraffic = e.sansTraffic) → g (u.modTeAt q h) = g u
  collector : ∀ (u : State) (n : Nat) (x : CtlToken),
    g (u.modCtx n fun c => { c with collector := c.collector ++ [x] }) = g u
  image : ∀ (u : State) (i : Nat) (h : Image → Image), g (u.modImage i h) = g u
  error : ∀ (u : State) (c : CounterId), g (u.correctedEvent c) = g u

namespace TrafficFree

theorem groups : TrafficFree State.groups := ⟨fun _ _ _ _ => rfl, fun _ _ _ => rfl, fun _ _ _ => rfl, correctedEvent_groups⟩

/-- What a TE holds beside its queues. -/
theorem teAt {α : Type} (g : TE → α) (hg : ∀ e, g e = g e.sansTraffic) (q : TeId) : TrafficFree fun s => g (s.teAt q) :=
  ⟨fun u p h hh => teAt_modTeAt_keeps g u p q h fun e => by rw [hg, hh, ← hg],
    fun u n _ => congrArg g (teAt_modCtx u n _ rfl q), fun _ _ _ => rfl, fun u c => congrArg g (teAt_correctedEvent u c q)⟩

theorem colReqs (n : Nat) : TrafficFree fun s => (s.ctx n).colReqs := by
  refine ⟨fun u q h _ => ctx_modTeAt_keeps (·.colReqs) (fun _ _ => rfl) u q h n, fun u k x => ?_, fun _ _ _ => rfl,
    fun u c => congrArg Context.colReqs (ctx_correctedEvent u c n)⟩
  by_cases h : n = k
  · subst h; rw [ctx_modCtx_same]
  · rw [ctx_modCtx_ne u _ h]

theorem readW (q : TeId) (a : Nat) : TrafficFree fun s => s.readW q a :=
  ⟨fun u p h _ => (FabricOnly.modTeAt u p h).readW q a, fun u n _ => (FabricOnly.modCtx u n _ rfl).readW q a,
    fun _ _ _ => rfl, fun u c => readW_correctedEvent u c q a⟩

variable {α : Type} {g : State → α}

theorem credit (hg : TrafficFree g) (s : State) (p : TeId) (d : Nat) (h : Nat → Nat) :
    g (s.modTeAt p fun e => e.modCredit d h) = g s := hg.te s p _ fun _ => rfl

theorem enqueue (hg : TrafficFree g) (s : State) (p : TeId) (ch : Nat) (x : Token) : g (s.enqueue p ch x) = g s :=
  hg.te s p _ fun _ => rfl

theorem push (hg : TrafficFree g) (s : State) (p : TeId) (d : Nat) (x : Token) : g (s.push p d x) = g s := by
  unfold State.push
  split
  · rfl
  · next q ch _ _ =>
    have h1 := hg.credit s p d (· - 1)
    have h2 (u : State) : g (u.modTeAt q fun e => { e with overflowed := vset e.overflowed ch (vget e.overflowed ch 0 + 1) }) =
        g u := hg.te u q _ fun _ => rfl
    dsimp only
    split
    · exact (hg.enqueue _ q ch x).trans h1
    · exact (hg.error _ _).trans ((h2 _).trans h1)

/-- The writes of a beat leave it, where it does not depend on W or they write none (R142). -/
theorem sends (hg : TrafficFree g) (p : TeId) (e : TE) (f : Comp) (b : Nat) (region : Option Nat) :
    ∀ (l : List Sent) (s : State), ((∀ x ∈ l, x.dest < 16) ∨ ∀ u a v, g (State.writeW u p a v) = g u) →
      g (l.foldl (fun a y => a.send1 p e f b region y) s) = g s
  | [], _, _ => rfl
  | x :: l, s, h => by
    have h1 : g (s.send1 p e f b region x) = g s := by
      unfold State.send1
      split
      · exact hg.push s p _ _
      · split
        · next hw =>
          rcases h with h | h
          · have := h x List.mem_cons_self
            simp at hw
            omega
          · exact h _ _ _
        · rfl
    exact (sends hg p e f b region l _ (h.imp_left fun h y hy => h y (List.mem_cons_of_mem _ hy))).trans h1

theorem pushControl (hg : TrafficFree g) (s : State) (p : TeId) (region : Option Nat) (n : BitVec 4) :
    g (s.pushControl p region n) = g s := by
  unfold State.pushControl
  dsimp only
  split
  · exact (hg.image _ _ _).trans (hg.te s p _ fun _ => rfl)
  · exact (hg.collector _ _ _).trans (hg.te s p _ fun _ => rfl)

theorem returnSlot (hg : TrafficFree g) (s : State) (p : TeId) (ch : Nat) : g (s.returnSlot p ch) = g s := by
  unfold State.returnSlot
  split
  · rfl
  · split
    · rfl
    · exact hg.credit s _ _ _

theorem dequeue (hg : TrafficFree g) (s : State) (p : TeId) (ch : Nat) : g (s.dequeue p ch) = g s := by
  have h1 (x : Token) (rest : List Token) : g (s.modTeAt p fun e => e.dequeued ch x rest) = g s :=
    hg.te s p _ fun _ => rfl
  have h2 (u : State) (x : Token) : g (u.modTeAt p fun e => { e with taken := e.taken ++ [(ch, x)] }) = g u :=
    hg.te u p _ fun _ => rfl
  rcases dequeue_cases s p ch with ⟨-, h⟩ | ⟨x, rest, -, h | h⟩ <;> rw [h]
  · exact (hg.returnSlot _ p ch).trans (h1 x rest)
  · exact (h2 _ x).trans (h1 x rest)

theorem dequeues (hg : TrafficFree g) (p : TeId) : ∀ (l : List Nat) (s : State),
    g (l.foldl (fun a ch => a.dequeue p ch) s) = g s
  | [], _ => rfl
  | ch :: l, s => (dequeues hg p l _).trans (hg.dequeue s p ch)

end TrafficFree

/-! ## A beat by its parts -/

/-- The state with the flags of a beat gathered (R134). -/
def State.gather (s : State) (p : TeId) (fl : BitVec 8) : State :=
  s.modTeAt p fun e => { e with flags := e.flags ||| (fl &&& 0x1F#8) }

/-- The state with the writes of a beat made (R142). -/
def State.sends (s : State) (p : TeId) (e : TE) (f : Comp) (b : Nat) (region : Option Nat) (l : List Sent) : State :=
  l.foldl (fun a y => a.send1 p e f b region y) s

/-- The state with the request of a beat held out, where it has one (R149). -/
def State.asks (s : State) (p : TeId) (region : Option Nat) (c : Option (BitVec 3 × W32 × BitVec 2)) : State :=
  match c with
  | some q => s.request p region q
  | none => s

/-- The state with the control token of a beat pushed, where it has one (R165). -/
def State.signals (s : State) (p : TeId) (region : Option Nat) (c : Option (BitVec 4)) : State :=
  match c with
  | some n => s.pushControl p region n
  | none => s

/-- The state after a beat that does what `x` says (R145, R166). -/
def State.playBeat (s : State) (p : TeId) (e : TE) (f : Comp) (sh : Shape) (region : Option Nat) (b : Nat) (x : Beat) :
    State :=
  sh.deq.foldl (fun a ch => a.dequeue p ch)
    ((((s.gather p x.flags).sends p e f b region x.sent).asks p region x.column).signals p region x.control)

theorem oneBeat_fst (s : State) (p : TeId) (e : TE) (f : Comp) (sh : Shape) (w : Work) (region : Option Nat) (b : Nat)
    (last : Bool) (r : Run) :
    (s.oneBeat p e f sh w region b last r).1 =
      s.playBeat p e f sh region b (w.beat (s.source p e f sh.deq b) (sourceTag e sh.deq b) last) := rfl

/-- What each of `n` beats keeps holds after them. -/
theorem beatsFrom_induct {p : TeId} {e : TE} {f : Comp} {sh : Shape} {w : Work} {region : Option Nat} {N : Nat}
    {I : Nat → State → Prop}
    (hstep : ∀ b a, b < N → I b a → I (b + 1) (a.playBeat p e f sh region b
      (w.beat (a.source p e f sh.deq b) (sourceTag e sh.deq b) (b + 1 == N)))) :
    ∀ (n b : Nat) (a : State) (r : Run), b + n = N → I b a → I N (a.beatsFrom p e f sh w region n b r).1
  | 0, b, a, r, hb, h => by
    obtain rfl : b = N := hb
    exact h
  | n + 1, b, a, r, hb, h => by
    have hl : (n == 0) = (b + 1 == N) := by
      rw [Bool.eq_iff_iff, beq_iff_eq, beq_iff_eq]
      omega
    unfold State.beatsFrom
    dsimp only
    refine beatsFrom_induct hstep n (b + 1) _ _ (by omega) ?_
    rw [oneBeat_fst, hl]
    exact hstep b a (by omega) h

/-! ## The end of a firing -/

/-- The TE without its predicates, its index registers and its lap. -/
def TE.sansRegs (e : TE) : TE := { e with p := 0#16, x := Vector.replicate 8 0#16, lap := 0#8 }

theorem setXs_sansRegs (l : List (Nat × BitVec 16)) : ∀ e : TE, (e.setXs l).sansRegs = e.sansRegs := by
  unfold TE.setXs
  induction l with
  | nil => intro _; rfl
  | cons y l ih => intro e; exact ih _

/-- The end of a firing writes predicates, index registers and the lap (R145). -/
theorem finishFiring_sansRegs (e e0 : TE) (t : Trig) (f : Comp) (sh : Shape) (preds : List (Nat × Bool))
    (xw : List (Nat × BitVec 16)) (lap : Option (BitVec 8)) (v : Option W32) :
    (e.finishFiring e0 t f sh preds xw lap v).sansRegs = e.sansRegs := by
  unfold TE.finishFiring
  dsimp only
  split <;> split <;> exact (setXs_sansRegs _ _).trans (setXs_sansRegs _ _)

/-- The state in which a firing is counted (R420). -/
def State.counted (s : State) (p : TeId) (n : Nat) : State := (s.count 1 p.1 0).countBy 1 p.1 1 n

theorem teAt_counted (s : State) (p : TeId) (n : Nat) (q : TeId) : (s.counted p n).teAt q = s.teAt q :=
  teAt_congr (fun _ => rfl) q

/-- A firing is its beats and the updates at the end of the last (R145). -/
theorem fireAll_eq (s : State) (p : TeId) (t : Trig) (f : Comp) (sh : Shape) (w : Work) :
    ∃ h : TE → TE, (∀ e, (h e).sansRegs = e.sansRegs) ∧
      s.fireAll p t f sh w =
        ((s.counted p (beatsOf t)).beatsFrom p (s.teAt p) f sh w (s.instanceOf p) (beatsOf t) 0 {}).1.modTeAt p h :=
  ⟨_, fun e => finishFiring_sansRegs e (s.teAt p) t f sh _ _ _ _, rfl⟩

/-! ## The reads of a firing -/

/-- A selector reads the same where W does (R141). -/
theorem source_of_sameW {s u : State} {p : TeId} (h : ∀ a, u.readW p a = s.readW p a) (e : TE) (f : Comp) (deq : List Nat)
    (b sel : Nat) : u.source p e f deq b sel = s.source p e f deq b sel := by
  unfold State.source
  rw [h]

/-- A selector outside W reads the same in every state (R141). -/
theorem source_outside_W (s u : State) (p : TeId) (e : TE) (f : Comp) (deq : List Nat) (b : Nat) {sel : Nat}
    (h : sel < 16 ∨ 24 < sel) : u.source p e f deq b sel = s.source p e f deq b sel := by
  have hw : (decide (16 ≤ sel) && decide (sel ≤ 24)) = false := by
    simp only [Bool.and_eq_false_iff, decide_eq_false_iff_not]
    omega
  unfold State.source
  simp only [hw, Bool.false_eq_true, if_false]

end Sys2Proof.Machine
end

section
/-! SUPPORT. The requests of a firing to its column unit (R149, R161), and what its beats depend on. -/

namespace Sys2Proof.Machine

open Sys2Proof.Claims

/-! ## The table of the element instructions -/

/-- A beat of any form but MERGE depends on the sources that the shape names alone (R141). -/
theorem beat_congr_of_srcs {i : Instr} {t : Trig} {f : Comp} {k : Form} {w : Bool → TE → Work} (hi : ComputeSlot i t f k w)
    (hk : k ≠ .merge) {e : TE} {r : Nat → W32} {sh : Shape} (hsh : formShape k t f e r = some sh) {read read' : Nat → W32}
    (h : ∀ c ∈ sh.srcs, read c = read' c) (ftz : Bool) (tag : Nat → BitVec 2) (last : Bool) :
    (w ftz e).beat read tag last = (w ftz e).beat read' tag last := by
  cases hi
  case merge => exact absurd rfl hk
  case carry =>
    obtain rfl := Option.some.inj hsh
    dsimp only at h ⊢
    split <;> simp_all
  all_goals
    obtain rfl := Option.some.inj hsh
    simp only [dataShape, headShape, List.forall_mem_cons] at h
    simp only [valueWork, h]

/-- Every token of a MERGE goes to its one destination (R181). -/
theorem merge_dest {i : Instr} {t : Trig} {f : Comp} {w : Bool → TE → Work} (hi : ComputeSlot i t f .merge w) (ftz : Bool)
    (e : TE) (read : Nat → W32) (tag : Nat → BitVec 2) (last : Bool) :
    ∀ x ∈ ((w ftz e).beat read tag last).sent, x.dest = f.dst.toNat := by
  cases hi
  simp

/-- An instruction asks the column unit in no beat, or sends nothing in any (R161). -/
theorem column_or_sent {i : Instr} {t : Trig} {f : Comp} {k : Form} {w : Bool → TE → Work} (hi : ComputeSlot i t f k w)
    (ftz : Bool) (e : TE) :
    (∀ read tag last, ((w ftz e).beat read tag last).column = none) ∨
      ∀ read tag last, ((w ftz e).beat read tag last).sent = [] := by
  cases hi
  case carry => exact .inl fun _ _ _ => by dsimp only; split <;> rfl
  case xexpf | xlog2 | xrcp | xrsq | xsqrt | xsin | xcos | xtanh => exact .inr fun _ _ _ => rfl
  all_goals exact .inl fun _ _ _ => rfl

/-! ## Requests -/

theorem FabricOnly.request (s : State) (p : TeId) (region : Option Nat) (q : BitVec 3 × W32 × BitVec 2) :
    FabricOnly s (s.request p region q) := by
  unfold State.request
  exact AgreeIn.trans (AgreeIn.trans (FabricOnly.modTeAt s p _) (FabricOnly.modColReqs _ p.1 _)) (AgreeIn.modImage _ _ _)

/-- A request reserves a slot of in.f (R149). -/
theorem teAt_request_same (s : State) (p : TeId) (region : Option Nat) (q : BitVec 3 × W32 × BitVec 2) :
    (s.request p region q).teAt p = { s.teAt p with reservedF := (s.teAt p).reservedF + 1 } := by
  unfold State.request
  dsimp only
  rw [teAt_modImage, teAt_modCtx _ _ _ rfl, teAt_modTeAt_same]

theorem teAt_request_other (s : State) {p q : TeId} (region : Option Nat) (x : BitVec 3 × W32 × BitVec 2)
    (h : OtherTe p q) : (s.request p region x).teAt q = s.teAt q := by
  unfold State.request
  dsimp only
  rw [teAt_modImage, teAt_modCtx _ _ _ rfl, teAt_modTeAt_other _ _ h]

/-- The request that a TE holds out (R161). -/
def columnRequest (p : TeId) (region : Option Nat) (img : Option Nat) (q : BitVec 3 × W32 × BitVec 2) : ColReq :=
  ⟨p.2.2, q.1, q.2.1, q.2.2, region.isSome, img.getD 0⟩

/-- A request stands last at the column unit of its TE (R161). -/
theorem colReqs_request (s : State) {p : TeId} (region : Option Nat) (q : BitVec 3 × W32 × BitVec 2) (hc : p.2.1 < 20) :
    vget ((s.request p region q).ctx p.1).colReqs p.2.1 [] =
      vget (s.ctx p.1).colReqs p.2.1 [] ++ [columnRequest p region (s.teAt p).image q] := by
  have h : ((s.modTeAt p fun e => { e with reservedF := e.reservedF + 1 }).ctx p.1).colReqs = (s.ctx p.1).colReqs :=
    ctx_modTeAt_keeps (·.colReqs) (fun _ _ => rfl) s p _ p.1
  unfold State.request
  dsimp only
  rw [ctx_modImage, ctx_modCtx_same, vget_vset_same _ _ _ hc, h]
  rfl

/-! ## What a beat leaves -/

namespace TrafficFree

variable {α : Type} {g : State → α}

/-- What a beat leaves but for its request. -/
theorem playBeat_asks (hg : TrafficFree g) (s : State) (p : TeId) (e : TE) (f : Comp) (sh : Shape) (region : Option Nat)
    (b : Nat) (x : Beat) :
    g (s.playBeat p e f sh region b x) = g (((s.gather p x.flags).sends p e f b region x.sent).asks p region x.column) := by
  unfold State.playBeat State.signals
  rw [hg.dequeues]
  split
  · exact hg.pushControl _ p region _
  · rfl

theorem gather_sends (hg : TrafficFree g) (s : State) (p : TeId) (e : TE) (f : Comp) (region : Option Nat) (b : Nat)
    (x : Beat) (hw : (∀ y ∈ x.sent, y.dest < 16) ∨ ∀ u a v, g (State.writeW u p a v) = g u) :
    g ((s.gather p x.flags).sends p e f b region x.sent) = g s :=
  (hg.sends p e f b region x.sent _ hw).trans (hg.te s p _ fun _ => rfl)

/-- What neither traffic nor a request changes, no beat changes. -/
theorem playBeat (hg : TrafficFree g) {p : TeId} {region : Option Nat} (hr : ∀ u q, g (State.request u p region q) = g u)
    (s : State) (e : TE) (f : Comp) (sh : Shape) (b : Nat) (x : Beat)
    (hw : (∀ y ∈ x.sent, y.dest < 16) ∨ ∀ u a v, g (State.writeW u p a v) = g u) :
    g (s.playBeat p e f sh region b x) = g s := by
  rw [hg.playBeat_asks]
  refine Eq.trans ?_ (hg.gather_sends s p e f region b x hw)
  unfold State.asks
  split
  · exact hr _ _
  · rfl

end TrafficFree

/-- A beat that writes no W word leaves W (R142). -/
theorem readW_playBeat (s : State) (p : TeId) (e : TE) (f : Comp) (sh : Shape) (region : Option Nat) (b : Nat) (x : Beat)
    (hw : ∀ y ∈ x.sent, y.dest < 16) (q : TeId) (a : Nat) : (s.playBeat p e f sh region b x).readW q a = s.readW q a :=
  (TrafficFree.readW q a).playBeat (fun u r => (FabricOnly.request u p region r).readW q a) s e f sh b x (.inl hw)

/-- A beat leaves what its TE holds beside traffic and the slots of in.f that it reserves. -/
theorem teAt_playBeat {α : Type} (g : TE → α) (hg : ∀ e, g e = g e.sansTraffic)
    (hr : ∀ (e : TE) n, g { e with reservedF := n } = g e) (s : State) (p : TeId) (e : TE) (f : Comp) (sh : Shape)
    (region : Option Nat) (b : Nat) (x : Beat) (q : TeId) :
    g ((s.playBeat p e f sh region b x).teAt q) = g (s.teAt q) := by
  refine (TrafficFree.teAt g hg q).playBeat (fun u r => ?_) s e f sh b x
    (.inr fun u a v => congrArg g ((WordsOnly.writeW u p a v).teAt q))
  unfold State.request
  dsimp only
  rw [teAt_modImage, teAt_modCtx _ _ _ rfl]
  exact teAt_modTeAt_keeps g u p q _ fun e => hr e _

/-- The requests at a column unit and the slots of in.f reserved for them, after a beat (R149, R161). -/
theorem requests_playBeat (s : State) {p : TeId} (e : TE) (f : Comp) (sh : Shape) (region : Option Nat) (b : Nat) (x : Beat)
    (hc : p.2.1 < 20) :
    vget ((s.playBeat p e f sh region b x).ctx p.1).colReqs p.2.1 [] =
        vget (s.ctx p.1).colReqs p.2.1 [] ++ x.column.toList.map (columnRequest p region (s.teAt p).image) ∧
      ((s.playBeat p e f sh region b x).teAt p).reservedF = (s.teAt p).reservedF + x.column.toList.length := by
  have hq := TrafficFree.colReqs p.1
  have hf := TrafficFree.teAt TE.reservedF (fun _ => rfl) p
  have hi := TrafficFree.teAt TE.image (fun _ => rfl) p
  have hw {α : Type} (h : TE → α) (u : State) (a : Nat) (v : W32) : h ((u.writeW p a v).teAt p) = h (u.teAt p) :=
    congrArg h ((WordsOnly.writeW u p a v).teAt p)
  have hwq (u : State) (a : Nat) (v : W32) : ((u.writeW p a v).ctx p.1).colReqs = (u.ctx p.1).colReqs :=
    (WordsOnly.writeW u p a v).tileKeeps (·.ctx.colReqs) (fun _ => rfl) p.1
  have eq := hq.gather_sends s p e f region b x (.inr hwq)
  have ef := hf.gather_sends s p e f region b x (.inr (hw TE.reservedF))
  have ei := hi.gather_sends s p e f region b x (.inr (hw TE.image))
  rw [hq.playBeat_asks, hf.playBeat_asks]
  cases x.column with
  | none => exact ⟨by rw [State.asks, eq]; exact (List.append_nil _).symm, ef⟩
  | some q =>
    refine ⟨(colReqs_request _ region q hc).trans ?_, ?_⟩
    · rw [eq, ei]
      rfl
    · exact (congrArg TE.reservedF (teAt_request_same _ p region q)).trans (congrArg (· + 1) ef)

/-! ## The requests of a firing -/

/-- What a firing has asked after `b` of its beats, if each asks what `c` says (R161). -/
def askedAfter (c : Nat → Option (BitVec 3 × W32 × BitVec 2)) (b : Nat) : List (BitVec 3 × W32 × BitVec 2) :=
  (List.range b).filterMap c

theorem askedAfter_succ (c : Nat → Option (BitVec 3 × W32 × BitVec 2)) (b : Nat) :
    askedAfter c (b + 1) = askedAfter c b ++ (c b).toList := by
  unfold askedAfter
  rw [List.range_succ, List.filterMap_append]
  cases h : c b <;> simp [h]

/-- The requests of the first `b` beats stand at the column unit, a slot of in.f reserved for each (R149, R161). -/
structure Requested (s : State) (p : TeId) (l : List (BitVec 3 × W32 × BitVec 2)) (u : State) : Prop where
  image : (u.teAt p).image = (s.teAt p).image
  reqs : vget (u.ctx p.1).colReqs p.2.1 [] =
    vget (s.ctx p.1).colReqs p.2.1 [] ++ l.map (columnRequest p (s.instanceOf p) (s.teAt p).image)
  reserved : (u.teAt p).reservedF = (s.teAt p).reservedF + l.length

theorem Requested.playBeat {s u : State} {p : TeId} {l : List (BitVec 3 × W32 × BitVec 2)} (h : Requested s p l u)
    (hc : p.2.1 < 20) (e : TE) (f : Comp) (sh : Shape) (b : Nat) (x : Beat) :
    Requested s p (l ++ x.column.toList) (u.playBeat p e f sh (s.instanceOf p) b x) := by
  obtain ⟨hr, hf⟩ := requests_playBeat u e f sh (s.instanceOf p) b x hc
  refine ⟨(teAt_playBeat TE.image (fun _ => rfl) (fun _ _ => rfl) u p e f sh _ b x p).trans h.image, ?_, ?_⟩
  · rw [hr, h.reqs, h.image, List.map_append, List.append_assoc]
  · rw [hf, h.reserved, List.length_append, Nat.add_assoc]

/-- A firing that asks the column unit writes no W word, so each of its beats reads what the state before the firing gives
it, and its request joins those of the beats before (R145, R161). -/
theorem requested_after_beats {i : Instr} {t : Trig} {f : Comp} {k : Form} {w : Bool → TE → Work}
    (hi : ComputeSlot i t f k w) (s : State) (sh : Shape) (hc : s.focus.col < 20) :
    Requested s s.focusTe (askedAfter (fun b => (beatOf s f sh (workOf w s) (beatsOf t) b).column) (beatsOf t))
      ((s.counted s.focusTe (beatsOf t)).beatsFrom s.focusTe (s.teAt s.focusTe) f sh (workOf w s) (s.instanceOf s.focusTe)
        (beatsOf t) 0 {}).1 := by
  generalize hn : beatsOf t = n
  have hwk : (∀ read tag last, ((workOf w s).beat read tag last).column = none) ∨
      ∀ read tag last, ((workOf w s).beat read tag last).sent = [] := column_or_sent hi _ _
  generalize workOf w s = wk at hwk
  refine And.right (beatsFrom_induct (I := fun b u =>
    ((∀ read tag last, (wk.beat read tag last).column = none) ∨ ∀ a, u.readW s.focusTe a = s.readW s.focusTe a) ∧
      Requested s s.focusTe (askedAfter (fun b => (beatOf s f sh wk n b).column) b) u)
    (fun b u _ hu => ?_) n 0 _ {} (Nat.zero_add n) ⟨.inr fun _ => rfl, ?_⟩)
  · obtain ⟨hW, hR⟩ := hu
    have hb : (wk.beat (u.source s.focusTe (s.teAt s.focusTe) f sh.deq b) (sourceTag (s.teAt s.focusTe) sh.deq b)
        (b + 1 == n)).column = (beatOf s f sh wk n b).column := by
      rcases hW with hW | hW
      · exact (hW _ _ _).trans (hW _ _ _).symm
      · rw [funext (source_of_sameW hW (s.teAt s.focusTe) f sh.deq b)]
        rfl
    refine ⟨?_, by rw [askedAfter_succ, ← hb]; exact hR.playBeat hc _ _ _ _ _⟩
    rcases hwk with hno | hno
    · exact .inl hno
    · refine hW.imp id fun hW a => (readW_playBeat u _ _ f sh _ b _ (fun y hy => ?_) _ a).trans (hW a)
      rw [hno] at hy
      cases hy
  · exact ⟨congrArg TE.image (teAt_counted s _ n _), (List.append_nil _).symm, congrArg TE.reservedF (teAt_counted s _ n _)⟩

/-- Settles O31: the beats of the firing leave their requests, and its end changes neither them nor the slots reserved. -/
theorem elementsRequestTheColumnUnit : Obligations.ElementsRequestTheColumnUnit := by
  unfold Obligations.ElementsRequestTheColumnUnit
  intro i t f k w s sh hi hf p n wk _ asked
  obtain ⟨h, hh, he⟩ := fireAll_eq s p t f sh wk
  have hR := requested_after_beats hi s sh hf.2.1
  refine ⟨_, (exec_computeSlot hi s).trans ((fireCompute_of_fires _ hf).trans (congrArg _ he)), ?_, ?_⟩
  · rw [ctx_modTeAt_keeps (fun c => vget c.colReqs p.2.1 []) (fun _ _ => rfl)]
    exact hR.reqs
  · rw [teAt_modTeAt_same]
    exact (congrArg TE.reservedF (hh _) :).trans hR.reserved

end Sys2Proof.Machine
end

section
/-! SUPPORT. The tokens of a firing at the queues that its outputs lead to (R142, R171, R173, R175). -/

namespace Sys2Proof.Machine

open Sys2Proof.Claims

/-! ## Where outputs lead -/

/-- Neither a rectangle nor a router word differs. -/
structure SameReach (s u : State) : Prop where
  groups : u.groups = s.groups
  routers : ∀ q, (u.teAt q).router = (s.teAt q).router

/-- Outputs lead where they led (R175). -/
theorem finalOf_congr {s u : State} (h : SameReach s u) : ∀ (n : Nat) (p : TeId) (d seams : Nat),
    u.finalOf n p d seams = s.finalOf n p d seams
  | 0, _, _, _ => rfl
  | n + 1, p, d, seams => by
    have hn : u.neighbour p d = s.neighbour p d := by
      unfold State.neighbour State.rectOfTe
      rw [h.groups]
    have hr (q : TeId) (k : Nat) : (u.teAt q).route k = (s.teAt q).route k := by
      unfold TE.route
      rw [h.routers]
    unfold State.finalOf
    simp only [hn, hr, finalOf_congr h n]

/-- An output leads to a place of a fabric (R272). -/
theorem finalOf_row {s : State} : ∀ {n : Nat} {p : TeId} {d seams : Nat} {q : TeId} {ch m : Nat},
    s.finalOf n p d seams = some (q, ch, m) → q.2.2 < 10
  | 0, _, _, _, _, _, _, h => by cases h
  | n + 1, p, d, seams, q, ch, m, h => by
    unfold State.finalOf at h
    split at h
    · cases h
    · next x hx =>
      dsimp only at h
      split at h
      · cases h
        unfold State.neighbour at hx
        split at hx
        · cases hx
        · obtain ⟨y, -, rfl⟩ := Option.map_eq_some_iff.mp hx
          exact Nat.mod_lt _ (by decide)
      · split at h
        · exact finalOf_row h
        · cases h

/-! ## The tokens for one queue -/

/-- Whether what a beat writes goes to an input queue of a TE. -/
def State.sendsTo (s : State) (p q : TeId) (ch : Nat) (x : Sent) : Bool :=
  decide (x.dest < 4) && (s.finalOf maxHops p x.dest 0).any fun y => y.1 == q && y.2.1 == ch

/-- The token of what a beat writes (R171). -/
def Sent.token (region : Option Nat) (x : Sent) : Token :=
  { data := x.data, fmt := x.fmt, utag := x.utag, region := region }

theorem sendsTo_congr {s u : State} (h : SameReach s u) (p q : TeId) (ch : Nat) : u.sendsTo p q ch = s.sendsTo p q ch := by
  funext x
  unfold State.sendsTo
  rw [finalOf_congr h]

/-- An input queue has taken the tokens of a list, and keeps the slots that it kept. -/
structure Took (q : TeId) (ch : Nat) (l : List Token) (s u : State) : Prop where
  queue : (u.teAt q).queue ch = (s.teAt q).queue ch ++ l
  taken : (u.teAt q).taken = (s.teAt q).taken

namespace Took

variable {q : TeId} {ch : Nat} {l m : List Token} {s t u : State}

theorem trans (h : Took q ch l s t) (k : Took q ch m t u) : Took q ch (l ++ m) s u :=
  ⟨by rw [k.queue, h.queue, List.append_assoc], k.taken.trans h.taken⟩

theorem of_sansCredit (h : (u.teAt q).sansCredit = (s.teAt q).sansCredit) : Took q ch [] s u :=
  ⟨(queue_of_sansCredit h ch).trans (List.append_nil _).symm, (congrArg TE.taken h :)⟩

theorem of_eq (h : u.teAt q = s.teAt q) : Took q ch [] s u := of_sansCredit (congrArg TE.sansCredit h)

theorem refl (s : State) : Took q ch [] s s := of_eq rfl

/-- The slots that a queue has in use grow by the tokens it takes. -/
theorem usedSlots (h : Took q ch l s u) : (u.teAt q).usedSlots ch = (s.teAt q).usedSlots ch + l.length := by
  unfold TE.usedSlots TE.keptSlots
  rw [h.queue, h.taken, List.length_append]
  omega

end Took

/-- A push enters the queue that its output leads to, where it finds a slot, and no other queue (R171, R191). -/
theorem took_push {s : State} {p q : TeId} {ch : Nat} (d : Nat) (x : Token) (hq : OtherTe p q) (hrow : q.2.2 < 10) (hch : ch < 6)
    (hroom : ∀ seams, s.finalOf maxHops p d 0 = some (q, ch, seams) → (s.teAt q).usedSlots ch < depthOf ch + 2 * seams) :
    Took q ch (if (s.finalOf maxHops p d 0).any fun y => y.1 == q && y.2.1 == ch then [x] else []) s (s.push p d x) := by
  have h1 : (s.modTeAt p fun e => e.modCredit d (· - 1)).teAt q = s.teAt q := teAt_modTeAt_other s _ hq
  unfold State.push
  cases h : s.finalOf maxHops p d 0 with
  | none => exact .refl s
  | some y =>
    obtain ⟨q', ch', seams⟩ := y
    dsimp only [Option.any]
    by_cases hqq : q' = q
    · subst hqq
      rw [h1]
      by_cases hcc : ch' = ch
      · subst hcc
        rw [if_pos (hroom seams h), if_pos (by simp)]
        exact ⟨by rw [teAt_enqueue_same, h1]; exact queue_setQueue_same _ _ hch, by rw [teAt_enqueue_same, h1]; rfl⟩
      · rw [if_neg (c := ((q' == q' && ch' == ch) = true)) (by simp [hcc])]
        split
        · refine ⟨?_, by rw [teAt_enqueue_same, h1]; rfl⟩
          rw [teAt_enqueue_same, h1, List.append_nil]
          exact queue_setQueue_ne _ _ (Ne.symm hcc)
        · refine ⟨?_, by rw [teAt_correctedEvent, teAt_modTeAt_same, h1]⟩
          rw [teAt_correctedEvent, teAt_modTeAt_same, h1, List.append_nil]
          rfl
    · have ho : OtherTe q' q := otherTe_of_ne (finalOf_row h) hrow (Ne.symm hqq)
      rw [if_neg (c := ((q' == q && ch' == ch) = true)) (by simp [hqq])]
      refine .of_eq ?_
      split
      · rw [teAt_enqueue_other _ _ _ ho, h1]
      · rw [teAt_correctedEvent, teAt_modTeAt_other _ _ ho, h1]

/-- Of what a beat writes, a queue takes what goes to it (R142). -/
theorem took_send1 {s : State} {p q : TeId} {ch : Nat} (e : TE) (f : Comp) (b : Nat) (region : Option Nat) (x : Sent)
    (hq : OtherTe p q) (hrow : q.2.2 < 10) (hch : ch < 6)
    (hroom : s.sendsTo p q ch x = true → ∀ seams, s.finalOf maxHops p x.dest 0 = some (q, ch, seams) →
      (s.teAt q).usedSlots ch < depthOf ch + 2 * seams) :
    Took q ch (if s.sendsTo p q ch x then [x.token region] else []) s (s.send1 p e f b region x) := by
  unfold State.send1
  by_cases hd : x.dest < 4
  · have hs : s.sendsTo p q ch x = (s.finalOf maxHops p x.dest 0).any fun y => y.1 == q && y.2.1 == ch := by
      unfold State.sendsTo
      rw [decide_eq_true hd, Bool.true_and]
    rw [hs] at hroom ⊢
    rw [if_pos hd]
    exact took_push x.dest (x.token region) hq hrow hch fun seams h => hroom (by rw [h]; simp) seams h
  · have hs : s.sendsTo p q ch x = false := by
      unfold State.sendsTo
      rw [decide_eq_false hd, Bool.false_and]
    rw [hs, if_neg hd]
    refine .of_eq ?_
    split
    · exact (WordsOnly.writeW s p _ _).teAt q
    · rfl

theorem sameReach_send1 (s : State) (p : TeId) (e : TE) (f : Comp) (b : Nat) (region : Option Nat) (x : Sent) :
    SameReach s (s.send1 p e f b region x) :=
  ⟨TrafficFree.groups.sends p e f b region [x] s (.inr fun _ _ _ => rfl),
    fun q => (TrafficFree.teAt TE.router (fun _ => rfl) q).sends p e f b region [x] s
      (.inr fun u a v => congrArg TE.router ((WordsOnly.writeW u p a v).teAt q))⟩

/-- The queue that the tokens of a list lead to has room for them all. -/
def State.queueTakes (s : State) (p q : TeId) (ch n : Nat) : Prop :=
  ∀ d seams, d < 4 → s.finalOf maxHops p d 0 = some (q, ch, seams) → (s.teAt q).usedSlots ch + n ≤ depthOf ch + 2 * seams

/-- Of all that a beat writes, a queue with room takes what goes to it, in its order (R142). -/
theorem took_sends {p q : TeId} {ch : Nat} (e : TE) (f : Comp) (b : Nat) (region : Option Nat) (hq : OtherTe p q)
    (hrow : q.2.2 < 10) (hch : ch < 6) : ∀ (l : List Sent) (s : State),
    s.queueTakes p q ch (l.filter (s.sendsTo p q ch)).length →
      Took q ch ((l.filter (s.sendsTo p q ch)).map (Sent.token region)) s (s.sends p e f b region l)
  | [], s, _ => .refl s
  | x :: l, s, hroom => by
    have hr := sameReach_send1 s p e f b region x
    have hs := sendsTo_congr hr p q ch
    have h1 := took_send1 e f b region x hq hrow hch fun hx seams h => by
      have := hroom x.dest seams (by unfold State.sendsTo at hx; simp at hx; exact hx.1) h
      rw [List.filter_cons_of_pos hx, List.length_cons] at this
      omega
    have h2 := took_sends e f b region hq hrow hch l (s.send1 p e f b region x) fun d seams hd h => by
      rw [finalOf_congr hr] at h
      have := hroom d seams hd h
      rw [hs, h1.usedSlots]
      cases hx : s.sendsTo p q ch x <;> simp [hx] at this ⊢ <;> omega
    rw [hs] at h2
    have h : Took q ch _ s (s.sends p e f b region (x :: l)) := h1.trans h2
    cases hx : s.sendsTo p q ch x <;> simpa [hx] using h

/-! ## A beat and the queues of another TE -/

theorem sameReach_playBeat (s : State) (p : TeId) (e : TE) (f : Comp) (sh : Shape) (region : Option Nat) (b : Nat) (x : Beat) :
    SameReach s (s.playBeat p e f sh region b x) :=
  ⟨TrafficFree.groups.playBeat (fun _ _ => rfl) s e f sh b x (.inr fun _ _ _ => rfl),
    teAt_playBeat TE.router (fun _ => rfl) (fun _ _ => rfl) s p e f sh region b x⟩

theorem SameReach.trans {s t u : State} (h : SameReach s t) (k : SameReach t u) : SameReach s u :=
  ⟨k.groups.trans h.groups, fun q => (k.routers q).trans (h.routers q)⟩

theorem took_asks (s : State) {p q : TeId} {ch : Nat} (region : Option Nat) (c : Option (BitVec 3 × W32 × BitVec 2))
    (hq : OtherTe p q) : Took q ch [] s (s.asks p region c) := by
  unfold State.asks
  split
  · exact .of_eq (teAt_request_other s region _ hq)
  · exact .refl s

theorem took_signals (s : State) {p q : TeId} {ch : Nat} (region : Option Nat) (c : Option (BitVec 4))
    (hq : OtherTe p q) : Took q ch [] s (s.signals p region c) := by
  unfold State.signals
  split
  · unfold State.pushControl
    dsimp only
    split
    · exact .of_eq ((teAt_modImage _ _ _ q).trans (teAt_modTeAt_other s _ hq))
    · exact .of_eq ((teAt_modCtx _ _ _ rfl q).trans (teAt_modTeAt_other s _ hq))
  · exact .refl s

/-- Of a beat another TE's queue takes what the beat writes to it (R142, R145). -/
theorem took_playBeat {s : State} {p q : TeId} {ch : Nat} (e : TE) (f : Comp) (sh : Shape) (region : Option Nat) (b : Nat)
    (x : Beat) (hq : OtherTe p q) (hrow : q.2.2 < 10) (hch : ch < 6)
    (hroom : s.queueTakes p q ch (x.sent.filter (s.sendsTo p q ch)).length) :
    Took q ch ((x.sent.filter (s.sendsTo p q ch)).map (Sent.token region)) s (s.playBeat p e f sh region b x) := by
  have hg : (s.gather p x.flags).teAt q = s.teAt q := teAt_modTeAt_other s _ hq
  have hr : SameReach s (s.gather p x.flags) :=
    ⟨rfl, fun k => teAt_modTeAt_keeps TE.router s p k _ fun _ => rfl⟩
  have h1 := took_sends e f b region hq hrow hch x.sent (s.gather p x.flags) fun d seams hd h => by
    rw [hg, sendsTo_congr hr]
    exact hroom d seams hd (by rwa [finalOf_congr hr] at h)
  rw [sendsTo_congr hr] at h1
  have h : Took q ch _ s (s.playBeat p e f sh region b x) := ((((Took.of_eq hg).trans h1).trans (took_asks _ region x.column hq)).trans
    (took_signals _ region x.control hq)).trans
    (.of_sansCredit ((DequeuesOnly.dequeues p sh.deq _).others q hq))
  simpa using h

/-! ## The tokens of a firing -/

/-- What the beats of a firing write to one queue, as the state before the firing gives it (R142, R145). -/
def sentTo (s : State) (f : Comp) (sh : Shape) (wk : Work) (n : Nat) (q : TeId) (ch b : Nat) : List Sent :=
  (beatOf s f sh wk n b).sent.filter (s.sendsTo s.focusTe q ch)

/-- The tokens of a firing for one queue, by its beats. -/
theorem filter_sentBy (s : State) (f : Comp) (sh : Shape) (wk : Work) (n : Nat) (q : TeId) (ch : Nat) (region : Option Nat) :
    ((sentBy s f sh wk n).filter fun x => s.sendsTo s.focusTe q ch x.2).map (fun x => x.2.token region) =
      ((List.range n).flatMap (sentTo s f sh wk n q ch)).map (Sent.token region) := by
  unfold sentBy sentTo
  rw [List.filter_flatMap, List.map_flatMap, List.map_flatMap]
  refine congrArg (List.flatMap · _) (funext fun b => ?_)
  rw [List.filter_map, List.map_map]
  rfl

/-- The beat that a firing plays in a state. -/
def State.beatIn (u s : State) (f : Comp) (sh : Shape) (wk : Work) (n b : Nat) : Beat :=
  wk.beat (u.source s.focusTe (s.teAt s.focusTe) f sh.deq b) (sourceTag (s.teAt s.focusTe) sh.deq b) (b + 1 == n)

/-- Where each beat of a firing writes to a queue what the state before the firing gives it, the queue takes all of that, in
its order (R142, R145). -/
theorem took_beats {s : State} {q : TeId} {ch n : Nat} {f : Comp} {sh : Shape} {wk : Work} {region : Option Nat}
    (K : Nat → State → Prop) (hq : OtherTe s.focusTe q) (hrow : q.2.2 < 10) (hch : ch < 6)
    (hroom : s.queueTakes s.focusTe q ch ((List.range n).flatMap (sentTo s f sh wk n q ch)).length)
    (h0 : K 0 (s.counted s.focusTe n))
    (hsent : ∀ b u, b < n → K b u →
      (u.beatIn s f sh wk n b).sent.filter (s.sendsTo s.focusTe q ch) = sentTo s f sh wk n q ch b)
    (hK : ∀ b u, b < n → K b u →
      K (b + 1) (u.playBeat s.focusTe (s.teAt s.focusTe) f sh region b (u.beatIn s f sh wk n b))) :
    Took q ch (((List.range n).flatMap (sentTo s f sh wk n q ch)).map (Sent.token region)) s
      ((s.counted s.focusTe n).beatsFrom s.focusTe (s.teAt s.focusTe) f sh wk region n 0 {}).1 := by
  have hI := beatsFrom_induct (p := s.focusTe) (e := s.teAt s.focusTe) (f := f) (sh := sh) (w := wk) (region := region) (N := n)
    (I := fun b u => K b u ∧ SameReach s u ∧
      Took q ch (((List.range b).flatMap (sentTo s f sh wk n q ch)).map (Sent.token region)) s u)
    (fun b u hb hu => by
      obtain ⟨hk, hr, ht⟩ := hu
      have hs := hsent b u hb hk
      rw [← sendsTo_congr hr] at hs
      have hsucc : (List.range (b + 1)).flatMap (sentTo s f sh wk n q ch) =
          (List.range b).flatMap (sentTo s f sh wk n q ch) ++ sentTo s f sh wk n q ch b := by
        rw [List.range_succ, List.flatMap_append, List.flatMap_singleton]
      have hle : ((List.range (b + 1)).flatMap (sentTo s f sh wk n q ch)).length ≤
          ((List.range n).flatMap (sentTo s f sh wk n q ch)).length :=
        ((List.range_sublist.mpr hb).flatMap _).length_le
      refine ⟨hK b u hb hk, hr.trans (sameReach_playBeat u _ _ f sh region b _), ?_⟩
      rw [hsucc, List.map_append, ← hs]
      refine ht.trans (took_playBeat _ f sh region b _ hq hrow hch fun d seams hd h => ?_)
      rw [finalOf_congr hr] at h
      have := hroom d seams hd h
      rw [hsucc, List.length_append] at hle
      rw [ht.usedSlots, List.length_map]
      refine le_trans ?_ this
      rw [hs]
      omega)
    n 0 (s.counted s.focusTe n) {} (Nat.zero_add n)
    ⟨h0, ⟨rfl, fun k => congrArg TE.router (teAt_counted s _ n k)⟩, .of_eq (teAt_counted s _ n q)⟩
  exact hI.2.2

/-! ## Firings whose beats write what they are given -/

/-- Whether no beat but the last writes W, or each reads outside W alone: what `steady` says, of a MERGE without what it
says of the sources that its first beat does not select (R141, R181). -/
def settled (k : Form) (s : State) (f : Comp) (sh : Shape) (wk : Work) (n : Nat) : Prop :=
  n = 1 ∨ (k ≠ .merge ∧ ∀ c ∈ sh.srcs, c < 16 ∨ 24 < c) ∨ ∀ b < n, ∀ x ∈ (beatOf s f sh wk n b).sent, x.dest < 16

/-- Whether the reads of a beat find what the state before the firing held. -/
def readsStand (k : Form) (s : State) (sh : Shape) (u : State) : Prop :=
  (k ≠ .merge ∧ ∀ c ∈ sh.srcs, c < 16 ∨ 24 < c) ∨ ∀ a, u.readW s.focusTe a = s.readW s.focusTe a

theorem formShape_of_fires {k : Form} {t : Trig} {f : Comp} {s : State} {sh : Shape} (h : fires k t f s sh) :
    formShape k t f (s.teAt s.focusTe) (s.source s.focusTe (s.teAt s.focusTe) f [] 0) = some sh := by
  obtain ⟨-, -, -, hs⟩ := h
  unfold firingShape at hs
  cases hsh : formShape k t f (s.teAt s.focusTe) (s.source s.focusTe (s.teAt s.focusTe) f [] 0) with
  | none => simp only [hsh] at hs; cases hs
  | some x =>
    simp only [hsh] at hs
    split at hs
    · exact hs
    · cases hs

theorem beatIn_of_readsStand {i : Instr} {t : Trig} {f : Comp} {k : Form} {w : Bool → TE → Work} {s u : State} {sh : Shape}
    (hi : ComputeSlot i t f k w) (hf : fires k t f s sh) (h : readsStand k s sh u) (n b : Nat) :
    u.beatIn s f sh (workOf w s) n b = beatOf s f sh (workOf w s) n b := by
  rcases h with ⟨hk, hc⟩ | hW
  · exact beat_congr_of_srcs hi hk (formShape_of_fires hf) (fun c hs => source_outside_W s u _ _ f _ b (hc c hs)) _ _ _
  · unfold State.beatIn
    rw [funext (source_of_sameW hW (s.teAt s.focusTe) f sh.deq b)]
    rfl

/-- A settled firing gives a queue with room the tokens that the state before the firing says (R142, R145). -/
theorem took_of_settled {i : Instr} {t : Trig} {f : Comp} {k : Form} {w : Bool → TE → Work} {s : State} {sh : Shape}
    (hi : ComputeSlot i t f k w) (hf : fires k t f s sh) {q : TeId} {ch : Nat} {region : Option Nat}
    (hq : OtherTe s.focusTe q) (hrow : q.2.2 < 10) (hch : ch < 6)
    (hroom : s.queueTakes s.focusTe q ch ((List.range (beatsOf t)).flatMap (sentTo s f sh (workOf w s) (beatsOf t) q ch)).length)
    (hst : settled k s f sh (workOf w s) (beatsOf t)) :
    Took q ch (((List.range (beatsOf t)).flatMap (sentTo s f sh (workOf w s) (beatsOf t) q ch)).map (Sent.token region)) s
      ((s.counted s.focusTe (beatsOf t)).beatsFrom s.focusTe (s.teAt s.focusTe) f sh (workOf w s) region (beatsOf t) 0 {}).1 := by
  refine took_beats (fun b u => b < beatsOf t → readsStand k s sh u) hq hrow hch hroom (fun _ => .inr fun _ => rfl)
    (fun b u hb hK => ?_) fun b u hb hK hb1 => ?_
  · rw [beatIn_of_readsStand hi hf (hK hb)]
    rfl
  · rcases hst with h1 | hr | hW
    · omega
    · exact .inl hr
    · refine (hK hb).imp id fun hs a => (readW_playBeat u _ _ f sh region b _ ?_ _ a).trans (hs a)
      rw [beatIn_of_readsStand hi hf (hK hb)]
      exact hW b hb

/-- A MERGE into W gives no queue a token (R181). -/
theorem took_of_merge_into_W {i : Instr} {t : Trig} {f : Comp} {w : Bool → TE → Work} {s : State} {sh : Shape}
    (hi : ComputeSlot i t f .merge w) {q : TeId} {ch : Nat} {region : Option Nat}
    (hq : OtherTe s.focusTe q) (hrow : q.2.2 < 10) (hch : ch < 6) (hd : 4 ≤ f.dst.toNat)
    (hroom : s.queueTakes s.focusTe q ch ((List.range (beatsOf t)).flatMap (sentTo s f sh (workOf w s) (beatsOf t) q ch)).length) :
    Took q ch (((List.range (beatsOf t)).flatMap (sentTo s f sh (workOf w s) (beatsOf t) q ch)).map (Sent.token region)) s
      ((s.counted s.focusTe (beatsOf t)).beatsFrom s.focusTe (s.teAt s.focusTe) f sh (workOf w s) region (beatsOf t) 0 {}).1 := by
  have hnil (read : Nat → W32) (tag : Nat → BitVec 2) (last : Bool) :
      (((workOf w s).beat read tag last).sent.filter (s.sendsTo s.focusTe q ch)) = [] := by
    rw [List.filter_eq_nil_iff]
    intro x hx
    have hdest : x.dest = f.dst.toNat := merge_dest hi _ _ read tag last x hx
    unfold State.sendsTo
    rw [hdest, decide_eq_false (by omega), Bool.false_and]
    exact Bool.false_ne_true
  exact took_beats (fun _ _ => True) hq hrow hch hroom trivial (fun b u _ _ => (hnil _ _ _).trans (hnil _ _ _).symm)
    fun _ _ _ _ => trivial

/-- A steady firing is settled, but for a MERGE whose destination is in W or nowhere. -/
theorem settled_of_steady {i : Instr} {t : Trig} {f : Comp} {k : Form} {w : Bool → TE → Work} {s : State} {sh : Shape} {n : Nat}
    (hi : ComputeSlot i t f k w) (h : steady sh (sentBy s f sh (workOf w s) n) n) (hd : k = .merge → f.dst.toNat < 16) :
    settled k s f sh (workOf w s) n := by
  by_cases hk : k = .merge
  · subst hk
    exact .inr (.inr fun b _ x hx => (merge_dest hi _ _ _ _ _ x hx).trans_lt (hd rfl))
  · refine h.imp id (Or.imp (⟨hk, ·⟩) fun hl b hb x hx => ?_)
    exact hl (b, x) (List.mem_flatMap.mpr ⟨b, List.mem_range.mpr hb, List.mem_map_of_mem hx⟩)

/-- A steady firing gives a queue with room the tokens that the state before the firing says: of a MERGE, whose beats may read
W words that it has written, either those are what it was given, or it writes to no queue (R142, R145, R181). -/
theorem took_of_steady {i : Instr} {t : Trig} {f : Comp} {k : Form} {w : Bool → TE → Work} {s : State} {sh : Shape}
    (hi : ComputeSlot i t f k w) (hf : fires k t f s sh) {q : TeId} {ch : Nat} {region : Option Nat}
    (hst : steady sh (sentBy s f sh (workOf w s) (beatsOf t)) (beatsOf t))
    (hq : OtherTe s.focusTe q) (hrow : q.2.2 < 10) (hch : ch < 6)
    (hroom : s.queueTakes s.focusTe q ch ((List.range (beatsOf t)).flatMap (sentTo s f sh (workOf w s) (beatsOf t) q ch)).length) :
    Took q ch (((List.range (beatsOf t)).flatMap (sentTo s f sh (workOf w s) (beatsOf t) q ch)).map (Sent.token region)) s
      ((s.counted s.focusTe (beatsOf t)).beatsFrom s.focusTe (s.teAt s.focusTe) f sh (workOf w s) region (beatsOf t) 0 {}).1 := by
  by_cases hd : k = .merge → f.dst.toNat < 16
  · exact took_of_settled hi hf hq hrow hch hroom (settled_of_steady hi hst hd)
  · obtain ⟨rfl, hd⟩ := Classical.not_imp.mp hd
    exact took_of_merge_into_W hi hq hrow hch (by omega) hroom

/-- Settles O27: the beats of a steady firing write what the state before the firing gives them, so each queue with room takes
its tokens of each beat, in their order. -/
theorem elementsSendTheirTokens : Obligations.ElementsSendTheirTokens := by
  unfold Obligations.ElementsSendTheirTokens
  intro i t f k w s sh hi hf p l hst
  obtain ⟨h, -, he⟩ := fireAll_eq s p t f sh (workOf w s)
  refine ⟨_, (exec_computeSlot hi s).trans ((fireCompute_of_fires _ hf).trans (congrArg _ he)), fun q ch hne hrow hch => ?_⟩
  intro out hroom
  have hq : OtherTe p q := otherTe_of_ne hf.2.2.1 hrow hne
  have hmap : out.map (fun x => x.2.token (s.instanceOf p)) =
      ((List.range (beatsOf t)).flatMap (sentTo s f sh (workOf w s) (beatsOf t) q ch)).map (Sent.token (s.instanceOf p)) :=
    filter_sentBy s f sh (workOf w s) (beatsOf t) q ch (s.instanceOf p)
  have hlen : out.length = ((List.range (beatsOf t)).flatMap (sentTo s f sh (workOf w s) (beatsOf t) q ch)).length := by
    simpa only [List.length_map] using congrArg List.length hmap
  have htakes : s.queueTakes p q ch ((List.range (beatsOf t)).flatMap (sentTo s f sh (workOf w s) (beatsOf t) q ch)).length :=
    fun d seams hd h => hlen ▸ hroom d seams hd h
  have htook := took_of_steady hi hf (region := s.instanceOf p) hst hq hrow (by omega) htakes
  rw [teAt_modTeAt_other _ _ hq, htook.queue, ← hmap]
  rfl

end Sys2Proof.Machine
end

section
/-! SUPPORT. The stop of an image by a fabric trap of one of its slots (R151, R152, R165, R231): what a discard leaves of the
image, its TEs and the threads, and what the thread receives. -/

namespace Sys2Proof.Machine

open Sys2Proof.Claims

/-! ## The list of images through the operations on a fabric -/

theorem log_images (s : State) (e : Event) : (s.log e).images = s.images := by
  unfold State.log
  dsimp only
  split <;> rfl

theorem teAt_log (s : State) (e : Event) (p : TeId) : (s.log e).teAt p = s.teAt p :=
  teAt_congr (fun n => by unfold State.ctx; rw [tile_congr (log_tiles s e)]) p

/-- Steps over a list leave the images that each step leaves. -/
theorem foldl_images {α : Type} {f : State → α → State} (hf : ∀ a x, (f a x).images = a.images) :
    ∀ (l : List α) (s : State), (l.foldl f s).images = s.images
  | [], _ => rfl
  | x :: l, s => (foldl_images hf l (f s x)).trans (hf s x)

theorem returnSlot_images (s : State) (p : TeId) (ch : Nat) : (s.returnSlot p ch).images = s.images := by
  unfold State.returnSlot
  split
  · rfl
  · split <;> rfl

theorem returnSlots_images (p : TeId) (ch : Nat) : ∀ (n : Nat) (s : State), (s.returnSlots p ch n).images = s.images
  | 0, _ => rfl
  | n + 1, s => (returnSlots_images p ch n (s.returnSlot p ch)).trans (returnSlot_images s p ch)

theorem dropTokens_images (s : State) (p : TeId) (img : Nat) : (s.dropTokens p img).images = s.images :=
  foldl_images (fun a ch => returnSlots_images p ch _ (a.modTeAt p _)) _ s

theorem restoreTe_images (s : State) (m : Image) (p : TeId) : (s.restoreTe m p).images = s.images := by
  unfold State.restoreTe
  dsimp only
  rw [modCtx_images, modTeAt_images]
  exact dropTokens_images s p m.id

theorem dropControl_images (s : State) (m : Image) : (s.dropControl m).images = s.images := by
  unfold State.dropControl
  exact foldl_images (fun a x => modTe_images a _ _ _ _) _ s

theorem image?_congr {s u : State} (h : u.images = s.images) (i : Nat) : u.image? i = s.image? i := by
  unfold State.image?
  rw [h]

theorem image?_modImage_some {s : State} {i : Nat} {n : Image} (h : s.image? i = some n) (f : Image → Image)
    (hf : ∀ m, (f m).id = m.id) : (s.modImage i f).image? i = some (f n) := by
  rw [image?_modImage s i f hf, h]
  rfl

/-- The undoing of an instance drops what its image held for it (R170, R231). -/
theorem image?_undo {s : State} {m n : Image} (h : s.image? m.id = some n) :
    ∃ x, (s.undo m).image? m.id = some x ∧ x.snapshots = [] ∧ x.heldTokens = [] := by
  have h1 (v : State) : (v.dropElsewhere m).images = v.images := by
    unfold State.dropElsewhere
    exact foldl_images (fun a p => dropTokens_images a p m.id) _ v
  have h2 : (m.tes.foldl (fun a p => a.restoreTe m p) s).images = s.images :=
    foldl_images (fun a p => restoreTe_images a m p) m.tes s
  unfold State.undo
  refine ⟨_, image?_modImage_some (n := n) ?_ _ fun _ => rfl, rfl, rfl⟩
  refine (image?_congr ?_ m.id).trans h
  unfold State.modHomeOf
  rw [modHome_images]
  exact (dropControl_images _ m).trans ((h1 _).trans h2)

/-! ## Stops -/

/-- The image of `m` and its TEs have stopped, the image now `n`, and every thread stands. -/
structure StoppedAs (m : Image) (s : State) (n : Image) (u : State) : Prop where
  image : u.image? m.id = some n
  started : n.started = false
  tes : ∀ p ∈ m.tes, (u.teAt p).started = false
  threads : ∀ t k, u.thread t k = s.thread t k

/-- A change of the TEs of a list that each stops stops them all. -/
theorem started_foldl_modTeAt {f : TE → TE} (hf : ∀ e, (f e).started = false) : ∀ (l : List TeId) (s : State) (q : TeId),
    q ∈ l ∨ (s.teAt q).started = false → ((l.foldl (fun a p => a.modTeAt p f) s).teAt q).started = false
  | [], _, _, h => h.resolve_left List.not_mem_nil
  | p :: l, s, q, h => by
    refine started_foldl_modTeAt hf l (s.modTeAt p f) q ?_
    by_cases hl : q ∈ l
    · exact .inl hl
    · refine .inr ?_
      rcases teAt_modTeAt s p q f with ⟨ho, e⟩ | ⟨-, e⟩ <;> rw [e]
      · refine h.elim (fun hq => ?_) id
        obtain rfl : q = p := (List.mem_cons.mp hq).resolve_right hl
        exact absurd rfl (ho.elim id fun hk => absurd rfl hk)
      · exact hf _

/-- What stopping leaves of a TE, a stop of an image leaves of every TE (R88). -/
theorem teAt_stopTes_keeps {α : Type} (g : TE → α) (hg : ∀ e, g { e with started := false, holding := none } = g e) (s : State)
    (m : Image) (q : TeId) : g ((s.stopTes m).teAt q) = g (s.teAt q) := by
  have h (l : List TeId) (v : State) :
      g ((l.foldl (fun a p => a.modTeAt p fun e => { e with started := false, holding := none }) v).teAt q) = g (v.teAt q) := by
    induction l generalizing v with
    | nil => rfl
    | cons p l ih => exact (ih _).trans (teAt_modTeAt_keeps g v p q _ hg)
  exact h m.tes s

theorem FabricOnly.stopTes (s : State) (m : Image) : FabricOnly s (s.stopTes m) :=
  (AgreeIn.foldl _ (fun a p => FabricOnly.modTeAt a p _) m.tes s).trans (AgreeIn.modImage _ _ _)

/-- A stop of an image stops it (R88). -/
theorem stoppedAs_stopTes {s : State} {m n : Image} (h : s.image? m.id = some n) :
    StoppedAs m s { n with started := false } (s.stopTes m) := by
  refine ⟨?_, rfl, fun p hp => started_foldl_modTeAt (fun _ => rfl) m.tes s p (.inl hp), (FabricOnly.stopTes s m).thread⟩
  unfold State.stopTes
  refine image?_modImage_some ((image?_congr ?_ m.id).trans h) _ fun _ => rfl
  exact foldl_images (fun a p => modTeAt_images a p _) m.tes s

namespace StoppedAs

variable {m n : Image} {s t u : State}

/-- What leaves the threads may come before a stop. -/
theorem after (h : StoppedAs m t n u) (ht : ∀ i k, t.thread i k = s.thread i k) : StoppedAs m s n u :=
  ⟨h.image, h.started, h.tes, fun i k => (h.threads i k).trans (ht i k)⟩

/-- What leaves the images and the TEs may come after a stop. -/
theorem before (h : StoppedAs m t n u) {v : State} (hi : v.images = u.images) (ht : ∀ p, v.teAt p = u.teAt p)
    (hth : ∀ i k, v.thread i k = u.thread i k) : StoppedAs m t n v :=
  ⟨(image?_congr hi m.id).trans h.image, h.started, fun p hp => by rw [ht]; exact h.tes p hp,
    fun i k => (hth i k).trans (h.threads i k)⟩

theorem log (h : StoppedAs m s n u) (e : Event) : StoppedAs m s n (u.log e) :=
  h.before (log_images u e) (teAt_log u e) (thread_congr (log_tiles u e))

theorem modImage (h : StoppedAs m s n u) (f : Image → Image) (hid : ∀ x, (f x).id = x.id) (hf : (f n).started = n.started) :
    StoppedAs m s (f n) (u.modImage m.id f) :=
  ⟨image?_modImage_some h.image f hid, hf.trans h.started, h.tes, h.threads⟩

theorem stopTes (h : StoppedAs m s n u) : StoppedAs m s { n with started := false } (u.stopTes m) :=
  (stoppedAs_stopTes h.image).after h.threads

theorem logTes (f : State → TeId → State) (hf : ∀ a p, ∃ e, f a p = a.log e) :
    ∀ (l : List TeId) (u : State), StoppedAs m s n u → StoppedAs m s n (l.foldl f u)
  | [], _, h => h
  | p :: l, u, h => by
    obtain ⟨e, he⟩ := hf u p
    exact logTes f hf l (f u p) (he ▸ h.log e)

end StoppedAs

/-! ## The discard of an instance that stops its image -/

/-- An image that has been undone and counted once (R231). -/
structure Undone (m n : Image) : Prop where
  state : n.state = .stopped
  reentry : n.reentry = m.reentry + 1#8
  snapshots : n.snapshots = []
  heldTokens : n.heldTokens = []

theorem stoppedAs_snapshotStop {m n : Image} {s u : State} (h : StoppedAs m s n u) (hn : Undone m n) :
    ∃ n', StoppedAs m s n' (u.snapshotStop m) ∧ Undone m n' := by
  unfold State.snapshotStop
  split
  · exact ⟨n, h, hn⟩
  · refine ⟨_, ((StoppedAs.logTes _ (fun _ _ => ⟨_, rfl⟩) m.snapPoison _ h.stopTes).modImage
      (fun x => { x with state := .stopped, snapPoison := [] }) (fun _ => rfl) rfl), ?_⟩
    exact ⟨rfl, hn.reentry, hn.snapshots, hn.heldTokens⟩

/-- A counted discard with a cause that stops undoes, counts and stops (R170, R231). -/
theorem stoppedAs_discard {s : State} {m : Image} (hm : s.image? m.id = some m) (hd : m.discards = true) (cause : Nat) :
    ∃ n, StoppedAs m s n (s.discardInstance m.id { cause := some cause, stops := true }) ∧ Undone m n := by
  obtain ⟨x, hx, hsnap, htok⟩ := image?_undo hm
  have hcount := image?_modImage_some hx
    (fun y => { y with reentry := m.reentry + 1#8, ordered := y.ordered || false, state := .stopped }) fun _ => rfl
  obtain ⟨n, h, hn⟩ := stoppedAs_snapshotStop ((stoppedAs_stopTes hcount).after (FabricOnly.undo s m).thread)
    ⟨rfl, rfl, hsnap, htok⟩
  unfold State.discardInstance
  simp only [hm, hd, Bool.not_true, Bool.false_eq_true, if_false, if_true, Bool.true_or]
  split
  · exact ⟨n, h.log _, hn⟩
  · exact ⟨n, h, hn⟩

/-- A cause that stops an image without an instance stops it, and leaves its TEs' registers and queues and memory (R232). -/
theorem stoppedAs_stopOnly {s : State} {m : Image} (hm : s.image? m.id = some m) (hd : m.discards = false)
    (hc : m.committing = false) (cause : Nat) :
    ∃ n, StoppedAs m s n (s.discardInstance m.id { cause := some cause, stops := true }) ∧
      FabricOnly s (s.discardInstance m.id { cause := some cause, stops := true }) ∧
      ∀ p, ((s.discardInstance m.id { cause := some cause, stops := true }).teAt p).snapshot = (s.teAt p).snapshot ∧
        ((s.discardInstance m.id { cause := some cause, stops := true }).teAt p).queues = (s.teAt p).queues := by
  have he : s.discardInstance m.id { cause := some cause, stops := true } = s.stopOnly m { cause := some cause, stops := true } := by
    unfold State.discardInstance
    simp only [hm, hd, Bool.not_false, if_true]
  rw [he]
  unfold State.stopOnly
  rw [if_neg (by simp [hc])]
  have keep (v : State) (p : TeId) : ((v.stopTes m).teAt p).snapshot = (v.teAt p).snapshot ∧
      ((v.stopTes m).teAt p).queues = (v.teAt p).queues :=
    ⟨teAt_stopTes_keeps TE.snapshot (fun _ => rfl) v m p, teAt_stopTes_keeps TE.queues (fun _ => rfl) v m p⟩
  split
  · exact ⟨_, (stoppedAs_stopTes (image?_modImage_some hm _ (by intro; rfl))).after fun _ _ => rfl,
      (AgreeIn.modImage s m.id _).trans (FabricOnly.stopTes _ m), fun p => keep _ p⟩
  · exact ⟨_, stoppedAs_stopTes hm, FabricOnly.stopTes s m, fun p => keep s p⟩

/-! ## The fabric trap of a slot -/

theorem fireSpecial_of_fires {k : Form} {t : Trig} {f : Comp} {s : State} {sh : Shape} (run : TeId → Shape → State → State)
    (h : fires k t f s sh) : fireSpecial k t f run s = .next (run s.focusTe sh s) := by
  obtain ⟨-, -, -, hs⟩ := h
  unfold firingShape at hs
  unfold fireSpecial
  cases hsh : formShape k t f (s.teAt s.focusTe) (s.source s.focusTe (s.teAt s.focusTe) f [] 0) with
  | none => simp only [hsh] at hs; cases hs
  | some x =>
    simp only [hsh] at hs ⊢
    split at hs
    · next hr =>
      cases hs
      rw [Bool.and_eq_true, Option.isNone_iff_eq_none] at hr
      rw [if_pos hr.1, hr.2]
    · cases hs

theorem exec_teTrap_of_fires {t : Trig} {f : Comp} {s : State} {sh : Shape} (h : fires .trapTok t f s sh) :
    exec (.teTrap t f) s = .next (s.fabricTrap s.focusTe s.focus.teSlot 0x15 f.imm12.toNat) :=
  (exec_teTrap t f s).trans (fireSpecial_of_fires _ h)

/-- A trap in a TE without an image, or of an image that defers it, does nothing (R232, R233). -/
theorem fabricTrap_of_deferred {s : State} {p : TeId} (h : ∀ m, s.imageOf p = some m → m.defers s.now = true)
    (slot cause detail : Nat) : s.fabricTrap p slot cause detail = s := by
  have hnone : (s.imageOf p).filter (fun m => !m.defers s.now) = none :=
    Option.filter_eq_none_iff.mpr fun m hm => by simp [h m hm]
  unfold State.fabricTrap
  rw [hnone]

/-- The place of a TE in the rectangle of its group (R152, R272). -/
def State.trapPlace (s : State) (p : TeId) : Nat × Nat :=
  match s.rectOfTe p with
  | some r => (r.meshC p - r.col, r.meshR p - r.row)
  | none => (p.2.1, p.2.2)

/-- The state in which a trap of a slot has discarded and stopped its image (R151). -/
def State.trapStop (s : State) (m : Image) (cause : Nat) : State :=
  s.discardInstance m.id { cause := some cause, stops := true }

/-- The stop that a trap causes: an instance that the image has is undone and counted, and without one the TEs' registers and
queues stand, and memory and threads do (R170, R231, R232). -/
theorem trapStop_stops {s : State} {m : Image} (hm : s.image? m.id = some m) (hc : m.committing = false) {cause : Nat} :
    ∃ n, StoppedAs m s n (s.trapStop m cause) ∧ (m.discards = true → Undone m n) ∧
      (m.active = false → FabricOnly s (s.trapStop m cause) ∧ ∀ p, ((s.trapStop m cause).teAt p).snapshot =
        (s.teAt p).snapshot ∧ ((s.trapStop m cause).teAt p).queues = (s.teAt p).queues) := by
  have hact : m.discards = m.active := by
    unfold Image.discards
    rw [hc, Bool.not_false, Bool.and_true]
  cases hdis : m.discards with
  | true =>
    obtain ⟨n, h, hn⟩ := stoppedAs_discard hm hdis cause
    exact ⟨n, h, fun _ => hn, fun ha => nomatch (hdis.symm.trans hact).trans ha⟩
  | false =>
    obtain ⟨n, h, hfab, hte⟩ := stoppedAs_stopOnly hm hdis hc cause
    exact ⟨n, h, nofun, fun _ => ⟨hfab, hte⟩⟩

theorem ownerThread_congr {s u : State} (h : ∀ t k, u.thread t k = s.thread t k) (m : Image) :
    u.ownerThread m = s.ownerThread m := by
  unfold State.ownerThread State.threadLives
  simp only [h]

section
variable {s : State} {p : TeId} {m : Image} (hm : s.imageOf p = some m) (hd : m.defers s.now = false) {cause : Nat}
  (hth : ∀ t k, (s.trapStop m cause).thread t k = s.thread t k)
include hm hd hth

/-- The thread of the image receives its trap (R151, R152). -/
theorem fabricTrap_of_owner {tile k : Nat} (ho : s.ownerThread m = some (tile, k)) (slot detail : Nat) :
    s.fabricTrap p slot cause detail = (s.trapStop m cause).modThread tile k fun th =>
      th.fabricTrap (ftrapWord cause detail slot (s.trapPlace p).2 (s.trapPlace p).1) := by
  have ho' := (ownerThread_congr hth m).trans ho
  unfold State.trapStop at ho'
  unfold State.fabricTrap State.trapPlace State.trapStop
  simp only [hm, Option.filter_some, hd, Bool.not_false, if_true, ho'] <;> rfl

/-- The trap of an image whose thread has halted is recorded (R151). -/
theorem fabricTrap_of_no_owner (ho : s.ownerThread m = none) (slot detail : Nat) :
    ∃ e, s.fabricTrap p slot cause detail = (s.trapStop m cause).log e := by
  have ho' := (ownerThread_congr hth m).trans ho
  unfold State.trapStop at ho'
  unfold State.fabricTrap State.trapStop
  simp only [hm, Option.filter_some, hd, Bool.not_false, if_true, ho']
  exact ⟨_, rfl⟩

end

/-- The word of a trap with a number of DETAIL's width (R152). -/
theorem ftrapWord_of_imm12 (v : BitVec 12) (slot row col : Nat) :
    ftrapWord 0x15 v.toNat slot row col =
      BitVec.ofNat 64 (2 ^ 63 + v.toNat * 2 ^ 32 + slot % 32 * 2 ^ 24 + row % 256 * 2 ^ 16 + col % 256 * 2 ^ 8 + 0x15) := by
  have hv : v.toNat % 2 ^ 16 = v.toNat := Nat.mod_eq_of_lt (by have := v.isLt; omega)
  unfold ftrapWord
  rw [hv]

theorem teAt_modThread (s : State) (t k : Nat) (f : Thread → Thread) (p : TeId) : (s.modThread t k f).teAt p = s.teAt p :=
  teAt_modCtx s t _ rfl p

/-- What the thread of an image receives with a trap (R151, R152). -/
structure TrapReceived (th : Thread) (w : Word) (now : Thread) : Prop where
  evt : now.evt = th.evt ||| 0x8000#16
  more : th.ftrap.getLsbD 63 = true → now.ftrap = th.ftrap ||| 0x4000000000000000#64
  first : th.ftrap.getLsbD 63 = false → now.ftrap = w

theorem trapReceived (th : Thread) (w : Word) : TrapReceived th w (th.fabricTrap w) := by
  refine ⟨rfl, fun h => ?_, fun h => ?_⟩
  · exact if_pos h
  · exact if_neg (by rw [show bit th.ftrap 63 = false from h]; exact Bool.false_ne_true)

/-- What a trap leaves of the threads: the thread of the image receives it where it still runs, and no other changes. -/
structure TrapDelivered (m : Image) (w : Word) (s u : State) : Prop where
  halted : s.ownerThread m = none → ∀ t k, u.thread t k = s.thread t k
  owner : ∀ tile slot, s.ownerThread m = some (tile, slot) → slot < 4 →
    TrapReceived (s.thread tile slot) w (u.thread tile slot) ∧
      ∀ t k, ¬(t = tile ∧ k = slot) → u.thread t k = s.thread t k

/-- A trap stops the image of its slot as a discard does, and is delivered (R151). -/
theorem fabricTrap_stops {s : State} {p : TeId} {m n : Image} (hm : s.imageOf p = some m) (hd : m.defers s.now = false)
    {cause : Nat} (h : StoppedAs m s n (s.trapStop m cause)) (slot detail : Nat) :
    (s.fabricTrap p slot cause detail).image? m.id = some n ∧
    (∀ q, ((s.fabricTrap p slot cause detail).teAt q) = (s.trapStop m cause).teAt q) ∧
    TrapDelivered m (ftrapWord cause detail slot (s.trapPlace p).2 (s.trapPlace p).1) s (s.fabricTrap p slot cause detail) ∧
    ((s.ownerThread m).isSome → (s.fabricTrap p slot cause detail).mem = (s.trapStop m cause).mem ∧
      (s.fabricTrap p slot cause detail).poison = (s.trapStop m cause).poison) := by
  cases ho : s.ownerThread m with
  | none =>
    obtain ⟨e, he⟩ := fabricTrap_of_no_owner hm hd h.threads ho slot detail
    rw [he]
    exact ⟨(h.log e).image, teAt_log _ e, ⟨fun _ => (h.log e).threads, fun _ _ hs => (nomatch ho.symm.trans hs)⟩, nofun⟩
  | some x =>
    obtain ⟨tile, k⟩ := x
    rw [fabricTrap_of_owner hm hd h.threads ho]
    refine ⟨h.image, teAt_modThread _ _ _ _, ⟨fun hs => (nomatch ho.symm.trans hs), fun tile' k' hs hk => ?_⟩,
      fun _ => ⟨rfl, rfl⟩⟩
    obtain ⟨rfl, rfl⟩ : tile = tile' ∧ k = k' := by simpa using ho.symm.trans hs
    refine ⟨?_, fun t j hne => (thread_setThread_ne _ _ hne).trans (h.threads t j)⟩
    rw [thread_modThread_same _ _ _ hk, h.threads]
    exact trapReceived _ _

/-- Settles O35: a trap that is not deferred stops its image by a discard, which undoes an instance that its image has, and
leaves registers, queues and memory where it has none. -/
theorem elementTrapStopsItsImage : Obligations.ElementTrapStopsItsImage := by
  unfold Obligations.ElementTrapStopsItsImage
  intro t f s sh hf
  rw [exec_teTrap_of_fires hf]
  refine ⟨fun h => congrArg _ (fabricTrap_of_deferred (fun m hm => nomatch h.symm.trans hm) _ _ _), fun m hm h => ?_,
    fun m hm hc he => ?_⟩
  · refine congrArg _ (fabricTrap_of_deferred (fun m' hm' => ?_) _ _ _)
    obtain rfl : m = m' := Option.some.inj (hm.symm.trans hm')
    simpa [Image.defers] using h
  · have hd : m.defers s.now = false := by simpa [Image.defers, hc] using he
    obtain ⟨n, h, hundone, hidle⟩ := trapStop_stops (image?_of_imageOf hm) hc
    obtain ⟨hi, hte, hdel, hmem⟩ := fabricTrap_stops hm hd h s.focus.teSlot f.imm12.toNat
    refine ⟨_, n, rfl, hi, h.started, fun p hp => by rw [hte]; exact h.tes p hp, fun hdis => ?_, fun ha p => ?_, hdel.halted,
      fun tile slot ho hs => ?_⟩
    · obtain ⟨h1, h2, h3, h4⟩ := hundone hdis
      exact ⟨h1, h2, h3, h4⟩
    · rw [hte]
      exact (hidle ha).2 p
    · obtain ⟨⟨hevt, hmore, hfirst⟩, hothers⟩ := hdel.owner tile slot ho hs
      refine ⟨hevt, hmore, fun hv => ?_, hothers, fun ha => ?_⟩
      · exact (hfirst hv).trans (ftrapWord_of_imm12 _ _ _ _)
      · obtain ⟨hm1, hp1⟩ := hmem (by rw [ho]; rfl)
        obtain ⟨hr, hp⟩ := (hidle ha).1.sameMemory
        exact ⟨fun a => by rw [hm1, hr], hp1.trans hp⟩

end Sys2Proof.Machine
end
